-- ==== Sys2Proof/Word.lean ====
section
/-!
DEFINITION. The words of CV-KM2-A3T and its sparse stores.

A scalar value is 64 bits (R145), a vector register 2,048 bits (R227), a memory cell one byte (R4).
A sparse store (`Cells`) lists a key only when its value differs from what an unlisted key reads as.
-/

namespace Sys2Proof

/-- The 64-bit value a move carries (R145). -/
abbrev Word := BitVec 64

/-- One byte of memory (R4). -/
abbrev Byte := BitVec 8

/-- A vector register: 256 bytes (R227). -/
abbrev Vec := BitVec 2048

/-- A store that lists only the keys whose value is not the default. -/
abbrev Cells (α : Type) := List (Nat × α)

end Sys2Proof
end

