-- ==== Sys2Proof/Syntax.lean ====
section
/-!
DEFINITION. The syntax of CV-KM2-A3T: the move slots of a bundle, one constructor for each trigger operation, and
the module's events, one constructor for each row of the opcode table that has no encoding.
-/

namespace Sys2Proof

/-- A slot's guard (R147): always, or a guard register k1 to k6 (index 0 to 5) read as 1 or as 0. -/
inductive Guard where
  | always
  | on (k : Fin 6)
  | off (k : Fin 6)
  deriving DecidableEq, Repr

/-- The two integer units. -/
inductive Ia where
  | ia0
  | ia1
  deriving DecidableEq, Repr

/-- The four counters a counted wait watches (R191). -/
inductive Ctr where
  | ld
  | st
  | cp
  | mx
  deriving DecidableEq, Repr

/-- Result latches (R150). -/
inductive ResL where
  | ia0r | ia0h | ia1r | ia1h | agr | agn | lsr | lsh | vxr | mxs | brl | syr | qpf | spn | pwr
  deriving DecidableEq, Repr

/-- Operand latches (R152). -/
inductive OpdL where
  | ia0o | ia1o | ago | lsa | lsd | lsx | vxo | mxpcw | mxo | bro | syo | qpa | spo | pwo
  deriving DecidableEq, Repr

/-- The sources of a move (R150). -/
inductive Src where
  | g (n : Fin 64)
  | lit
  | pc
  | zero
  | stat
  | ix (n : Fin 6)
  | bid
  | cyc
  | k (n : Fin 7)
  | kw
  | cnt (c : Ctr)
  | res (l : ResL)
  | imm (v : BitVec 9)
  deriving DecidableEq, Repr

/-- The destinations of a move that are no trigger (R151, R152); guard index 0 is k1. -/
inductive Dst where
  | g (n : Fin 64)
  | opd (l : OpdL)
  | k (n : Fin 6)
  | kw
  deriving DecidableEq, Repr

/-- A host memory operation or management message's payload. -/
abbrev Bytes := List Byte

/-- A management command's header (R425): the port it came by, its status field, its tag, its payload length and its argument. -/
structure MgmtHeader where
  port : Nat
  status : BitVec 8
  tag  : BitVec 16
  len  : Nat
  arg  : Word
  deriving DecidableEq, Repr

/-- How a device load is delivered: its number, and whether its delivery shares the brick's present cycle (R156). -/
structure LoadEnd where
  id : Nat
  shared : Bool
  deriving DecidableEq, Repr

/-- Who asks, of another module: the link by which the packet came, its node and its agent (R96, R433, R434). -/
structure FabSource where
  link : Nat
  src : Nat
  source : Nat
  deriving DecidableEq, Repr

/-- Under what a request of another module is made: the path code of its access, its context, virtual address and key id
(R79, R80, R98), and the ord and scope codes of an atomic (R198, R297). -/
structure FabAccess where
  path : Nat
  ctx : Nat
  va : Nat
  key : Nat
  ord : Nat
  scope : Nat
  deriving DecidableEq, Repr

/-- What a request of another module brings with its operation, the tag of its answer among it (R433, R434). -/
structure FabReq extends FabSource, FabAccess where
  tag : Nat
  deriving DecidableEq, Repr

/-- The data of a fabric packet and its poison bit (R87, R433). -/
structure FabData where
  bytes : Bytes
  poisoned : Bool
  deriving DecidableEq, Repr

/-- A packet and the link by which it came. -/
structure FabPacket where
  link : Nat
  bytes : Bytes
  deriving DecidableEq, Repr

/-- A rank's contribution, its poison bit and the link by which it came (R87, R127). -/
structure FabPart extends FabData where
  link : Nat
  deriving DecidableEq, Repr

/-- What a reply brings with its data: its link, its status (0 good, 1 a fault, 2 poison) and a fault's kind (R84, R87, R434). -/
structure FabEnd where
  link : Nat
  status : Nat
  kind : Nat
  deriving DecidableEq, Repr

/-- An acknowledgement: what it answers, its status and a fault's kind (R80, R434). -/
structure FabAck where
  id : Nat
  status : Nat
  kind : Nat
  deriving DecidableEq, Repr

/-- Every row of the opcode table. A slot's guard and source come first; an event carries what it is about. -/
inductive Instr where
  | move (gd : Guard) (x : Src) (d : Dst)
  | literalSignExtending (p : BitVec 20)
  | literalZeroExtending (p : BitVec 20)
  | emptySlot
  | iaAdd (gd : Guard) (u : Ia) (x : Src)
  | iaSub (gd : Guard) (u : Ia) (x : Src)
  | iaAdc (gd : Guard) (u : Ia) (x : Src)
  | iaSbc (gd : Guard) (u : Ia) (x : Src)
  | iaAdds (gd : Guard) (u : Ia) (x : Src)
  | iaSubs (gd : Guard) (u : Ia) (x : Src)
  | iaMin (gd : Guard) (u : Ia) (x : Src)
  | iaMax (gd : Guard) (u : Ia) (x : Src)
  | iaMinu (gd : Guard) (u : Ia) (x : Src)
  | iaMaxu (gd : Guard) (u : Ia) (x : Src)
  | iaAbs (gd : Guard) (u : Ia) (x : Src)
  | iaMul (gd : Guard) (u : Ia) (x : Src)
  | iaMulu (gd : Guard) (u : Ia) (x : Src)
  | iaMulsu (gd : Guard) (u : Ia) (x : Src)
  | iaDiv (gd : Guard) (u : Ia) (x : Src)
  | iaDivu (gd : Guard) (u : Ia) (x : Src)
  | iaAnd (gd : Guard) (u : Ia) (x : Src)
  | iaOr (gd : Guard) (u : Ia) (x : Src)
  | iaXor (gd : Guard) (u : Ia) (x : Src)
  | iaAndn (gd : Guard) (u : Ia) (x : Src)
  | iaShl (gd : Guard) (u : Ia) (x : Src)
  | iaShr (gd : Guard) (u : Ia) (x : Src)
  | iaSar (gd : Guard) (u : Ia) (x : Src)
  | iaRol (gd : Guard) (u : Ia) (x : Src)
  | iaRor (gd : Guard) (u : Ia) (x : Src)
  | iaClz (gd : Guard) (u : Ia) (x : Src)
  | iaCtz (gd : Guard) (u : Ia) (x : Src)
  | iaPopc (gd : Guard) (u : Ia) (x : Src)
  | iaBext (gd : Guard) (u : Ia) (x : Src)
  | iaBexts (gd : Guard) (u : Ia) (x : Src)
  | iaSeq (gd : Guard) (u : Ia) (x : Src)
  | iaSne (gd : Guard) (u : Ia) (x : Src)
  | iaSlt (gd : Guard) (u : Ia) (x : Src)
  | iaSltu (gd : Guard) (u : Ia) (x : Src)
  | iaSle (gd : Guard) (u : Ia) (x : Src)
  | iaSleu (gd : Guard) (u : Ia) (x : Src)
  | iaSext (gd : Guard) (u : Ia) (x : Src)
  | iaZext (gd : Guard) (u : Ia) (x : Src)
  | iaBswap (gd : Guard) (u : Ia) (x : Src)
  | agAdd (gd : Guard) (x : Src)
  | agIdx (gd : Guard) (x : Src)
  | agPost (gd : Guard) (x : Src)
  | agPre (gd : Guard) (x : Src)
  | agRing (gd : Guard) (x : Src)
  | agAlign (gd : Guard) (x : Src)
  | agSlot (gd : Guard) (x : Src)
  | agAcc (gd : Guard) (x : Src)
  | lsSldB (gd : Guard) (x : Src)
  | lsSldBu (gd : Guard) (x : Src)
  | lsSldH (gd : Guard) (x : Src)
  | lsSldHu (gd : Guard) (x : Src)
  | lsSldW (gd : Guard) (x : Src)
  | lsSldWu (gd : Guard) (x : Src)
  | lsSldD (gd : Guard) (x : Src)
  | lsSvld (gd : Guard) (x : Src)
  | lsSstB (gd : Guard) (x : Src)
  | lsSstH (gd : Guard) (x : Src)
  | lsSstW (gd : Guard) (x : Src)
  | lsSstD (gd : Guard) (x : Src)
  | lsSvst (gd : Guard) (x : Src)
  | lsLdB (gd : Guard) (x : Src)
  | lsLdBu (gd : Guard) (x : Src)
  | lsLdH (gd : Guard) (x : Src)
  | lsLdHu (gd : Guard) (x : Src)
  | lsLdW (gd : Guard) (x : Src)
  | lsLdWu (gd : Guard) (x : Src)
  | lsLdD (gd : Guard) (x : Src)
  | lsLdQ (gd : Guard) (x : Src)
  | lsVld (gd : Guard) (x : Src)
  | lsLdWAcq (gd : Guard) (x : Src)
  | lsLdDAcq (gd : Guard) (x : Src)
  | lsStB (gd : Guard) (x : Src)
  | lsStH (gd : Guard) (x : Src)
  | lsStW (gd : Guard) (x : Src)
  | lsStD (gd : Guard) (x : Src)
  | lsStQ (gd : Guard) (x : Src)
  | lsVst (gd : Guard) (x : Src)
  | lsStWRel (gd : Guard) (x : Src)
  | lsStDRel (gd : Guard) (x : Src)
  | lsRstD (gd : Guard) (x : Src)
  | lsAmoAdd (gd : Guard) (x : Src)
  | lsAmoAnd (gd : Guard) (x : Src)
  | lsAmoOr (gd : Guard) (x : Src)
  | lsAmoXor (gd : Guard) (x : Src)
  | lsAmoMin (gd : Guard) (x : Src)
  | lsAmoMax (gd : Guard) (x : Src)
  | lsAmoMinu (gd : Guard) (x : Src)
  | lsAmoMaxu (gd : Guard) (x : Src)
  | lsAmoSwap (gd : Guard) (x : Src)
  | lsAmoCas (gd : Guard) (x : Src)
  | lsAmoFadd (gd : Guard) (x : Src)
  | lsAmoAddC (gd : Guard) (x : Src)
  | lsAmoAndC (gd : Guard) (x : Src)
  | lsAmoOrC (gd : Guard) (x : Src)
  | lsAmoXorC (gd : Guard) (x : Src)
  | lsAmoMinC (gd : Guard) (x : Src)
  | lsAmoMaxC (gd : Guard) (x : Src)
  | lsAmoMinuC (gd : Guard) (x : Src)
  | lsAmoMaxuC (gd : Guard) (x : Src)
  | lsAmoSwapC (gd : Guard) (x : Src)
  | lsAmoFaddComb (gd : Guard) (x : Src)
  | lsChld (gd : Guard) (x : Src)
  | lsTlk (gd : Guard) (x : Src)
  | lsTget (gd : Guard) (x : Src)
  | lsTset (gd : Guard) (x : Src)
  | lsLarm (gd : Guard) (x : Src)
  | vxVaddI32 (gd : Guard) (x : Src)
  | vxVsubI32 (gd : Guard) (x : Src)
  | vxVaddsI32 (gd : Guard) (x : Src)
  | vxVsubsI32 (gd : Guard) (x : Src)
  | vxVaddsuI32 (gd : Guard) (x : Src)
  | vxVsubsuI32 (gd : Guard) (x : Src)
  | vxVmulI32 (gd : Guard) (x : Src)
  | vxVmulhI32 (gd : Guard) (x : Src)
  | vxVminI32 (gd : Guard) (x : Src)
  | vxVmaxI32 (gd : Guard) (x : Src)
  | vxVminuI32 (gd : Guard) (x : Src)
  | vxVmaxuI32 (gd : Guard) (x : Src)
  | vxVand (gd : Guard) (x : Src)
  | vxVor (gd : Guard) (x : Src)
  | vxVxor (gd : Guard) (x : Src)
  | vxVshl (gd : Guard) (x : Src)
  | vxVshr (gd : Guard) (x : Src)
  | vxVsar (gd : Guard) (x : Src)
  | vxVsel (gd : Guard) (x : Src)
  | vxVaddF32 (gd : Guard) (x : Src)
  | vxVsubF32 (gd : Guard) (x : Src)
  | vxVmulF32 (gd : Guard) (x : Src)
  | vxVfmaF32 (gd : Guard) (x : Src)
  | vxVfmsF32 (gd : Guard) (x : Src)
  | vxVminF32 (gd : Guard) (x : Src)
  | vxVmaxF32 (gd : Guard) (x : Src)
  | vxVdivF32 (gd : Guard) (x : Src)
  | vxVsqrtF32 (gd : Guard) (x : Src)
  | vxVabsF32 (gd : Guard) (x : Src)
  | vxVnegF32 (gd : Guard) (x : Src)
  | vxVrcpeF32 (gd : Guard) (x : Src)
  | vxVrsqrteF32 (gd : Guard) (x : Src)
  | vxVexp2F32 (gd : Guard) (x : Src)
  | vxVlog2F32 (gd : Guard) (x : Src)
  | vxVtanhF32 (gd : Guard) (x : Src)
  | vxVceqI32 (gd : Guard) (x : Src)
  | vxVcltI32 (gd : Guard) (x : Src)
  | vxVcleI32 (gd : Guard) (x : Src)
  | vxVcltuI32 (gd : Guard) (x : Src)
  | vxVcleuI32 (gd : Guard) (x : Src)
  | vxVceqF32 (gd : Guard) (x : Src)
  | vxVcltF32 (gd : Guard) (x : Src)
  | vxVcleF32 (gd : Guard) (x : Src)
  | vxVcunF32 (gd : Guard) (x : Src)
  | vxMand (gd : Guard) (x : Src)
  | vxMor (gd : Guard) (x : Src)
  | vxMxor (gd : Guard) (x : Src)
  | vxMandn (gd : Guard) (x : Src)
  | vxMset (gd : Guard) (x : Src)
  | vxMget (gd : Guard) (x : Src)
  | vxMpopc (gd : Guard) (x : Src)
  | vxMfirst (gd : Guard) (x : Src)
  | vxVany (gd : Guard) (x : Src)
  | vxVall (gd : Guard) (x : Src)
  | vxVcvt (gd : Guard) (x : Src)
  | vxVcvtSc (gd : Guard) (x : Src)
  | vxVmov (gd : Guard) (x : Src)
  | vxVbcast (gd : Guard) (x : Src)
  | vxVins (gd : Guard) (x : Src)
  | vxVext (gd : Guard) (x : Src)
  | vxVperm (gd : Guard) (x : Src)
  | vxVrot (gd : Guard) (x : Src)
  | vxVzipLo (gd : Guard) (x : Src)
  | vxVzipHi (gd : Guard) (x : Src)
  | vxVcomp (gd : Guard) (x : Src)
  | vxVraddI32 (gd : Guard) (x : Src)
  | vxVraddF32 (gd : Guard) (x : Src)
  | vxVrminI32 (gd : Guard) (x : Src)
  | vxVrmaxI32 (gd : Guard) (x : Src)
  | vxVrminuI32 (gd : Guard) (x : Src)
  | vxVrmaxuI32 (gd : Guard) (x : Src)
  | vxVrminF32 (gd : Guard) (x : Src)
  | vxVrmaxF32 (gd : Guard) (x : Src)
  | vxVdotG16 (gd : Guard) (x : Src)
  | vxRnd32 (gd : Guard) (x : Src)
  | vxViota (gd : Guard) (x : Src)
  | mxMm (gd : Guard) (x : Src)
  | mxMmT (gd : Guard) (x : Src)
  | mxMmc (gd : Guard) (x : Src)
  | mxMms (gd : Guard) (x : Src)
  | mxMmsT (gd : Guard) (x : Src)
  | mxMmcs (gd : Guard) (x : Src)
  | mxCclr (gd : Guard) (x : Src)
  | mxCacc (gd : Guard) (x : Src)
  | mxCscl (gd : Guard) (x : Src)
  | mxStat (gd : Guard) (x : Src)
  | mxDrain (gd : Guard) (x : Src)
  | mxDrainq (gd : Guard) (x : Src)
  | brTgt (gd : Guard) (x : Src)
  | brCeq (gd : Guard) (x : Src)
  | brCne (gd : Guard) (x : Src)
  | brClt (gd : Guard) (x : Src)
  | brCge (gd : Guard) (x : Src)
  | brCltu (gd : Guard) (x : Src)
  | brCgeu (gd : Guard) (x : Src)
  | brJmp (gd : Guard) (x : Src)
  | brJt (gd : Guard) (x : Src)
  | brCall (gd : Guard) (x : Src)
  | brRet (gd : Guard) (x : Src)
  | brLoop (gd : Guard) (x : Src)
  | syWait (gd : Guard) (x : Src)
  | syWaitall (gd : Guard) (x : Src)
  | syExit (gd : Guard) (x : Src)
  | syYield (gd : Guard) (x : Src)
  | sySusp (gd : Guard) (x : Src)
  | syWtok (gd : Guard) (x : Src)
  | syArmw (gd : Guard) (x : Src)
  | syFencex (gd : Guard) (x : Src)
  | syPhase (gd : Guard) (x : Src)
  | syBar (gd : Guard) (x : Src)
  | syArrive (gd : Guard) (x : Src)
  | syBleave (gd : Guard) (x : Src)
  | syTspawn (gd : Guard) (x : Src)
  | syTdec (gd : Guard) (x : Src)
  | syTinc (gd : Guard) (x : Src)
  | syTkill (gd : Guard) (x : Src)
  | syTread (gd : Guard) (x : Src)
  | syTself (gd : Guard) (x : Src)
  | syTteam (gd : Guard) (x : Src)
  | syTprio (gd : Guard) (x : Src)
  | syRsr (gd : Guard) (x : Src)
  | syWsr (gd : Guard) (x : Src)
  | syTrap (gd : Guard) (x : Src)
  | syTret (gd : Guard) (x : Src)
  | qpPush (gd : Guard) (x : Src)
  | qpPushw (gd : Guard) (x : Src)
  | qpPushn (gd : Guard) (x : Src)
  | qpFree (gd : Guard) (x : Src)
  | spSend (gd : Guard) (x : Src)
  | spSendn (gd : Guard) (x : Src)
  | spRecv (gd : Guard) (x : Src)
  | spRecvn (gd : Guard) (x : Src)
  | spCnt (gd : Guard) (x : Src)
  | pwAcq (gd : Guard) (x : Src)
  | pwRel (gd : Guard) (x : Src)
  | pwCls (gd : Guard) (x : Src)
  | pwDst (gd : Guard) (x : Src)
  | pwGate (gd : Guard) (x : Src)
  | pwUngate (gd : Guard) (x : Src)
  | pwMsd (gd : Guard) (x : Src)
  | pwMst (gd : Guard) (x : Src)
  | operationResultWrite
  | stallSuspension
  | spireFull
  | spireEntryArrival
  | armwTimeout
  | localWritePacket (space : Nat) (off : Nat) (data : Bytes) (source : Nat)
  | deviceLoadComplete (d : LoadEnd)
  | deviceAccessReply (id : Nat)
  | sliceWrite (id : Nat) (held : Bool)
  | sliceRead (id : Nat)
  | sliceAtomic (id : Nat) (held : Bool)
  | sliceLineArrival (line : Nat)
  | baseDieAccess (ctx : Nat) (key : Nat) (pa : Nat) (whole : Bool) (cmp : Bool)
  | towerWalk (id : Nat)
  | shadowWalk
  | parkLimit
  | freplRetry (tok : Nat)
  | freplAbort (tok : Nat)
  | tlbinv (tower : Nat) (val : Word)
  | tlbinvDone (tower : Nat)
  | preq (tower : Nat) (val : Word)
  | actclr (tower : Nat)
  | domeRegisterWrite (tower : Nat) (num : Nat) (val : Word)
  | thermalSample (stack : Nat) (deg : Nat)
  | budgetWindow (d : Nat)
  | powerGrant (d : Nat)
  | grantTimeout
  | domainGated (d : Nat)
  | domainPowerReturn (d : Nat)
  | engineCommandAccept (e : Nat)
  | pushBufferDrain
  | engineCommandStart (e : Nat)
  | engineCommandComplete (e : Nat) (i : Nat)
  | streamSbpop (e : Nat) (n : Nat)
  | streamSbpush (e : Nat) (data : Bytes)
  | routineEcall (e : Nat) (a0 : Word)
  | routineWatchdog (e : Nat)
  | collectiveAbort (e : Nat)
  | combineArrival (r : Nat) (id : Nat)
  | waitBufferRelease (r : Nat)
  | splitReply (r : Nat) (id : Nat)
  | chainStep (id : Nat)
  | chainReturn (id : Nat)
  | mxOpStart
  | mxRangeRelease
  | mxStreamWait
  | mxOpComplete
  | barrierArrival (id : Nat)
  | taskExitReport (tid : Nat)
  | taskWake (tid : Nat)
  | brickTakesWork
  | dispatch
  | teamDispatch (tower : Nat)
  | localQueueRecall
  | queueRefill (tower : Nat) (prio : Nat)
  | balancingRound (tower : Nat)
  | teamSliceEnd (launch : Nat)
  | preempt
  | restore (tid : Nat)
  | savedImageWrite (tid : Nat) (space : Nat) (off : Nat) (data : Bytes)
  | gangSliceStart (i : Nat)
  | gangSliceEnd
  | gangSkewExpiry
  | gangAbort
  | launchRingWake (ctx : Nat)
  | launchExpand
  | launchComplete (launch : Nat)
  | msdComplete (id : Nat)
  | holdupFreeze
  | holdupSave (n : Nat)
  | holdupSeal
  | supplyReturn
  | reset
  | rdmaWrite (port : Nat) (qp : Nat) (rkey : Nat) (va : Nat) (data : Bytes)
  | rdmaRead (port : Nat) (qp : Nat) (rkey : Nat) (va : Nat) (len : Nat)
  | atomicFetchAdd (port : Nat) (qp : Nat) (rkey : Nat) (va : Nat) (add : Word)
  | atomicCmpSwap (port : Nat) (qp : Nat) (rkey : Nat) (va : Nat) (cmp : Word) (swap : Word)
  | readConfiguration (h : MgmtHeader) (pl : Bytes)
  | readDomeRegister (h : MgmtHeader) (pl : Bytes)
  | writeDomeRegister (h : MgmtHeader) (pl : Bytes)
  | setContext (h : MgmtHeader) (pl : Bytes)
  | setWindow (h : MgmtHeader) (pl : Bytes)
  | setRegion (h : MgmtHeader) (pl : Bytes)
  | openKeyTransport (h : MgmtHeader) (pl : Bytes)
  | loadKey (h : MgmtHeader) (pl : Bytes)
  | clearKey (h : MgmtHeader) (pl : Bytes)
  | keySlotCleared (slot : Nat)
  | attest (h : MgmtHeader) (pl : Bytes)
  | debugNonce (h : MgmtHeader) (pl : Bytes)
  | debugUnlock (h : MgmtHeader) (pl : Bytes)
  | debugRevoke (h : MgmtHeader) (pl : Bytes)
  | restartReport (h : MgmtHeader) (pl : Bytes)
  | readKeep (h : MgmtHeader) (pl : Bytes)
  | stageFirmware (h : MgmtHeader) (pl : Bytes)
  | commitFirmware (h : MgmtHeader) (pl : Bytes)
  | setGroup (h : MgmtHeader) (pl : Bytes)
  | setNode (h : MgmtHeader) (pl : Bytes)
  | readLogs (h : MgmtHeader) (pl : Bytes)
  | flitReceive (link : Nat) (flit : Bytes)
  | fabricStore (src : FabSource) (pa : Nat) (q : FabAccess) (d : FabData) (tag : Nat)
  | fabricLoad (src : FabSource) (pa : Nat) (q : FabAccess) (len : Nat) (tag : Nat)
  | fabricLoadReply (id : Nat) (data : Bytes) (r : FabEnd)
  | fabricAtomic (q : FabReq) (pa : Nat) (op : Nat) (w8 : Bool) (mode : Nat) (opd : Word) (cmp : Word) (poisoned : Bool)
  | fabricCombinableAtomic (q : FabReq) (pa : Nat) (op : Nat) (w8 : Bool) (mode : Nat) (opd : Word) (poisoned : Bool)
  | fabricAtomicReply (id : Nat) (old : Word) (flags : BitVec 7) (status : Nat) (kind : Nat)
  | fabricChainStep (p : FabPacket)
  | fabricChainReturn (id : Nat) (status : Nat) (kind : Nat) (step : Nat) (addr : Nat) (val : Word)
  | fabricCollective (e : Nat) (rank : Nat) (d : FabPart)
  | fabricControl (src : Nat) (gang : Option Nat) (time : Nat)
  | fabricAcknowledgement (a : FabAck)
  | fabricTimeSync
  | linkLaneChange (link : Nat) (use : Nat)
  | linkDown (link : Nat)
  | supplyEnd
  | linkTraining (link : Nat) (combines : Bool)
  | halt (brick : Nat)
  | haltResume (brick : Nat)
  | lockFuseBlow
  | brickRetirement (brick : Nat)
  | bStreamDelivery
  | hostResponse (e : Nat) (i : Nat) (ok : Bool) (data : Bytes)
  | retryExhaustion (e : Nat) (i : Nat)
  | streamCoreTrap (e : Nat) (mcause : Word)
  | gangSliceBroadcast (i : Nat) (start : Nat)
  | pauseFrame (port : Nat) (pause : Bool)
  deriving DecidableEq, Repr

end Sys2Proof
end

