-- ==== Sys2Proof/WellFormed.lean ====
section
/-!
DEFINITION. Well-formedness. A slot's operands are of types that hold only what R145 to R152 allow; an event names
parts of the module within their ranges (R9, R20, R111, R395, R425).
-/

namespace Sys2Proof

/-- Whether an instruction is a slot of a bundle (rather than an event). -/
def Instr.isSlot : Instr → Bool
  | .operationResultWrite => false
  | .stallSuspension => false
  | .spireFull => false
  | .spireEntryArrival => false
  | .armwTimeout => false
  | .localWritePacket _ _ _ _ => false
  | .deviceLoadComplete _ => false
  | .deviceAccessReply _ => false
  | .sliceWrite _ _ => false
  | .sliceRead _ => false
  | .sliceAtomic _ _ => false
  | .sliceLineArrival _ => false
  | .baseDieAccess _ _ _ _ _ => false
  | .towerWalk _ => false
  | .shadowWalk => false
  | .parkLimit => false
  | .freplRetry _ => false
  | .freplAbort _ => false
  | .tlbinv _ _ => false
  | .tlbinvDone _ => false
  | .preq _ _ => false
  | .actclr _ => false
  | .domeRegisterWrite _ _ _ => false
  | .thermalSample _ _ => false
  | .budgetWindow _ => false
  | .powerGrant _ => false
  | .grantTimeout => false
  | .domainGated _ => false
  | .domainPowerReturn _ => false
  | .engineCommandAccept _ => false
  | .pushBufferDrain => false
  | .engineCommandStart _ => false
  | .engineCommandComplete _ _ => false
  | .streamSbpop _ _ => false
  | .streamSbpush _ _ => false
  | .routineEcall _ _ => false
  | .routineWatchdog _ => false
  | .collectiveAbort _ => false
  | .combineArrival _ _ => false
  | .waitBufferRelease _ => false
  | .splitReply _ _ => false
  | .chainStep _ => false
  | .chainReturn _ => false
  | .mxOpStart => false
  | .mxRangeRelease => false
  | .mxStreamWait => false
  | .mxOpComplete => false
  | .barrierArrival _ => false
  | .taskExitReport _ => false
  | .taskWake _ => false
  | .brickTakesWork => false
  | .dispatch => false
  | .teamDispatch _ => false
  | .localQueueRecall => false
  | .queueRefill _ _ => false
  | .balancingRound _ => false
  | .teamSliceEnd _ => false
  | .preempt => false
  | .restore _ => false
  | .savedImageWrite _ _ _ _ => false
  | .gangSliceStart _ => false
  | .gangSliceEnd => false
  | .gangSkewExpiry => false
  | .gangAbort => false
  | .launchRingWake _ => false
  | .launchExpand => false
  | .launchComplete _ => false
  | .msdComplete _ => false
  | .holdupFreeze => false
  | .holdupSave _ => false
  | .holdupSeal => false
  | .supplyReturn => false
  | .reset => false
  | .rdmaWrite _ _ _ _ _ => false
  | .rdmaRead _ _ _ _ _ => false
  | .atomicFetchAdd _ _ _ _ _ => false
  | .atomicCmpSwap _ _ _ _ _ _ => false
  | .readConfiguration _ _ => false
  | .readDomeRegister _ _ => false
  | .writeDomeRegister _ _ => false
  | .setContext _ _ => false
  | .setWindow _ _ => false
  | .setRegion _ _ => false
  | .openKeyTransport _ _ => false
  | .loadKey _ _ => false
  | .clearKey _ _ => false
  | .keySlotCleared _ => false
  | .attest _ _ => false
  | .debugNonce _ _ => false
  | .debugUnlock _ _ => false
  | .debugRevoke _ _ => false
  | .restartReport _ _ => false
  | .readKeep _ _ => false
  | .stageFirmware _ _ => false
  | .commitFirmware _ _ => false
  | .setGroup _ _ => false
  | .setNode _ _ => false
  | .readLogs _ _ => false
  | .flitReceive _ _ => false
  | .fabricStore _ _ _ _ _ => false
  | .fabricLoad _ _ _ _ _ => false
  | .fabricLoadReply _ _ _ => false
  | .fabricAtomic _ _ _ _ _ _ _ _ => false
  | .fabricCombinableAtomic _ _ _ _ _ _ _ => false
  | .fabricAtomicReply _ _ _ _ _ => false
  | .fabricChainStep _ => false
  | .fabricChainReturn _ _ _ _ _ _ => false
  | .fabricCollective _ _ _ => false
  | .fabricControl _ _ _ => false
  | .fabricAcknowledgement _ => false
  | .fabricTimeSync => false
  | .linkLaneChange _ _ => false
  | .linkDown _ => false
  | .supplyEnd => false
  | .linkTraining _ _ => false
  | .halt _ => false
  | .haltResume _ => false
  | .lockFuseBlow => false
  | .brickRetirement _ => false
  | .bStreamDelivery => false
  | .hostResponse _ _ _ _ => false
  | .retryExhaustion _ _ => false
  | .streamCoreTrap _ _ => false
  | .gangSliceBroadcast _ _ => false
  | .pauseFrame _ _ => false
  | _ => true

/-- The guard of a move slot; literals, the empty slot and events have none (R147). -/
def Instr.guard : Instr → Option Guard
  | .move gd _ _ => some gd
  | .iaAdd gd _ _ => some gd
  | .iaSub gd _ _ => some gd
  | .iaAdc gd _ _ => some gd
  | .iaSbc gd _ _ => some gd
  | .iaAdds gd _ _ => some gd
  | .iaSubs gd _ _ => some gd
  | .iaMin gd _ _ => some gd
  | .iaMax gd _ _ => some gd
  | .iaMinu gd _ _ => some gd
  | .iaMaxu gd _ _ => some gd
  | .iaAbs gd _ _ => some gd
  | .iaMul gd _ _ => some gd
  | .iaMulu gd _ _ => some gd
  | .iaMulsu gd _ _ => some gd
  | .iaDiv gd _ _ => some gd
  | .iaDivu gd _ _ => some gd
  | .iaAnd gd _ _ => some gd
  | .iaOr gd _ _ => some gd
  | .iaXor gd _ _ => some gd
  | .iaAndn gd _ _ => some gd
  | .iaShl gd _ _ => some gd
  | .iaShr gd _ _ => some gd
  | .iaSar gd _ _ => some gd
  | .iaRol gd _ _ => some gd
  | .iaRor gd _ _ => some gd
  | .iaClz gd _ _ => some gd
  | .iaCtz gd _ _ => some gd
  | .iaPopc gd _ _ => some gd
  | .iaBext gd _ _ => some gd
  | .iaBexts gd _ _ => some gd
  | .iaSeq gd _ _ => some gd
  | .iaSne gd _ _ => some gd
  | .iaSlt gd _ _ => some gd
  | .iaSltu gd _ _ => some gd
  | .iaSle gd _ _ => some gd
  | .iaSleu gd _ _ => some gd
  | .iaSext gd _ _ => some gd
  | .iaZext gd _ _ => some gd
  | .iaBswap gd _ _ => some gd
  | .agAdd gd _ => some gd
  | .agIdx gd _ => some gd
  | .agPost gd _ => some gd
  | .agPre gd _ => some gd
  | .agRing gd _ => some gd
  | .agAlign gd _ => some gd
  | .agSlot gd _ => some gd
  | .agAcc gd _ => some gd
  | .lsSldB gd _ => some gd
  | .lsSldBu gd _ => some gd
  | .lsSldH gd _ => some gd
  | .lsSldHu gd _ => some gd
  | .lsSldW gd _ => some gd
  | .lsSldWu gd _ => some gd
  | .lsSldD gd _ => some gd
  | .lsSvld gd _ => some gd
  | .lsSstB gd _ => some gd
  | .lsSstH gd _ => some gd
  | .lsSstW gd _ => some gd
  | .lsSstD gd _ => some gd
  | .lsSvst gd _ => some gd
  | .lsLdB gd _ => some gd
  | .lsLdBu gd _ => some gd
  | .lsLdH gd _ => some gd
  | .lsLdHu gd _ => some gd
  | .lsLdW gd _ => some gd
  | .lsLdWu gd _ => some gd
  | .lsLdD gd _ => some gd
  | .lsLdQ gd _ => some gd
  | .lsVld gd _ => some gd
  | .lsLdWAcq gd _ => some gd
  | .lsLdDAcq gd _ => some gd
  | .lsStB gd _ => some gd
  | .lsStH gd _ => some gd
  | .lsStW gd _ => some gd
  | .lsStD gd _ => some gd
  | .lsStQ gd _ => some gd
  | .lsVst gd _ => some gd
  | .lsStWRel gd _ => some gd
  | .lsStDRel gd _ => some gd
  | .lsRstD gd _ => some gd
  | .lsAmoAdd gd _ => some gd
  | .lsAmoAnd gd _ => some gd
  | .lsAmoOr gd _ => some gd
  | .lsAmoXor gd _ => some gd
  | .lsAmoMin gd _ => some gd
  | .lsAmoMax gd _ => some gd
  | .lsAmoMinu gd _ => some gd
  | .lsAmoMaxu gd _ => some gd
  | .lsAmoSwap gd _ => some gd
  | .lsAmoCas gd _ => some gd
  | .lsAmoFadd gd _ => some gd
  | .lsAmoAddC gd _ => some gd
  | .lsAmoAndC gd _ => some gd
  | .lsAmoOrC gd _ => some gd
  | .lsAmoXorC gd _ => some gd
  | .lsAmoMinC gd _ => some gd
  | .lsAmoMaxC gd _ => some gd
  | .lsAmoMinuC gd _ => some gd
  | .lsAmoMaxuC gd _ => some gd
  | .lsAmoSwapC gd _ => some gd
  | .lsAmoFaddComb gd _ => some gd
  | .lsChld gd _ => some gd
  | .lsTlk gd _ => some gd
  | .lsTget gd _ => some gd
  | .lsTset gd _ => some gd
  | .lsLarm gd _ => some gd
  | .vxVaddI32 gd _ => some gd
  | .vxVsubI32 gd _ => some gd
  | .vxVaddsI32 gd _ => some gd
  | .vxVsubsI32 gd _ => some gd
  | .vxVaddsuI32 gd _ => some gd
  | .vxVsubsuI32 gd _ => some gd
  | .vxVmulI32 gd _ => some gd
  | .vxVmulhI32 gd _ => some gd
  | .vxVminI32 gd _ => some gd
  | .vxVmaxI32 gd _ => some gd
  | .vxVminuI32 gd _ => some gd
  | .vxVmaxuI32 gd _ => some gd
  | .vxVand gd _ => some gd
  | .vxVor gd _ => some gd
  | .vxVxor gd _ => some gd
  | .vxVshl gd _ => some gd
  | .vxVshr gd _ => some gd
  | .vxVsar gd _ => some gd
  | .vxVsel gd _ => some gd
  | .vxVaddF32 gd _ => some gd
  | .vxVsubF32 gd _ => some gd
  | .vxVmulF32 gd _ => some gd
  | .vxVfmaF32 gd _ => some gd
  | .vxVfmsF32 gd _ => some gd
  | .vxVminF32 gd _ => some gd
  | .vxVmaxF32 gd _ => some gd
  | .vxVdivF32 gd _ => some gd
  | .vxVsqrtF32 gd _ => some gd
  | .vxVabsF32 gd _ => some gd
  | .vxVnegF32 gd _ => some gd
  | .vxVrcpeF32 gd _ => some gd
  | .vxVrsqrteF32 gd _ => some gd
  | .vxVexp2F32 gd _ => some gd
  | .vxVlog2F32 gd _ => some gd
  | .vxVtanhF32 gd _ => some gd
  | .vxVceqI32 gd _ => some gd
  | .vxVcltI32 gd _ => some gd
  | .vxVcleI32 gd _ => some gd
  | .vxVcltuI32 gd _ => some gd
  | .vxVcleuI32 gd _ => some gd
  | .vxVceqF32 gd _ => some gd
  | .vxVcltF32 gd _ => some gd
  | .vxVcleF32 gd _ => some gd
  | .vxVcunF32 gd _ => some gd
  | .vxMand gd _ => some gd
  | .vxMor gd _ => some gd
  | .vxMxor gd _ => some gd
  | .vxMandn gd _ => some gd
  | .vxMset gd _ => some gd
  | .vxMget gd _ => some gd
  | .vxMpopc gd _ => some gd
  | .vxMfirst gd _ => some gd
  | .vxVany gd _ => some gd
  | .vxVall gd _ => some gd
  | .vxVcvt gd _ => some gd
  | .vxVcvtSc gd _ => some gd
  | .vxVmov gd _ => some gd
  | .vxVbcast gd _ => some gd
  | .vxVins gd _ => some gd
  | .vxVext gd _ => some gd
  | .vxVperm gd _ => some gd
  | .vxVrot gd _ => some gd
  | .vxVzipLo gd _ => some gd
  | .vxVzipHi gd _ => some gd
  | .vxVcomp gd _ => some gd
  | .vxVraddI32 gd _ => some gd
  | .vxVraddF32 gd _ => some gd
  | .vxVrminI32 gd _ => some gd
  | .vxVrmaxI32 gd _ => some gd
  | .vxVrminuI32 gd _ => some gd
  | .vxVrmaxuI32 gd _ => some gd
  | .vxVrminF32 gd _ => some gd
  | .vxVrmaxF32 gd _ => some gd
  | .vxVdotG16 gd _ => some gd
  | .vxRnd32 gd _ => some gd
  | .vxViota gd _ => some gd
  | .mxMm gd _ => some gd
  | .mxMmT gd _ => some gd
  | .mxMmc gd _ => some gd
  | .mxMms gd _ => some gd
  | .mxMmsT gd _ => some gd
  | .mxMmcs gd _ => some gd
  | .mxCclr gd _ => some gd
  | .mxCacc gd _ => some gd
  | .mxCscl gd _ => some gd
  | .mxStat gd _ => some gd
  | .mxDrain gd _ => some gd
  | .mxDrainq gd _ => some gd
  | .brTgt gd _ => some gd
  | .brCeq gd _ => some gd
  | .brCne gd _ => some gd
  | .brClt gd _ => some gd
  | .brCge gd _ => some gd
  | .brCltu gd _ => some gd
  | .brCgeu gd _ => some gd
  | .brJmp gd _ => some gd
  | .brJt gd _ => some gd
  | .brCall gd _ => some gd
  | .brRet gd _ => some gd
  | .brLoop gd _ => some gd
  | .syWait gd _ => some gd
  | .syWaitall gd _ => some gd
  | .syExit gd _ => some gd
  | .syYield gd _ => some gd
  | .sySusp gd _ => some gd
  | .syWtok gd _ => some gd
  | .syArmw gd _ => some gd
  | .syFencex gd _ => some gd
  | .syPhase gd _ => some gd
  | .syBar gd _ => some gd
  | .syArrive gd _ => some gd
  | .syBleave gd _ => some gd
  | .syTspawn gd _ => some gd
  | .syTdec gd _ => some gd
  | .syTinc gd _ => some gd
  | .syTkill gd _ => some gd
  | .syTread gd _ => some gd
  | .syTself gd _ => some gd
  | .syTteam gd _ => some gd
  | .syTprio gd _ => some gd
  | .syRsr gd _ => some gd
  | .syWsr gd _ => some gd
  | .syTrap gd _ => some gd
  | .syTret gd _ => some gd
  | .qpPush gd _ => some gd
  | .qpPushw gd _ => some gd
  | .qpPushn gd _ => some gd
  | .qpFree gd _ => some gd
  | .spSend gd _ => some gd
  | .spSendn gd _ => some gd
  | .spRecv gd _ => some gd
  | .spRecvn gd _ => some gd
  | .spCnt gd _ => some gd
  | .pwAcq gd _ => some gd
  | .pwRel gd _ => some gd
  | .pwCls gd _ => some gd
  | .pwDst gd _ => some gd
  | .pwGate gd _ => some gd
  | .pwUngate gd _ => some gd
  | .pwMsd gd _ => some gd
  | .pwMst gd _ => some gd
  | _ => none

/-- Whether the parts an instruction names exist. -/
def Instr.wellFormed : Instr → Bool
  | .localWritePacket space _ data _ => decide (space < 3 ∧ data.length ≤ 64)
  | .tlbinv tower _ => decide (tower < 2)
  | .tlbinvDone tower => decide (tower < 2)
  | .preq tower _ => decide (tower < 2)
  | .actclr tower => decide (tower < 2)
  | .domeRegisterWrite tower _ _ => decide (tower < 2)
  | .thermalSample stack deg => decide (stack < 12 ∧ deg < 256)
  | .budgetWindow d => decide (d < 16)
  | .powerGrant d => decide (d < 16)
  | .domainGated d => decide (d < 16)
  | .domainPowerReturn d => decide (d < 16)
  | .engineCommandAccept e => decide (e < 34)
  | .engineCommandStart e => decide (e < 34)
  | .engineCommandComplete e i => decide (e < 34 ∧ i < 4)
  | .streamSbpop e _ => decide (e < 32)
  | .streamSbpush e _ => decide (e < 32)
  | .routineEcall e _ => decide (e < 32)
  | .routineWatchdog e => decide (e < 32)
  | .collectiveAbort e => decide (32 ≤ e ∧ e < 34)
  | .teamDispatch tower => decide (tower < 2)
  | .queueRefill tower prio => decide (tower < 2 ∧ prio < 4)
  | .balancingRound tower => decide (tower < 2)
  | .savedImageWrite _ space _ _ => decide (space < 3)
  | .gangSliceStart i => decide (i < 16)
  | .rdmaWrite port _ _ _ _ => decide (port < 4)
  | .rdmaRead port _ _ _ _ => decide (port < 4)
  | .atomicFetchAdd port _ _ _ _ => decide (port < 4)
  | .atomicCmpSwap port _ _ _ _ _ => decide (port < 4)
  | .readConfiguration h _ => decide (h.port < 4)
  | .readDomeRegister h _ => decide (h.port < 4)
  | .writeDomeRegister h _ => decide (h.port < 4)
  | .setContext h _ => decide (h.port < 4)
  | .setWindow h _ => decide (h.port < 4)
  | .setRegion h _ => decide (h.port < 4)
  | .openKeyTransport h _ => decide (h.port < 4)
  | .loadKey h _ => decide (h.port < 4)
  | .clearKey h _ => decide (h.port < 4)
  | .keySlotCleared slot => decide (slot < 128)
  | .attest h _ => decide (h.port < 4)
  | .debugNonce h _ => decide (h.port < 4)
  | .debugUnlock h _ => decide (h.port < 4)
  | .debugRevoke h _ => decide (h.port < 4)
  | .restartReport h _ => decide (h.port < 4)
  | .readKeep h _ => decide (h.port < 4)
  | .stageFirmware h _ => decide (h.port < 4)
  | .commitFirmware h _ => decide (h.port < 4)
  | .setGroup h _ => decide (h.port < 4)
  | .setNode h _ => decide (h.port < 4)
  | .readLogs h _ => decide (h.port < 4)
  | .flitReceive link flit => decide (link < 36 ∧ flit.length = 256)
  | .fabricCollective e _ _ => decide (32 ≤ e ∧ e < 34)
  | .linkLaneChange link _ => decide (link < 36)
  | .linkDown link => decide (link < 36)
  | .linkTraining link _ => decide (link < 36)
  | .halt brick => decide (brick < 768)
  | .haltResume brick => decide (brick < 768)
  | .brickRetirement brick => decide (brick < 768)
  | .hostResponse e i _ _ => decide (e < 34 ∧ i < 4)
  | .retryExhaustion e i => decide (e < 34 ∧ i < 4)
  | .streamCoreTrap e _ => decide (e < 32)
  | .gangSliceBroadcast i _ => decide (i < 16)
  | .pauseFrame port _ => decide (port < 4)
  | _ => true

end Sys2Proof
end

