-- ==== Sys2Proof/Decode.lean ====
section
/-!
DEFINITION. Decoding and encoding: a slot of 24 bits (R145), the checks of a bundle (R159), and the encoder written
from the same tables (R147, R150 to R152, and each unit's trigger codes).
-/

namespace Sys2Proof

/-! The compiler builds no value of a constructor beyond the 244th, so the decoder has no compiled code. The kernel
evaluates it as it stands. -/

noncomputable section

/-- Why a slot decodes to nothing, by the check of R159 that it fails. -/
inductive BadSlot where
  | emptyPayload
  | badSource
  | badDest
  | badTrigger
  deriving DecidableEq, Repr

/-- Guard codes that stand for moves (R147). -/
def decodeGuard : Nat → Option Guard
  | 0 => some .always
  | 1 => some (.on 0) | 2 => some (.on 1) | 3 => some (.on 2)
  | 4 => some (.on 3) | 5 => some (.on 4) | 6 => some (.on 5)
  | 9 => some (.off 0) | 10 => some (.off 1) | 11 => some (.off 2)
  | 12 => some (.off 3) | 13 => some (.off 4) | 14 => some (.off 5)
  | _ => none

/-- The guard code of a guard (R147). -/
def encodeGuard : Guard → Nat
  | .always => 0
  | .on k => k.val + 1
  | .off k => k.val + 9

/-- Result latches in the order of their source codes from 0x060 (R150). -/
def resLatches : List ResL :=
  [.ia0r, .ia0h, .ia1r, .ia1h, .agr, .agn, .lsr, .lsh, .vxr, .mxs, .brl, .syr, .qpf, .spn, .pwr]

/-- Operand latches in the order of their destination codes from 0x040 (R152). -/
def opdLatches : List OpdL :=
  [.ia0o, .ia1o, .ago, .lsa, .lsd, .lsx, .vxo, .mxpcw, .mxo, .bro, .syo, .qpa, .spo, .pwo]

/-- The four counters in the order of their source codes from 0x058 (R150) and of R191. -/
def counters : List Ctr := [.ld, .st, .cp, .mx]

/-- Source codes (R150). -/
def decodeSrc (c : Nat) : Option Src :=
  if h : c < 64 then some (.g ⟨c, h⟩)
  else if c = 0x040 then some .lit
  else if c = 0x041 then some .pc
  else if c = 0x042 then some .zero
  else if c = 0x043 then some .stat
  else if h : 0x044 ≤ c ∧ c < 0x04A then some (.ix ⟨c - 0x044, by omega⟩)
  else if c = 0x04A then some .bid
  else if c = 0x04B then some .cyc
  else if h : 0x050 ≤ c ∧ c < 0x057 then some (.k ⟨c - 0x050, by omega⟩)
  else if c = 0x057 then some .kw
  else if 0x058 ≤ c ∧ c < 0x05C then (counters[c - 0x058]?).map .cnt
  else if 0x060 ≤ c ∧ c < 0x06F then (resLatches[c - 0x060]?).map .res
  else if 0x200 ≤ c ∧ c < 0x400 then some (.imm (BitVec.ofNat 9 c))
  else none

/-- Index of a counter. -/
def encodeCtr : Ctr → Nat
  | .ld => 0 | .st => 1 | .cp => 2 | .mx => 3

/-- Index of a result latch. -/
def encodeRes : ResL → Nat
  | .ia0r => 0 | .ia0h => 1 | .ia1r => 2 | .ia1h => 3 | .agr => 4 | .agn => 5 | .lsr => 6 | .lsh => 7 | .vxr => 8
  | .mxs => 9 | .brl => 10 | .syr => 11 | .qpf => 12 | .spn => 13 | .pwr => 14

/-- Index of an operand latch. -/
def encodeOpd : OpdL → Nat
  | .ia0o => 0 | .ia1o => 1 | .ago => 2 | .lsa => 3 | .lsd => 4 | .lsx => 5 | .vxo => 6 | .mxpcw => 7 | .mxo => 8
  | .bro => 9 | .syo => 10 | .qpa => 11 | .spo => 12 | .pwo => 13

/-- The source code of a source (R150). -/
def encodeSrc : Src → Nat
  | .g n => n.val
  | .lit => 0x040
  | .pc => 0x041
  | .zero => 0x042
  | .stat => 0x043
  | .ix n => 0x044 + n.val
  | .bid => 0x04A
  | .cyc => 0x04B
  | .k n => 0x050 + n.val
  | .kw => 0x057
  | .cnt c => 0x058 + encodeCtr c
  | .res l => 0x060 + encodeRes l
  | .imm v => 0x200 + v.toNat

/-- Destination codes that are no trigger (R151, R152). -/
def decodeDst (c : Nat) : Option Dst :=
  if h : c < 64 then some (.g ⟨c, h⟩)
  else if 0x040 ≤ c ∧ c < 0x04E then (opdLatches[c - 0x040]?).map .opd
  else if h : 0x051 ≤ c ∧ c < 0x057 then some (.k ⟨c - 0x051, by omega⟩)
  else if c = 0x057 then some .kw
  else none

/-- The destination code of a destination that is no trigger (R152). -/
def encodeDst : Dst → Nat
  | .g n => n.val
  | .opd l => 0x040 + encodeOpd l
  | .k n => 0x051 + n.val
  | .kw => 0x057

/-- Trigger codes of the integer units (R172); `ia1` adds 0x40. -/
def iaTable : List (Nat × (Guard → Ia → Src → Instr)) :=
  [(0x080, Instr.iaAdd), (0x081, Instr.iaSub), (0x082, Instr.iaAdc), (0x083, Instr.iaSbc),
   (0x084, Instr.iaAdds), (0x085, Instr.iaSubs), (0x086, Instr.iaMin), (0x087, Instr.iaMax),
   (0x088, Instr.iaMinu), (0x089, Instr.iaMaxu), (0x08A, Instr.iaAbs), (0x08B, Instr.iaMul)] ++
  [(0x08C, Instr.iaMulu), (0x08D, Instr.iaMulsu), (0x08E, Instr.iaDiv), (0x08F, Instr.iaDivu),
   (0x090, Instr.iaAnd), (0x091, Instr.iaOr), (0x092, Instr.iaXor), (0x093, Instr.iaAndn),
   (0x094, Instr.iaShl), (0x095, Instr.iaShr), (0x096, Instr.iaSar), (0x097, Instr.iaRol)] ++
  [(0x098, Instr.iaRor), (0x099, Instr.iaClz), (0x09A, Instr.iaCtz), (0x09B, Instr.iaPopc),
   (0x09C, Instr.iaBext), (0x09D, Instr.iaBexts), (0x09E, Instr.iaSeq), (0x09F, Instr.iaSne),
   (0x0A0, Instr.iaSlt), (0x0A1, Instr.iaSltu), (0x0A2, Instr.iaSle), (0x0A3, Instr.iaSleu)] ++
  [(0x0A4, Instr.iaSext), (0x0A5, Instr.iaZext), (0x0A6, Instr.iaBswap)]

/-- Trigger codes of `ag`. -/
def agTable : List (Nat × (Guard → Src → Instr)) :=
  [(0x100, Instr.agAdd), (0x101, Instr.agIdx), (0x102, Instr.agPost), (0x103, Instr.agPre),
   (0x104, Instr.agRing), (0x105, Instr.agAlign), (0x106, Instr.agSlot), (0x107, Instr.agAcc)]

/-- Trigger codes of `ls`. -/
def lsTable : List (Nat × (Guard → Src → Instr)) :=
  [(0x120, Instr.lsSldB), (0x121, Instr.lsSldBu), (0x122, Instr.lsSldH), (0x123, Instr.lsSldHu),
   (0x124, Instr.lsSldW), (0x125, Instr.lsSldWu), (0x126, Instr.lsSldD), (0x127, Instr.lsSvld),
   (0x128, Instr.lsSstB), (0x129, Instr.lsSstH), (0x12A, Instr.lsSstW), (0x12B, Instr.lsSstD)] ++
  [(0x12C, Instr.lsSvst), (0x130, Instr.lsLdB), (0x131, Instr.lsLdBu), (0x132, Instr.lsLdH),
   (0x133, Instr.lsLdHu), (0x134, Instr.lsLdW), (0x135, Instr.lsLdWu), (0x136, Instr.lsLdD),
   (0x137, Instr.lsLdQ), (0x138, Instr.lsVld), (0x139, Instr.lsLdWAcq), (0x13A, Instr.lsLdDAcq)] ++
  [(0x140, Instr.lsStB), (0x141, Instr.lsStH), (0x142, Instr.lsStW), (0x143, Instr.lsStD),
   (0x144, Instr.lsStQ), (0x145, Instr.lsVst), (0x146, Instr.lsStWRel), (0x147, Instr.lsStDRel),
   (0x148, Instr.lsRstD), (0x150, Instr.lsAmoAdd), (0x151, Instr.lsAmoAnd), (0x152, Instr.lsAmoOr)] ++
  [(0x153, Instr.lsAmoXor), (0x154, Instr.lsAmoMin), (0x155, Instr.lsAmoMax), (0x156, Instr.lsAmoMinu),
   (0x157, Instr.lsAmoMaxu), (0x158, Instr.lsAmoSwap), (0x159, Instr.lsAmoCas), (0x15A, Instr.lsAmoFadd),
   (0x160, Instr.lsAmoAddC), (0x161, Instr.lsAmoAndC), (0x162, Instr.lsAmoOrC), (0x163, Instr.lsAmoXorC)] ++
  [(0x164, Instr.lsAmoMinC), (0x165, Instr.lsAmoMaxC), (0x166, Instr.lsAmoMinuC), (0x167, Instr.lsAmoMaxuC),
   (0x168, Instr.lsAmoSwapC), (0x169, Instr.lsAmoFaddComb), (0x170, Instr.lsChld), (0x171, Instr.lsTlk),
   (0x172, Instr.lsTget), (0x173, Instr.lsTset), (0x174, Instr.lsLarm)]

/-- Trigger codes of `vx`. -/
def vxTable : List (Nat × (Guard → Src → Instr)) :=
  [(0x1C0, Instr.vxVaddI32), (0x1C1, Instr.vxVsubI32), (0x1C2, Instr.vxVaddsI32), (0x1C3, Instr.vxVsubsI32),
   (0x1C4, Instr.vxVaddsuI32), (0x1C5, Instr.vxVsubsuI32), (0x1C6, Instr.vxVmulI32),
   (0x1C7, Instr.vxVmulhI32), (0x1C8, Instr.vxVminI32), (0x1C9, Instr.vxVmaxI32), (0x1CA, Instr.vxVminuI32),
   (0x1CB, Instr.vxVmaxuI32)] ++
  [(0x1CC, Instr.vxVand), (0x1CD, Instr.vxVor), (0x1CE, Instr.vxVxor), (0x1CF, Instr.vxVshl),
   (0x1D0, Instr.vxVshr), (0x1D1, Instr.vxVsar), (0x1D2, Instr.vxVsel), (0x1E0, Instr.vxVaddF32),
   (0x1E1, Instr.vxVsubF32), (0x1E2, Instr.vxVmulF32), (0x1E3, Instr.vxVfmaF32), (0x1E4, Instr.vxVfmsF32)] ++
  [(0x1E5, Instr.vxVminF32), (0x1E6, Instr.vxVmaxF32), (0x1E7, Instr.vxVdivF32), (0x1E8, Instr.vxVsqrtF32),
   (0x1E9, Instr.vxVabsF32), (0x1EA, Instr.vxVnegF32), (0x1F0, Instr.vxVrcpeF32),
   (0x1F1, Instr.vxVrsqrteF32), (0x1F2, Instr.vxVexp2F32), (0x1F3, Instr.vxVlog2F32),
   (0x1F4, Instr.vxVtanhF32), (0x200, Instr.vxVceqI32)] ++
  [(0x201, Instr.vxVcltI32), (0x202, Instr.vxVcleI32), (0x203, Instr.vxVcltuI32), (0x204, Instr.vxVcleuI32),
   (0x205, Instr.vxVceqF32), (0x206, Instr.vxVcltF32), (0x207, Instr.vxVcleF32), (0x208, Instr.vxVcunF32),
   (0x210, Instr.vxMand), (0x211, Instr.vxMor), (0x212, Instr.vxMxor), (0x213, Instr.vxMandn)] ++
  [(0x214, Instr.vxMset), (0x215, Instr.vxMget), (0x216, Instr.vxMpopc), (0x217, Instr.vxMfirst),
   (0x218, Instr.vxVany), (0x219, Instr.vxVall), (0x220, Instr.vxVcvt), (0x221, Instr.vxVcvtSc),
   (0x230, Instr.vxVmov), (0x231, Instr.vxVbcast), (0x232, Instr.vxVins), (0x233, Instr.vxVext)] ++
  [(0x234, Instr.vxVperm), (0x235, Instr.vxVrot), (0x236, Instr.vxVzipLo), (0x237, Instr.vxVzipHi),
   (0x238, Instr.vxVcomp), (0x240, Instr.vxVraddI32), (0x241, Instr.vxVraddF32), (0x242, Instr.vxVrminI32),
   (0x243, Instr.vxVrmaxI32), (0x244, Instr.vxVrminuI32), (0x245, Instr.vxVrmaxuI32),
   (0x246, Instr.vxVrminF32)] ++
  [(0x247, Instr.vxVrmaxF32), (0x250, Instr.vxVdotG16), (0x251, Instr.vxRnd32), (0x252, Instr.vxViota)]

/-- Trigger codes of `mx`. -/
def mxTable : List (Nat × (Guard → Src → Instr)) :=
  [(0x2C0, Instr.mxMm), (0x2C1, Instr.mxMmT), (0x2C2, Instr.mxMmc), (0x2C3, Instr.mxMms),
   (0x2C4, Instr.mxMmsT), (0x2C5, Instr.mxMmcs), (0x2C6, Instr.mxCclr), (0x2C7, Instr.mxCacc),
   (0x2C8, Instr.mxCscl), (0x2C9, Instr.mxStat), (0x2CA, Instr.mxDrain), (0x2CB, Instr.mxDrainq)]

/-- Trigger codes of `br`. -/
def brTable : List (Nat × (Guard → Src → Instr)) :=
  [(0x2E0, Instr.brTgt), (0x2E1, Instr.brCeq), (0x2E2, Instr.brCne), (0x2E3, Instr.brClt),
   (0x2E4, Instr.brCge), (0x2E5, Instr.brCltu), (0x2E6, Instr.brCgeu), (0x2E7, Instr.brJmp),
   (0x2E8, Instr.brJt), (0x2E9, Instr.brCall), (0x2EA, Instr.brRet), (0x2EB, Instr.brLoop)]

/-- Trigger codes of `sy`. -/
def syTable : List (Nat × (Guard → Src → Instr)) :=
  [(0x300, Instr.syWait), (0x301, Instr.syWaitall), (0x302, Instr.syExit), (0x303, Instr.syYield),
   (0x304, Instr.sySusp), (0x305, Instr.syWtok), (0x306, Instr.syArmw), (0x307, Instr.syFencex),
   (0x308, Instr.syPhase), (0x309, Instr.syBar), (0x30A, Instr.syArrive), (0x30B, Instr.syBleave)] ++
  [(0x310, Instr.syTspawn), (0x311, Instr.syTdec), (0x312, Instr.syTinc), (0x313, Instr.syTkill),
   (0x314, Instr.syTread), (0x315, Instr.syTself), (0x316, Instr.syTteam), (0x317, Instr.syTprio),
   (0x318, Instr.syRsr), (0x319, Instr.syWsr), (0x31A, Instr.syTrap), (0x31B, Instr.syTret)]

/-- Trigger codes of `qp`. -/
def qpTable : List (Nat × (Guard → Src → Instr)) :=
  [(0x340, Instr.qpPush), (0x341, Instr.qpPushw), (0x342, Instr.qpPushn), (0x343, Instr.qpFree)]

/-- Trigger codes of `sp`. -/
def spTable : List (Nat × (Guard → Src → Instr)) :=
  [(0x350, Instr.spSend), (0x351, Instr.spSendn), (0x352, Instr.spRecv), (0x353, Instr.spRecvn),
   (0x354, Instr.spCnt)]

/-- Trigger codes of `pw`. -/
def pwTable : List (Nat × (Guard → Src → Instr)) :=
  [(0x360, Instr.pwAcq), (0x361, Instr.pwRel), (0x362, Instr.pwCls), (0x363, Instr.pwDst),
   (0x364, Instr.pwGate), (0x365, Instr.pwUngate), (0x366, Instr.pwMsd), (0x367, Instr.pwMst)]

/-- The row of a trigger code in a unit's table. -/
def findRow (table : List (Nat × (Guard → Src → Instr))) (c : Nat) : Option (Guard → Src → Instr) :=
  (table.find? (fun r => r.1 == c)).map (·.2)

/-- Whether a code lies in a trigger range (R151). -/
def isTrigger (c : Nat) : Bool := 0x080 ≤ c && c < 0x380

/-- The unit whose trigger range holds a code, in the order of R151. -/
def unitOf (c : Nat) : Nat :=
  if c < 0x080 then 0 else if c < 0x0C0 then 1 else if c < 0x100 then 2 else if c < 0x120 then 3
  else if c < 0x1C0 then 4 else if c < 0x2C0 then 5 else if c < 0x2E0 then 6 else if c < 0x300 then 7
  else if c < 0x340 then 8 else if c < 0x350 then 9 else if c < 0x360 then 10 else if c < 0x380 then 11 else 12

/-- The operation a trigger code starts; none where no listing names the code (R151). -/
def decodeTrigger (c : Nat) : Option (Guard → Src → Instr) :=
  match unitOf c with
  | 1 => ((iaTable.find? (fun r => r.1 == c)).map (·.2)).map (fun f gd x => f gd .ia0 x)
  | 2 => ((iaTable.find? (fun r => r.1 == c - 0x40)).map (·.2)).map (fun f gd x => f gd .ia1 x)
  | 3 => findRow agTable c
  | 4 => findRow lsTable c
  | 5 => findRow vxTable c
  | 6 => findRow mxTable c
  | 7 => findRow brTable c
  | 8 => findRow syTable c
  | 9 => findRow qpTable c
  | 10 => findRow spTable c
  | 11 => findRow pwTable c
  | _ => none

/-- A slot's fields (R145). -/
def slotGuard (w : BitVec 24) : Nat := w.toNat / 2 ^ 20

/-- Destination code of a slot (R145). -/
def slotDst (w : BitVec 24) : Nat := w.toNat / 2 ^ 10 % 2 ^ 10

/-- Source code of a slot (R145). -/
def slotSrc (w : BitVec 24) : Nat := w.toNat % 2 ^ 10

/-- The instruction in a slot (R145 to R152), or the check it fails. -/
def decodeSlot (w : BitVec 24) : Except BadSlot Instr :=
  if slotGuard w = 7 then .ok (.literalSignExtending (BitVec.ofNat 20 w.toNat))
  else if slotGuard w = 15 then .ok (.literalZeroExtending (BitVec.ofNat 20 w.toNat))
  else match decodeGuard (slotGuard w) with
    | none => if w = 0x800000 then .ok .emptySlot else .error .emptyPayload
    | some gd =>
      match decodeSrc (slotSrc w) with
      | none => .error .badSource
      | some x =>
        if isTrigger (slotDst w) then
          match decodeTrigger (slotDst w) with
          | some f => .ok (f gd x)
          | none => .error .badTrigger
        else match decodeDst (slotDst w) with
          | some d => .ok (.move gd x d)
          | none => .error .badDest

/-- The instruction at the head of a string of bytes, and the bytes after it (R146: little-endian). -/
def decodeBytes : List Byte → Option (Except BadSlot Instr × List Byte)
  | a :: b :: c :: rest => some (decodeSlot (c ++ b ++ a), rest)
  | _ => none

/-- The decoder as the host's table numbers bits: a slot is one 24-bit word. -/
def decodeTableWord (nbits w : Nat) : Option Instr :=
  if nbits ≤ 24 ∧ w < 2 ^ 24 then (decodeSlot (BitVec.ofNat 24 w)).toOption else none

/-- The trigger code of an integer operation on a unit (R172). -/
def iaCode (u : Ia) (c : Nat) : Nat :=
  match u with
  | .ia0 => c
  | .ia1 => c + 0x40

/-- A move slot from its fields (R145). -/
def slotWord (gd : Guard) (dst : Nat) (x : Src) : BitVec 24 :=
  BitVec.ofNat 24 (encodeGuard gd * 2 ^ 20 + dst * 2 ^ 10 + encodeSrc x)

/-- The slot of an instruction; an event has none. -/
def encode : Instr → Option (BitVec 24)
  | .move gd x d => some (slotWord gd (encodeDst d) x)
  | .literalSignExtending p => some (BitVec.ofNat 24 (7 * 2 ^ 20 + p.toNat))
  | .literalZeroExtending p => some (BitVec.ofNat 24 (15 * 2 ^ 20 + p.toNat))
  | .emptySlot => some 0x800000
  | .iaAdd gd u x => some (slotWord gd (iaCode u 0x080) x)
  | .iaSub gd u x => some (slotWord gd (iaCode u 0x081) x)
  | .iaAdc gd u x => some (slotWord gd (iaCode u 0x082) x)
  | .iaSbc gd u x => some (slotWord gd (iaCode u 0x083) x)
  | .iaAdds gd u x => some (slotWord gd (iaCode u 0x084) x)
  | .iaSubs gd u x => some (slotWord gd (iaCode u 0x085) x)
  | .iaMin gd u x => some (slotWord gd (iaCode u 0x086) x)
  | .iaMax gd u x => some (slotWord gd (iaCode u 0x087) x)
  | .iaMinu gd u x => some (slotWord gd (iaCode u 0x088) x)
  | .iaMaxu gd u x => some (slotWord gd (iaCode u 0x089) x)
  | .iaAbs gd u x => some (slotWord gd (iaCode u 0x08A) x)
  | .iaMul gd u x => some (slotWord gd (iaCode u 0x08B) x)
  | .iaMulu gd u x => some (slotWord gd (iaCode u 0x08C) x)
  | .iaMulsu gd u x => some (slotWord gd (iaCode u 0x08D) x)
  | .iaDiv gd u x => some (slotWord gd (iaCode u 0x08E) x)
  | .iaDivu gd u x => some (slotWord gd (iaCode u 0x08F) x)
  | .iaAnd gd u x => some (slotWord gd (iaCode u 0x090) x)
  | .iaOr gd u x => some (slotWord gd (iaCode u 0x091) x)
  | .iaXor gd u x => some (slotWord gd (iaCode u 0x092) x)
  | .iaAndn gd u x => some (slotWord gd (iaCode u 0x093) x)
  | .iaShl gd u x => some (slotWord gd (iaCode u 0x094) x)
  | .iaShr gd u x => some (slotWord gd (iaCode u 0x095) x)
  | .iaSar gd u x => some (slotWord gd (iaCode u 0x096) x)
  | .iaRol gd u x => some (slotWord gd (iaCode u 0x097) x)
  | .iaRor gd u x => some (slotWord gd (iaCode u 0x098) x)
  | .iaClz gd u x => some (slotWord gd (iaCode u 0x099) x)
  | .iaCtz gd u x => some (slotWord gd (iaCode u 0x09A) x)
  | .iaPopc gd u x => some (slotWord gd (iaCode u 0x09B) x)
  | .iaBext gd u x => some (slotWord gd (iaCode u 0x09C) x)
  | .iaBexts gd u x => some (slotWord gd (iaCode u 0x09D) x)
  | .iaSeq gd u x => some (slotWord gd (iaCode u 0x09E) x)
  | .iaSne gd u x => some (slotWord gd (iaCode u 0x09F) x)
  | .iaSlt gd u x => some (slotWord gd (iaCode u 0x0A0) x)
  | .iaSltu gd u x => some (slotWord gd (iaCode u 0x0A1) x)
  | .iaSle gd u x => some (slotWord gd (iaCode u 0x0A2) x)
  | .iaSleu gd u x => some (slotWord gd (iaCode u 0x0A3) x)
  | .iaSext gd u x => some (slotWord gd (iaCode u 0x0A4) x)
  | .iaZext gd u x => some (slotWord gd (iaCode u 0x0A5) x)
  | .iaBswap gd u x => some (slotWord gd (iaCode u 0x0A6) x)
  | .agAdd gd x => some (slotWord gd 0x100 x)
  | .agIdx gd x => some (slotWord gd 0x101 x)
  | .agPost gd x => some (slotWord gd 0x102 x)
  | .agPre gd x => some (slotWord gd 0x103 x)
  | .agRing gd x => some (slotWord gd 0x104 x)
  | .agAlign gd x => some (slotWord gd 0x105 x)
  | .agSlot gd x => some (slotWord gd 0x106 x)
  | .agAcc gd x => some (slotWord gd 0x107 x)
  | .lsSldB gd x => some (slotWord gd 0x120 x)
  | .lsSldBu gd x => some (slotWord gd 0x121 x)
  | .lsSldH gd x => some (slotWord gd 0x122 x)
  | .lsSldHu gd x => some (slotWord gd 0x123 x)
  | .lsSldW gd x => some (slotWord gd 0x124 x)
  | .lsSldWu gd x => some (slotWord gd 0x125 x)
  | .lsSldD gd x => some (slotWord gd 0x126 x)
  | .lsSvld gd x => some (slotWord gd 0x127 x)
  | .lsSstB gd x => some (slotWord gd 0x128 x)
  | .lsSstH gd x => some (slotWord gd 0x129 x)
  | .lsSstW gd x => some (slotWord gd 0x12A x)
  | .lsSstD gd x => some (slotWord gd 0x12B x)
  | .lsSvst gd x => some (slotWord gd 0x12C x)
  | .lsLdB gd x => some (slotWord gd 0x130 x)
  | .lsLdBu gd x => some (slotWord gd 0x131 x)
  | .lsLdH gd x => some (slotWord gd 0x132 x)
  | .lsLdHu gd x => some (slotWord gd 0x133 x)
  | .lsLdW gd x => some (slotWord gd 0x134 x)
  | .lsLdWu gd x => some (slotWord gd 0x135 x)
  | .lsLdD gd x => some (slotWord gd 0x136 x)
  | .lsLdQ gd x => some (slotWord gd 0x137 x)
  | .lsVld gd x => some (slotWord gd 0x138 x)
  | .lsLdWAcq gd x => some (slotWord gd 0x139 x)
  | .lsLdDAcq gd x => some (slotWord gd 0x13A x)
  | .lsStB gd x => some (slotWord gd 0x140 x)
  | .lsStH gd x => some (slotWord gd 0x141 x)
  | .lsStW gd x => some (slotWord gd 0x142 x)
  | .lsStD gd x => some (slotWord gd 0x143 x)
  | .lsStQ gd x => some (slotWord gd 0x144 x)
  | .lsVst gd x => some (slotWord gd 0x145 x)
  | .lsStWRel gd x => some (slotWord gd 0x146 x)
  | .lsStDRel gd x => some (slotWord gd 0x147 x)
  | .lsRstD gd x => some (slotWord gd 0x148 x)
  | .lsAmoAdd gd x => some (slotWord gd 0x150 x)
  | .lsAmoAnd gd x => some (slotWord gd 0x151 x)
  | .lsAmoOr gd x => some (slotWord gd 0x152 x)
  | .lsAmoXor gd x => some (slotWord gd 0x153 x)
  | .lsAmoMin gd x => some (slotWord gd 0x154 x)
  | .lsAmoMax gd x => some (slotWord gd 0x155 x)
  | .lsAmoMinu gd x => some (slotWord gd 0x156 x)
  | .lsAmoMaxu gd x => some (slotWord gd 0x157 x)
  | .lsAmoSwap gd x => some (slotWord gd 0x158 x)
  | .lsAmoCas gd x => some (slotWord gd 0x159 x)
  | .lsAmoFadd gd x => some (slotWord gd 0x15A x)
  | .lsAmoAddC gd x => some (slotWord gd 0x160 x)
  | .lsAmoAndC gd x => some (slotWord gd 0x161 x)
  | .lsAmoOrC gd x => some (slotWord gd 0x162 x)
  | .lsAmoXorC gd x => some (slotWord gd 0x163 x)
  | .lsAmoMinC gd x => some (slotWord gd 0x164 x)
  | .lsAmoMaxC gd x => some (slotWord gd 0x165 x)
  | .lsAmoMinuC gd x => some (slotWord gd 0x166 x)
  | .lsAmoMaxuC gd x => some (slotWord gd 0x167 x)
  | .lsAmoSwapC gd x => some (slotWord gd 0x168 x)
  | .lsAmoFaddComb gd x => some (slotWord gd 0x169 x)
  | .lsChld gd x => some (slotWord gd 0x170 x)
  | .lsTlk gd x => some (slotWord gd 0x171 x)
  | .lsTget gd x => some (slotWord gd 0x172 x)
  | .lsTset gd x => some (slotWord gd 0x173 x)
  | .lsLarm gd x => some (slotWord gd 0x174 x)
  | .vxVaddI32 gd x => some (slotWord gd 0x1C0 x)
  | .vxVsubI32 gd x => some (slotWord gd 0x1C1 x)
  | .vxVaddsI32 gd x => some (slotWord gd 0x1C2 x)
  | .vxVsubsI32 gd x => some (slotWord gd 0x1C3 x)
  | .vxVaddsuI32 gd x => some (slotWord gd 0x1C4 x)
  | .vxVsubsuI32 gd x => some (slotWord gd 0x1C5 x)
  | .vxVmulI32 gd x => some (slotWord gd 0x1C6 x)
  | .vxVmulhI32 gd x => some (slotWord gd 0x1C7 x)
  | .vxVminI32 gd x => some (slotWord gd 0x1C8 x)
  | .vxVmaxI32 gd x => some (slotWord gd 0x1C9 x)
  | .vxVminuI32 gd x => some (slotWord gd 0x1CA x)
  | .vxVmaxuI32 gd x => some (slotWord gd 0x1CB x)
  | .vxVand gd x => some (slotWord gd 0x1CC x)
  | .vxVor gd x => some (slotWord gd 0x1CD x)
  | .vxVxor gd x => some (slotWord gd 0x1CE x)
  | .vxVshl gd x => some (slotWord gd 0x1CF x)
  | .vxVshr gd x => some (slotWord gd 0x1D0 x)
  | .vxVsar gd x => some (slotWord gd 0x1D1 x)
  | .vxVsel gd x => some (slotWord gd 0x1D2 x)
  | .vxVaddF32 gd x => some (slotWord gd 0x1E0 x)
  | .vxVsubF32 gd x => some (slotWord gd 0x1E1 x)
  | .vxVmulF32 gd x => some (slotWord gd 0x1E2 x)
  | .vxVfmaF32 gd x => some (slotWord gd 0x1E3 x)
  | .vxVfmsF32 gd x => some (slotWord gd 0x1E4 x)
  | .vxVminF32 gd x => some (slotWord gd 0x1E5 x)
  | .vxVmaxF32 gd x => some (slotWord gd 0x1E6 x)
  | .vxVdivF32 gd x => some (slotWord gd 0x1E7 x)
  | .vxVsqrtF32 gd x => some (slotWord gd 0x1E8 x)
  | .vxVabsF32 gd x => some (slotWord gd 0x1E9 x)
  | .vxVnegF32 gd x => some (slotWord gd 0x1EA x)
  | .vxVrcpeF32 gd x => some (slotWord gd 0x1F0 x)
  | .vxVrsqrteF32 gd x => some (slotWord gd 0x1F1 x)
  | .vxVexp2F32 gd x => some (slotWord gd 0x1F2 x)
  | .vxVlog2F32 gd x => some (slotWord gd 0x1F3 x)
  | .vxVtanhF32 gd x => some (slotWord gd 0x1F4 x)
  | .vxVceqI32 gd x => some (slotWord gd 0x200 x)
  | .vxVcltI32 gd x => some (slotWord gd 0x201 x)
  | .vxVcleI32 gd x => some (slotWord gd 0x202 x)
  | .vxVcltuI32 gd x => some (slotWord gd 0x203 x)
  | .vxVcleuI32 gd x => some (slotWord gd 0x204 x)
  | .vxVceqF32 gd x => some (slotWord gd 0x205 x)
  | .vxVcltF32 gd x => some (slotWord gd 0x206 x)
  | .vxVcleF32 gd x => some (slotWord gd 0x207 x)
  | .vxVcunF32 gd x => some (slotWord gd 0x208 x)
  | .vxMand gd x => some (slotWord gd 0x210 x)
  | .vxMor gd x => some (slotWord gd 0x211 x)
  | .vxMxor gd x => some (slotWord gd 0x212 x)
  | .vxMandn gd x => some (slotWord gd 0x213 x)
  | .vxMset gd x => some (slotWord gd 0x214 x)
  | .vxMget gd x => some (slotWord gd 0x215 x)
  | .vxMpopc gd x => some (slotWord gd 0x216 x)
  | .vxMfirst gd x => some (slotWord gd 0x217 x)
  | .vxVany gd x => some (slotWord gd 0x218 x)
  | .vxVall gd x => some (slotWord gd 0x219 x)
  | .vxVcvt gd x => some (slotWord gd 0x220 x)
  | .vxVcvtSc gd x => some (slotWord gd 0x221 x)
  | .vxVmov gd x => some (slotWord gd 0x230 x)
  | .vxVbcast gd x => some (slotWord gd 0x231 x)
  | .vxVins gd x => some (slotWord gd 0x232 x)
  | .vxVext gd x => some (slotWord gd 0x233 x)
  | .vxVperm gd x => some (slotWord gd 0x234 x)
  | .vxVrot gd x => some (slotWord gd 0x235 x)
  | .vxVzipLo gd x => some (slotWord gd 0x236 x)
  | .vxVzipHi gd x => some (slotWord gd 0x237 x)
  | .vxVcomp gd x => some (slotWord gd 0x238 x)
  | .vxVraddI32 gd x => some (slotWord gd 0x240 x)
  | .vxVraddF32 gd x => some (slotWord gd 0x241 x)
  | .vxVrminI32 gd x => some (slotWord gd 0x242 x)
  | .vxVrmaxI32 gd x => some (slotWord gd 0x243 x)
  | .vxVrminuI32 gd x => some (slotWord gd 0x244 x)
  | .vxVrmaxuI32 gd x => some (slotWord gd 0x245 x)
  | .vxVrminF32 gd x => some (slotWord gd 0x246 x)
  | .vxVrmaxF32 gd x => some (slotWord gd 0x247 x)
  | .vxVdotG16 gd x => some (slotWord gd 0x250 x)
  | .vxRnd32 gd x => some (slotWord gd 0x251 x)
  | .vxViota gd x => some (slotWord gd 0x252 x)
  | .mxMm gd x => some (slotWord gd 0x2C0 x)
  | .mxMmT gd x => some (slotWord gd 0x2C1 x)
  | .mxMmc gd x => some (slotWord gd 0x2C2 x)
  | .mxMms gd x => some (slotWord gd 0x2C3 x)
  | .mxMmsT gd x => some (slotWord gd 0x2C4 x)
  | .mxMmcs gd x => some (slotWord gd 0x2C5 x)
  | .mxCclr gd x => some (slotWord gd 0x2C6 x)
  | .mxCacc gd x => some (slotWord gd 0x2C7 x)
  | .mxCscl gd x => some (slotWord gd 0x2C8 x)
  | .mxStat gd x => some (slotWord gd 0x2C9 x)
  | .mxDrain gd x => some (slotWord gd 0x2CA x)
  | .mxDrainq gd x => some (slotWord gd 0x2CB x)
  | .brTgt gd x => some (slotWord gd 0x2E0 x)
  | .brCeq gd x => some (slotWord gd 0x2E1 x)
  | .brCne gd x => some (slotWord gd 0x2E2 x)
  | .brClt gd x => some (slotWord gd 0x2E3 x)
  | .brCge gd x => some (slotWord gd 0x2E4 x)
  | .brCltu gd x => some (slotWord gd 0x2E5 x)
  | .brCgeu gd x => some (slotWord gd 0x2E6 x)
  | .brJmp gd x => some (slotWord gd 0x2E7 x)
  | .brJt gd x => some (slotWord gd 0x2E8 x)
  | .brCall gd x => some (slotWord gd 0x2E9 x)
  | .brRet gd x => some (slotWord gd 0x2EA x)
  | .brLoop gd x => some (slotWord gd 0x2EB x)
  | .syWait gd x => some (slotWord gd 0x300 x)
  | .syWaitall gd x => some (slotWord gd 0x301 x)
  | .syExit gd x => some (slotWord gd 0x302 x)
  | .syYield gd x => some (slotWord gd 0x303 x)
  | .sySusp gd x => some (slotWord gd 0x304 x)
  | .syWtok gd x => some (slotWord gd 0x305 x)
  | .syArmw gd x => some (slotWord gd 0x306 x)
  | .syFencex gd x => some (slotWord gd 0x307 x)
  | .syPhase gd x => some (slotWord gd 0x308 x)
  | .syBar gd x => some (slotWord gd 0x309 x)
  | .syArrive gd x => some (slotWord gd 0x30A x)
  | .syBleave gd x => some (slotWord gd 0x30B x)
  | .syTspawn gd x => some (slotWord gd 0x310 x)
  | .syTdec gd x => some (slotWord gd 0x311 x)
  | .syTinc gd x => some (slotWord gd 0x312 x)
  | .syTkill gd x => some (slotWord gd 0x313 x)
  | .syTread gd x => some (slotWord gd 0x314 x)
  | .syTself gd x => some (slotWord gd 0x315 x)
  | .syTteam gd x => some (slotWord gd 0x316 x)
  | .syTprio gd x => some (slotWord gd 0x317 x)
  | .syRsr gd x => some (slotWord gd 0x318 x)
  | .syWsr gd x => some (slotWord gd 0x319 x)
  | .syTrap gd x => some (slotWord gd 0x31A x)
  | .syTret gd x => some (slotWord gd 0x31B x)
  | .qpPush gd x => some (slotWord gd 0x340 x)
  | .qpPushw gd x => some (slotWord gd 0x341 x)
  | .qpPushn gd x => some (slotWord gd 0x342 x)
  | .qpFree gd x => some (slotWord gd 0x343 x)
  | .spSend gd x => some (slotWord gd 0x350 x)
  | .spSendn gd x => some (slotWord gd 0x351 x)
  | .spRecv gd x => some (slotWord gd 0x352 x)
  | .spRecvn gd x => some (slotWord gd 0x353 x)
  | .spCnt gd x => some (slotWord gd 0x354 x)
  | .pwAcq gd x => some (slotWord gd 0x360 x)
  | .pwRel gd x => some (slotWord gd 0x361 x)
  | .pwCls gd x => some (slotWord gd 0x362 x)
  | .pwDst gd x => some (slotWord gd 0x363 x)
  | .pwGate gd x => some (slotWord gd 0x364 x)
  | .pwUngate gd x => some (slotWord gd 0x365 x)
  | .pwMsd gd x => some (slotWord gd 0x366 x)
  | .pwMst gd x => some (slotWord gd 0x367 x)
  | .operationResultWrite => none
  | .stallSuspension => none
  | .spireFull => none
  | .spireEntryArrival => none
  | .armwTimeout => none
  | .localWritePacket _ _ _ _ => none
  | .deviceLoadComplete _ => none
  | .deviceAccessReply _ => none
  | .sliceWrite _ _ => none
  | .sliceRead _ => none
  | .sliceAtomic _ _ => none
  | .sliceLineArrival _ => none
  | .baseDieAccess _ _ _ _ _ => none
  | .towerWalk _ => none
  | .shadowWalk => none
  | .parkLimit => none
  | .freplRetry _ => none
  | .freplAbort _ => none
  | .tlbinv _ _ => none
  | .tlbinvDone _ => none
  | .preq _ _ => none
  | .actclr _ => none
  | .domeRegisterWrite _ _ _ => none
  | .thermalSample _ _ => none
  | .budgetWindow _ => none
  | .powerGrant _ => none
  | .grantTimeout => none
  | .domainGated _ => none
  | .domainPowerReturn _ => none
  | .engineCommandAccept _ => none
  | .pushBufferDrain => none
  | .engineCommandStart _ => none
  | .engineCommandComplete _ _ => none
  | .streamSbpop _ _ => none
  | .streamSbpush _ _ => none
  | .routineEcall _ _ => none
  | .routineWatchdog _ => none
  | .collectiveAbort _ => none
  | .combineArrival _ _ => none
  | .waitBufferRelease _ => none
  | .splitReply _ _ => none
  | .chainStep _ => none
  | .chainReturn _ => none
  | .mxOpStart => none
  | .mxRangeRelease => none
  | .mxStreamWait => none
  | .mxOpComplete => none
  | .barrierArrival _ => none
  | .taskExitReport _ => none
  | .taskWake _ => none
  | .brickTakesWork => none
  | .dispatch => none
  | .teamDispatch _ => none
  | .localQueueRecall => none
  | .queueRefill _ _ => none
  | .balancingRound _ => none
  | .teamSliceEnd _ => none
  | .preempt => none
  | .restore _ => none
  | .savedImageWrite _ _ _ _ => none
  | .gangSliceStart _ => none
  | .gangSliceEnd => none
  | .gangSkewExpiry => none
  | .gangAbort => none
  | .launchRingWake _ => none
  | .launchExpand => none
  | .launchComplete _ => none
  | .msdComplete _ => none
  | .holdupFreeze => none
  | .holdupSave _ => none
  | .holdupSeal => none
  | .supplyReturn => none
  | .reset => none
  | .rdmaWrite _ _ _ _ _ => none
  | .rdmaRead _ _ _ _ _ => none
  | .atomicFetchAdd _ _ _ _ _ => none
  | .atomicCmpSwap _ _ _ _ _ _ => none
  | .readConfiguration _ _ => none
  | .readDomeRegister _ _ => none
  | .writeDomeRegister _ _ => none
  | .setContext _ _ => none
  | .setWindow _ _ => none
  | .setRegion _ _ => none
  | .openKeyTransport _ _ => none
  | .loadKey _ _ => none
  | .clearKey _ _ => none
  | .keySlotCleared _ => none
  | .attest _ _ => none
  | .debugNonce _ _ => none
  | .debugUnlock _ _ => none
  | .debugRevoke _ _ => none
  | .restartReport _ _ => none
  | .readKeep _ _ => none
  | .stageFirmware _ _ => none
  | .commitFirmware _ _ => none
  | .setGroup _ _ => none
  | .setNode _ _ => none
  | .readLogs _ _ => none
  | .flitReceive _ _ => none
  | .fabricStore _ _ _ _ _ => none
  | .fabricLoad _ _ _ _ _ => none
  | .fabricLoadReply _ _ _ => none
  | .fabricAtomic _ _ _ _ _ _ _ _ => none
  | .fabricCombinableAtomic _ _ _ _ _ _ _ => none
  | .fabricAtomicReply _ _ _ _ _ => none
  | .fabricChainStep _ => none
  | .fabricChainReturn _ _ _ _ _ _ => none
  | .fabricCollective _ _ _ => none
  | .fabricControl _ _ _ => none
  | .fabricAcknowledgement _ => none
  | .fabricTimeSync => none
  | .linkLaneChange _ _ => none
  | .linkDown _ => none
  | .supplyEnd => none
  | .linkTraining _ _ => none
  | .halt _ => none
  | .haltResume _ => none
  | .lockFuseBlow => none
  | .brickRetirement _ => none
  | .bStreamDelivery => none
  | .hostResponse _ _ _ _ => none
  | .retryExhaustion _ _ => none
  | .streamCoreTrap _ _ => none
  | .gangSliceBroadcast _ _ => none
  | .pauseFrame _ _ => none

/-! ## The checks of a bundle (R159) -/

/-- The eight slots of a bundle (R146). -/
def bundleSlots (b : BitVec 192) : List (BitVec 24) :=
  (List.range 8).map (fun i => b.extractLsb' (24 * i) 24)

/-- Kinds of slot (R147). -/
inductive SlotKind where
  | literal (sx : Bool)
  | empty
  | move
  deriving DecidableEq, Repr

/-- The kind of a slot (R147). -/
def slotKind (w : BitVec 24) : SlotKind :=
  if slotGuard w = 7 then .literal true
  else if slotGuard w = 15 then .literal false
  else if slotGuard w = 8 then .empty
  else .move

/-- Whether a slot is a literal. -/
def isLiteral (w : BitVec 24) : Bool :=
  match slotKind w with
  | .literal _ => true
  | _ => false

/-- The slot at an index, the empty slot beyond the bundle. -/
def slotAt (ss : List (BitVec 24)) (i : Nat) : BitVec 24 := ss.getD i 0x800000

/-- Literal slots standing directly before slot i. -/
def literalsBefore (ss : List (BitVec 24)) : Nat → Nat
  | 0 => 0
  | i + 1 => if isLiteral (slotAt ss i) then literalsBefore ss i + 1 else 0

/-- Two destination codes that may not stand in one bundle: the same, or `kw` with a guard (R159). -/
def sameDest (a b : Nat) : Bool :=
  a == b || (a == 0x057 && 0x051 ≤ b && b ≤ 0x056) || (b == 0x057 && 0x051 ≤ a && a ≤ 0x056)

/-- Whether slot i repeats, by `clash`, the destination of a lower move. -/
def clashes (ss : List (BitVec 24)) (clash : Nat → Nat → Bool) (i : Nat) : Bool :=
  slotKind (slotAt ss i) = .move &&
    (List.range i).any (fun j => slotKind (slotAt ss j) = .move &&
      clash (slotDst (slotAt ss j)) (slotDst (slotAt ss i)))

/-- The illegal-bundle causes reported at slot i, lowest first (R159). -/
def bundleCauses (ss : List (BitVec 24)) (i : Nat) : List Nat :=
  let w := slotAt ss i
  let before := literalsBefore ss i
  let first := isLiteral w && before == 0
  let runEnd := i + ((List.range (8 - i)).takeWhile (fun j => isLiteral (slotAt ss (i + j)))).length
  (if slotKind w = .empty ∧ w ≠ 0x800000 then [1] else []) ++
  (if isLiteral w ∧ before = 3 then [2] else []) ++
  (if isLiteral w ∧ slotKind w ≠ slotKind (slotAt ss (i - before)) ∧
      (List.range before).all (fun j => slotKind (slotAt ss (i - before + j)) = slotKind (slotAt ss (i - before)))
    then [3] else []) ++
  (if first ∧ (runEnd = 8 ∨ slotKind (slotAt ss runEnd) ≠ .move ∨ slotSrc (slotAt ss runEnd) ≠ 0x040)
    then [4] else []) ++
  (if slotKind w = .move ∧ slotSrc w = 0x040 ∧ before = 0 then [5] else []) ++
  (if clashes ss sameDest i then [6] else []) ++
  (if clashes ss (fun a b => isTrigger a && unitOf a == unitOf b) i then [7] else [])

/-- The illegal-move causes of slot i (R159). -/
def moveCauses (ss : List (BitVec 24)) (i : Nat) : List Nat :=
  let w := slotAt ss i
  if slotKind w = .move then
    (if decodeSrc (slotSrc w) = none then [1] else []) ++
    (if isTrigger (slotDst w) = false ∧ decodeDst (slotDst w) = none then [2] else [])
  else []

/-- The illegal-operation cause of slot i that the bits alone show (R159). -/
def operationCauses (ss : List (BitVec 24)) (i : Nat) : List Nat :=
  let w := slotAt ss i
  if slotKind w = .move ∧ isTrigger (slotDst w) ∧ (decodeTrigger (slotDst w)).isNone then [1] else []

/-- The first cause of a kind: the lowest slot, and its lowest cause. -/
def firstCause (causes : Nat → List Nat) : Option (Nat × Nat) :=
  ((List.range 8).flatMap (fun i => (causes i).map (fun c => (c, i)))).head?

/-- The check a bundle fails (R159): trap kind, cause and slot. -/
def checkBundle (b : BitVec 192) : Option (Nat × Nat × Nat) :=
  let ss := bundleSlots b
  match firstCause (bundleCauses ss) with
  | some (c, i) => some (1, c, i)
  | none =>
    match firstCause (moveCauses ss) with
    | some (c, i) => some (2, c, i)
    | none =>
      match firstCause (operationCauses ss) with
      | some (c, i) => some (3, c, i)
      | none => none

/-- The instructions of a bundle's slots. -/
def decodeBundle (b : BitVec 192) : List (Except BadSlot Instr) := (bundleSlots b).map decodeSlot

end

end Sys2Proof
end

