-- ==== Sys2Proof/Config.lean ====
section
/-!
DEFINITION. What one implementation fixes, and the free values: constants without a body that stand where the
manual leaves a value open. Each is named in the assumption log.
-/

namespace Sys2Proof

/-- The registers of a stream core: those of RV64IMAFDC and of V at VLEN 512, and the control and status registers written so far
(R125). -/
structure CoreRegs where
  pc : Word
  x : Vector Word 32
  f : Vector Word 32
  v : Vector (BitVec 512) 32
  csr : List (Nat × Word)
  deriving DecidableEq, Repr, Inhabited

/-- A stream core's registers at zero (R125; log 5). -/
def CoreRegs.zero : CoreRegs := ⟨0, Vector.replicate 32 0, Vector.replicate 32 0, Vector.replicate 32 0, []⟩

/-- An access of a stream core: its address in the core's map, its length, and the bytes of a store (R125). -/
structure CoreAcc where
  addr : Nat
  len : Nat
  data : Option (List Byte)
  deriving DecidableEq, Repr

/-- What an instruction of a stream core does (R125): it changes registers only, asks for an access or for a control and status
register, ends the routine, or is no instruction. -/
inductive CoreDo where
  | go (r : CoreRegs)
  | access (a : CoreAcc)
  | csr (num : Nat) (write : Option Word)
  | ecall
  | illegal
  deriving DecidableEq, Repr, Inhabited

namespace Config

/-- What RV64IMAFDC with the extensions of R125 makes of an instruction word: that standard is not in the manual, and stands as a
free function of the registers and the word (log 66). -/
opaque coreDo : CoreRegs → BitVec 32 → CoreDo

/-- The registers once an access or a read of a control and status register has brought its bytes (R125; log 66). -/
opaque coreTook : CoreRegs → BitVec 32 → List Byte → CoreRegs

/-- What a place of an input ring that holds no byte to consume reads as (R125 does not say; log 66). -/
opaque ringStale : (tick offset : Nat) → Byte

/-- Whether a line the snapshot cache held is still held when a load looks for it (R140 leaves eviction open; log 9). -/
opaque snapKept : Nat → Bool

/-- Whether a line that an engine or a B stream buffered is still held and serves a read (R222, R317; log 11). -/
opaque bufKept : Nat → Bool

/-- Whether a translation a lookaside buffer held is still held (R93 leaves replacement open; log 10). -/
opaque tlbKept : Nat → Bool

/-- Whether a non-leaf entry a walk cache held is still held (R93 leaves replacement open; log 10). -/
opaque walkKept : Nat → Bool

/-- The way an instruction-cache fill replaces in a full set (R141 leaves it open; log 10). -/
opaque icVictim : Nat → Nat

/-- The syndrome an array's code gives for inverted code-word bits (R143 leaves the codes open; log 13). -/
opaque syndrome : (array : Nat) → (bits : List Nat) → BitVec 8

/-- ML-DSA-65 verification of a debug token's 67 signed bytes under the debug authority's key (R440; log 8). -/
opaque debugTokenValid : (sig msg : List Byte) → Bool

/-- SHAKE256-256 digest of the module's identity public key (R440; log 8). -/
opaque identityDigest : BitVec 256

/-- The 1,184 bytes of the ML-KEM-768 encapsulation key of the n-th Open key transport (R427; log 8). -/
opaque encapsulationKey : Nat → BitVec 9472

/-- The AES-256 key an ML-KEM ciphertext and wrapped key give, when the unwrap succeeds (R443; log 8). -/
opaque unwrapKey : (transport : Nat) → (payload : List Byte) → Option (BitVec 256)

/-- The n-th 32-byte nonce of the security controller (R440; log 8). -/
opaque nonce : Nat → BitVec 256

/-- The random key of slot 0 at the n-th boot (R443; log 8). -/
opaque bootKey : Nat → BitVec 256

/-- The attestation certificate: the attestation public key of a boot with the identity key's signature (R442; log 8). -/
opaque certificate : (boot : Nat) → List Byte

/-- The 3,309 bytes of an ML-DSA-65 signature by the attestation key of a boot (R442; log 8). -/
opaque attest : (boot : Nat) → (msg : List Byte) → BitVec 26472

/-- SHAKE256-256 digest of a byte string (R442; log 8). -/
opaque digest : List Byte → BitVec 256

/-- Verification of a firmware image against the fused key digest (R441; log 8). -/
opaque firmwareValid : (image : List Byte) → Bool

/-- The version a firmware image carries; its header's layout is not in the manual (R441; log 8). -/
opaque firmwareVersion : (image : List Byte) → Nat

/-- The fused minimum firmware version (R441; log 8). -/
opaque minVersion : Nat

/-- The image a base die's coder gives a 4 KiB block (R70 to R73 fix what an image means and when it is used, not what the
coder chooses; log 14). -/
opaque coder : (block : List Byte) → List Byte

/-- AES-256-XTS of one 64-byte line under a key and a tweak: a permutation of lines, otherwise free (R76, R77; log 8). -/
opaque xts : (key : BitVec 256) → (tweak : Nat) → Equiv.Perm (BitVec 512)

/-- The set of its slice that a line of the memory-side cache lies in, before it is reduced (R66 gives the sizes only; log 99). -/
opaque sliceSet : Nat → Nat

/-- Which of several contexts' launches the launch engines expand next (R361 has them expand in parallel; log 129). -/
opaque expandPick : Nat → Nat

/-- The sector of a 256-byte access that is performed next (R321 fixes no order; log 26). -/
opaque sectorPick : Nat → Nat

/-- Whether other agents act between two sectors of an operation of an Ethernet port (R321; log 26). -/
opaque portYield : Nat → Bool

/-- The way of a full set of the memory-side cache that makes room (R66 leaves it open; log 99). -/
opaque sliceVictim : Nat → Nat

/-- The rkey given to the n-th memory region (R427; log 15). -/
opaque regionKey : Nat → BitVec 32

/-- The entries of a brick's range scoreboard (R124 gives no number; log 20). -/
opaque scoreEntries : Nat

/-- The router's choice when a request finds its output port contended (R296 leaves it open; log 16). -/
opaque portBusy : Nat → Bool

/-- The column and row of the router where a tower's dome passes packets of its fabric links (R18 does not say; log 16). -/
opaque domeRouter : (tower : Nat) → Nat × Nat

/-- A replay token for the n-th parked access (R97 fixes its width only; log 17). -/
opaque token : Nat → BitVec 16

/-- The payload of a packet to the host or another module: its layout is not in the manual, so its bytes are a free function
of what it carries (log 19). -/
opaque packetBytes : (cls : Nat) → (fields : List Nat) → List Byte

/-- The stream number, source agent and tag, of a fabric packet (R433 gives the field's width only; log 19). -/
opaque streamOf : (cls : Nat) → (fields : List Nat) → BitVec 32

/-- The node at the other end of a link, to which a control flit on that link goes (log 19). -/
opaque linkPartner : Nat → Nat

/-- What a received acknowledgement flit says of the link it came on: how many flits, oldest first, it acknowledges, and
whether it asks for a replay of the rest (R433 gives neither encoding; log 40). -/
opaque linkAnswer : (flit : List Byte) → Nat × Bool

/-- How far a slewing fabric time lies from the sender's, in ns from 1 µs below it (R438 gives the bound only; log 41). -/
opaque slew : Nat → Nat

/-- The 4 KiB of a task's pipeline image in the save area, whose format is internal to the device (R389; log 12). -/
opaque pipelineImage : Nat → Nat

/-- Whether a word of an array holds an offset within it, where the manual does not lay the array out (R142 to R144; log 49). -/
opaque eccHolds : (array word offset : Nat) → Bool

/-- The offset that an error log gives for a word of such an array (R143; log 49). -/
opaque eccOffset : (array word : Nat) → Nat

end Config

end Sys2Proof
end

