-- ==== Sys2Proof/Machine/Bits.lean ====
section
/-!
DEFINITION. Bit fields, extensions, packed elements and byte order (R3, R4, R10), the counter-based random function
(R59) and the check word (R81).
-/

namespace Sys2Proof.Machine

open Sys2Proof

/-- Bits [hi:lo] of a natural number (R3). -/
def bits (x hi lo : Nat) : Nat := x / 2 ^ lo % 2 ^ (hi + 1 - lo)

/-- Bit i of a natural number. -/
def bit (x i : Nat) : Bool := x / 2 ^ i % 2 == 1

/-- Bits [hi:lo] of a 64-bit value. -/
def fld (x : Word) (hi lo : Nat) : Nat := bits x.toNat hi lo

/-- x with bits [hi:lo] replaced by v. -/
def setBits (x hi lo v : Nat) : Nat := x - bits x hi lo * 2 ^ lo + v % 2 ^ (hi + 1 - lo) * 2 ^ lo

/-- A 64-bit value with bits [hi:lo] replaced by v. -/
def setFld (x : Word) (hi lo v : Nat) : Word := BitVec.ofNat 64 (setBits x.toNat hi lo v)

/-- The low n bits of x read as signed (R10). -/
def sextInt (x n : Nat) : Int :=
  if n = 0 then 0
  else if bit x (n - 1) then (x % 2 ^ n : Nat) - (2 ^ n : Nat) else (x % 2 ^ n : Nat)

/-- `sext(x, n)` of R10: the low n bits extended by their top bit to 64. -/
def sext (x n : Nat) : Word := BitVec.ofInt 64 (sextInt x n)

/-- `zext(x, n)` of R10. -/
def zext (x n : Nat) : Word := BitVec.ofNat 64 (x % 2 ^ n)

/-- A Boolean as a word. -/
def ofBool (p : Bool) : Word := if p then 1 else 0

/-- Element i of width w of a little-endian bit string (R42). -/
def elem (x w i : Nat) : Nat := x / 2 ^ (w * i) % 2 ^ w

/-- A little-endian bit string of n elements of width w (R42). -/
def pack (w : Nat) (f : Nat → Nat) : Nat → Nat
  | 0 => 0
  | n + 1 => pack w f n + f n % 2 ^ w * 2 ^ (w * n)

/-- A little-endian number from its bytes (R4). -/
def ofBytes : List Byte → Nat
  | [] => 0
  | b :: bs => b.toNat + 256 * ofBytes bs

/-- The n bytes of a number, least significant first (R4). -/
def toBytes (n x : Nat) : List Byte :=
  (List.range n).map (fun i => BitVec.ofNat 8 (x / 2 ^ (8 * i)))

/-- Ceiling division. -/
def ceilDiv (a b : Nat) : Nat := (a + b - 1) / b

/-- Lane j of a vector register (R227). -/
def lane (x : Vec) (j : Nat) : BitVec 32 := BitVec.ofNat 32 (elem x.toNat 32 j)

/-- A vector register from its 64 lanes (R227). -/
def ofLanes (f : Nat → BitVec 32) : Vec := BitVec.ofNat 2048 (pack 32 (fun j => (f j).toNat) 64)

/-- Selected lanes from `new`, the others from `old` (R231). -/
def mergeLanes (sel : Nat → Bool) (new old : Nat → BitVec 32) : Vec :=
  ofLanes (fun j => if sel j then new j else old j)

/-- Number of one bits among the low n bits. -/
def popcount : Nat → Nat → Nat
  | 0, _ => 0
  | n + 1, x => x % 2 + popcount n (x / 2)

/-- Trailing zeros of the low n bits; n when they are all zero. -/
def ctz : Nat → Nat → Nat
  | 0, _ => 0
  | n + 1, x => if x % 2 = 1 then 0 else ctz n (x / 2) + 1

/-- Bits needed for x: the position of its top one bit plus one. -/
def bitLength (x : Nat) : Nat := if x = 0 then 0 else Nat.log2 x + 1

/-- Leading zeros of a 64-bit value. -/
def clz64 (x : Nat) : Nat := 64 - bitLength x

/-- One round of R59. -/
def rndStep (h key : Nat) : Nat :=
  let h := (h ^^^ key) * 0x2C1B3C6D % 2 ^ 32
  let h := h ^^^ (h >>> 15)
  let h := h * 0x297A2D39 % 2 ^ 32
  h ^^^ (h >>> 16)

/-- `rnd32(seed, idx)` (R59). -/
def rnd32 (seed idx : Nat) : Nat :=
  let lo := seed % 2 ^ 32
  let hi := seed / 2 ^ 32 % 2 ^ 32
  rndStep (rndStep (rndStep (rndStep (idx % 2 ^ 32) lo) hi) (idx / 2 ^ 32 % 2 ^ 32)) (lo ^^^ hi)

/-- One bit of CRC-32C, reflected (R81). -/
def crcBit (c : Nat) : Nat := if c % 2 = 1 then (c / 2) ^^^ 0x82F63B78 else c / 2

/-- One byte of CRC-32C (R81). -/
def crcByte (c : Nat) (b : Byte) : Nat :=
  crcBit (crcBit (crcBit (crcBit (crcBit (crcBit (crcBit (crcBit (c ^^^ b.toNat))))))))

/-- The check word of a byte string: CRC-32C, initial value all ones, complemented (R81). -/
def crc32c (bs : List Byte) : Nat := (bs.foldl crcByte 0xFFFFFFFF) ^^^ 0xFFFFFFFF

end Sys2Proof.Machine
end

