-- ==== Sys2Proof/Machine/Cells.lean ====
section
/-!
DEFINITION. Sparse stores: what a key reads as, writing a key, and the canonical form (keys strictly rising, no
entry equal to the default).
-/

namespace Sys2Proof.Machine

open Sys2Proof

/-- What a key reads as; `d` is what an unlisted key reads as. -/
def cget {α : Type} (d : α) (m : Cells α) (k : Nat) : α :=
  match m with
  | [] => d
  | (j, x) :: rest => if j = k then x else cget d rest k

/-- The store without a key. -/
def cdrop {α : Type} (m : Cells α) (k : Nat) : Cells α := m.filter (fun e => e.1 != k)

/-- The store with an entry put before the first greater key. -/
def cput {α : Type} (m : Cells α) (k : Nat) (x : α) : Cells α :=
  match m with
  | [] => [(k, x)]
  | (j, y) :: rest => if k < j then (k, x) :: (j, y) :: rest else (j, y) :: cput rest k x

/-- The store with a key set; setting the default removes the entry. -/
def cset {α : Type} [DecidableEq α] (d : α) (m : Cells α) (k : Nat) (x : α) : Cells α :=
  if x = d then cdrop m k else cput (cdrop m k) k x

/-- Keys strictly rise and are above a bound, and no entry equals the default. -/
def cwfFrom {α : Type} [DecidableEq α] (d : α) : Option Nat → Cells α → Bool
  | _, [] => true
  | lo, (k, x) :: rest => (match lo with
      | none => true
      | some b => decide (b < k)) && decide (x ≠ d) && cwfFrom d (some k) rest

/-- The canonical form of a store. -/
def cwf {α : Type} [DecidableEq α] (d : α) (m : Cells α) : Bool := cwfFrom d none m

/-- Device memory in canonical form: addresses strictly rising, no entry equal to what an unlisted address reads as
(zero; log 6). -/
def Memory.wf (m : List Host.Cell) : Bool := cwf (0 : Byte) m

/-- The n bytes from address a. -/
def readBytes (m : Cells Byte) (a : Nat) : Nat → List Byte
  | 0 => []
  | n + 1 => cget 0 m a :: readBytes m (a + 1) n

/-- Bytes written from address a upward. -/
def writeBytes (m : Cells Byte) (a : Nat) : List Byte → Cells Byte
  | [] => m
  | b :: bs => writeBytes (cset 0 m a b) (a + 1) bs

end Sys2Proof.Machine
end

