-- ==== Sys2Proof/Machine/Flags.lean ====
section
/-!
DEFINITION. Numbers and flags: element formats (R33 to R41), scales (R48 to R51), rounding (R52 to R55), signed
zeros (R56), the sticky flags (R57), exact arithmetic, and the estimates and functions of R237 and R238.
-/

namespace Sys2Proof.Machine

open Sys2Proof

/-- The seven sticky flags, laid out as `nflg`[6:0] (R57). -/
abbrev Flags := BitVec 7

/-- No flag. -/
def noFlags : Flags := 0
/-- `nflg`[0]. -/
def fInvalid : Flags := 1
/-- `nflg`[1]. -/
def fDivzero : Flags := 2
/-- `nflg`[2]. -/
def fOverflow : Flags := 4
/-- `nflg`[3]. -/
def fUnderflow : Flags := 8
/-- `nflg`[4]. -/
def fInexact : Flags := 16
/-- `nflg`[5]. -/
def fScvalid : Flags := 32
/-- `nflg`[6]. -/
def fSaturated : Flags := 64

/-- A flag raised when a condition holds. -/
def flagIf (p : Bool) (f : Flags) : Flags := if p then f else 0

/-- Element formats (R33). -/
inductive Fmt where
  | fp32 | fp16 | bf16 | e4m3 | e5m2 | e2m3 | e3m2 | e2m1 | int8 | uint8 | int32 | uint32
  deriving DecidableEq, Repr

/-- Format codes (R33). -/
def Fmt.ofCode : Nat → Option Fmt
  | 0 => some .fp32 | 1 => some .fp16 | 2 => some .bf16 | 3 => some .e4m3 | 4 => some .e5m2 | 5 => some .e2m3
  | 6 => some .e3m2 | 7 => some .e2m1 | 8 => some .int8 | 9 => some .uint8 | 10 => some .int32 | 11 => some .uint32
  | _ => none

/-- Exponent and fraction widths of a floating format (R35); 0, 0 for an integer format. -/
def Fmt.ew : Fmt → Nat
  | .fp32 => 8 | .fp16 => 5 | .bf16 => 8 | .e4m3 => 4 | .e5m2 => 5 | .e2m3 => 2 | .e3m2 => 3 | .e2m1 => 2 | _ => 0

/-- Fraction width (R35). -/
def Fmt.fw : Fmt → Nat
  | .fp32 => 23 | .fp16 => 10 | .bf16 => 7 | .e4m3 => 3 | .e5m2 => 2 | .e2m3 => 3 | .e3m2 => 2 | .e2m1 => 1 | _ => 0

/-- Whether a format is floating. -/
def Fmt.isFloat : Fmt → Bool
  | .int8 | .uint8 | .int32 | .uint32 => false
  | _ => true

/-- Whether an integer format is signed (R38). -/
def Fmt.isSigned : Fmt → Bool
  | .uint8 | .uint32 => false
  | _ => true

/-- Width of an element (R33). -/
def Fmt.width (f : Fmt) : Nat :=
  match f with
  | .int8 | .uint8 => 8
  | .int32 | .uint32 => 32
  | _ => 1 + f.ew + f.fw

/-- Exponent bias (R35). -/
def Fmt.bias (f : Fmt) : Nat := 2 ^ (f.ew - 1) - 1

/-- Whether a format has infinities (R35). -/
def Fmt.hasInf : Fmt → Bool
  | .fp32 | .fp16 | .bf16 | .e5m2 => true
  | _ => false

/-- Whether a format has NaN codes (R35). -/
def Fmt.hasNan : Fmt → Bool
  | .fp32 | .fp16 | .bf16 | .e5m2 | .e4m3 => true
  | _ => false

/-- The code of the largest finite magnitude (R35, R38). -/
def Fmt.maxCode (f : Fmt) : Nat :=
  match f with
  | .e4m3 => 0x7E
  | .e2m3 | .e3m2 => 0x1F
  | .e2m1 => 0x7
  | .int8 => 0x7F | .uint8 => 0xFF | .int32 => 0x7FFFFFFF | .uint32 => 0xFFFFFFFF
  | _ => (2 ^ f.ew - 1) * 2 ^ f.fw - 1

/-- The canonical NaN (R37); +0 where a format has none (R54). -/
def Fmt.nanCode : Fmt → Nat
  | .fp32 => 0x7FC00000 | .fp16 => 0x7E00 | .bf16 => 0x7FC0 | .e4m3 => 0x7F | .e5m2 => 0x7E | _ => 0

/-- The code of +∞ in a format that has it (R35). -/
def Fmt.infCode (f : Fmt) : Nat := (2 ^ f.ew - 1) * 2 ^ f.fw

/-- Plane count of a plane-capable format (R33). -/
def Fmt.planes : Fmt → Option Nat
  | .bf16 => some 8 | .e4m3 => some 4 | .e5m2 => some 3 | .e2m3 => some 4 | .e3m2 => some 3 | .e2m1 => some 2
  | .int8 => some 8 | _ => none

/-- A number as read: NaN, an infinity, or a sign, an integer significand and a unit exponent (R36, R39). -/
inductive Val where
  | nan
  | inf (neg : Bool)
  | fin (neg : Bool) (m : Nat) (e : Int)
  deriving DecidableEq, Repr

/-- Sign of a number (NaN has none that matters). -/
def Val.neg : Val → Bool
  | .nan => false
  | .inf s => s
  | .fin s _ _ => s

/-- A finite zero. -/
def Val.isZero : Val → Bool
  | .fin _ 0 _ => true
  | _ => false

/-- NaN. -/
def Val.isNan : Val → Bool
  | .nan => true
  | _ => false

/-- The number with its sign inverted. -/
def Val.negate : Val → Val
  | .nan => .nan
  | .inf s => .inf (!s)
  | .fin s m e => .fin (!s) m e

/-- An integer as a number; zero is +0. -/
def Val.ofInt (i : Int) (e : Int) : Val := .fin (decide (i < 0)) i.natAbs e

/-- The number a code stands for (R35, R36, R38, R39). -/
def Fmt.read (f : Fmt) (code : Nat) : Val :=
  if f.isFloat then
    let s := bit code (f.ew + f.fw)
    let E := bits code (f.ew + f.fw - 1) f.fw
    let F := code % 2 ^ f.fw
    let m := if E = 0 then F else 2 ^ f.fw + F
    let e : Int := (max E 1 : Nat) - (f.bias : Int) - f.fw
    if f.hasInf ∧ E = 2 ^ f.ew - 1 then (if F = 0 then .inf s else .nan)
    else if f = .e4m3 ∧ E = 15 ∧ F = 7 then .nan
    else .fin s m e
  else if f.isSigned then Val.ofInt (sextInt code f.width) 0
  else .fin false (code % 2 ^ f.width) 0

/-- Whether the magnitude is rounded up (R34): n is the quotient's low bit, `rem` of `2 * half`. -/
def roundsUp (mode : Nat) (neg : Bool) (odd : Bool) (rem unit : Nat) : Bool :=
  match mode with
  | 0 => decide (unit < 2 * rem) || (decide (unit = 2 * rem) && odd)
  | 1 => false
  | 2 => !neg && decide (rem ≠ 0)
  | _ => neg && decide (rem ≠ 0)

/-- m·2^e rounded to a multiple of 2^q: the multiple, and whether it is inexact. -/
def roundTo (mode : Nat) (neg : Bool) (m : Nat) (e q : Int) : Nat × Bool :=
  if q ≤ e then (m * 2 ^ (e - q).toNat, false)
  else
    let u := 2 ^ (q - e).toNat
    let n := m / u
    let rem := m % u
    (if roundsUp mode neg (n % 2 == 1) rem u then n + 1 else n, decide (rem ≠ 0))

/-- Sign bit of a code. -/
def Fmt.signed (f : Fmt) (neg : Bool) (mag : Nat) : Nat := if neg then mag + 2 ^ (f.width - 1) else mag

/-- The overflow rule (R53). -/
def overflowCode (f : Fmt) (mode : Nat) (neg : Bool) : Nat :=
  let toInf := f.hasInf && (mode == 0 || (mode == 2 && !neg) || (mode == 3 && neg))
  f.signed neg (if toInf then f.infCode else f.maxCode)

/-- `round` of a finite nonzero number to a floating format (R52, R53). -/
def roundFloat (f : Fmt) (mode : Nat) (neg : Bool) (m : Nat) (e : Int) : Nat × Flags :=
  let emin : Int := 1 - (f.bias : Int)
  let t : Int := e + (Nat.log2 m : Int)
  let q : Int := max t emin - f.fw
  let (n, inex) := roundTo mode neg m e q
  let (n, q) := if n = 2 ^ (f.fw + 1) then (2 ^ f.fw, q + 1) else (n, q)
  let mag := if n < 2 ^ f.fw then n else (q + f.fw + f.bias).toNat * 2 ^ f.fw + (n - 2 ^ f.fw)
  if f.maxCode < mag then (overflowCode f mode neg, fOverflow ||| fInexact)
  else (f.signed neg mag, flagIf inex fInexact ||| flagIf (inex && decide (t < emin)) fUnderflow)

/-- The range of an integer format (R38). -/
def Fmt.range (f : Fmt) : Int × Int :=
  if f.isSigned then (-(2 ^ (f.width - 1) : Nat), (2 ^ (f.width - 1) : Nat) - 1) else (0, (2 ^ f.width : Nat) - 1)

/-- An integer's code in a format. -/
def intCode (f : Fmt) (i : Int) : Nat := (i % (2 ^ f.width : Nat)).toNat

/-- `round` to an integer format (R55). -/
def roundInt (f : Fmt) (mode : Nat) (x : Val) : Nat × Flags :=
  match x with
  | .nan => (0, fInvalid)
  | .inf s => (intCode f (if s then f.range.1 else f.range.2), fInvalid)
  | .fin s m e =>
    let (n, inex) := roundTo mode s m e 0
    let i : Int := if s then -(n : Int) else n
    if i < f.range.1 then (intCode f f.range.1, fInvalid)
    else if f.range.2 < i then (intCode f f.range.2, fInvalid)
    else (intCode f i, flagIf inex fInexact)

/-- `round(x, fmt, mode)` (R52 to R55). -/
def round (f : Fmt) (mode : Nat) (x : Val) : Nat × Flags :=
  if f.isFloat then
    match x with
    | .nan => if f.hasNan then (f.nanCode, 0) else (0, fInvalid)
    | .inf s =>
      if f.hasInf then (f.signed s f.infCode, 0)
      else if f.hasNan then (f.nanCode, fInvalid)
      else (f.signed s f.maxCode, fOverflow)
    | .fin s m e => if m = 0 then (f.signed s 0, 0) else roundFloat f mode s m e
  else roundInt f mode x

/-- Rounding to FP32. -/
def round32 (mode : Nat) (x : Val) : BitVec 32 × Flags :=
  let (c, fl) := round .fp32 mode x
  (BitVec.ofNat 32 c, fl)

/-- An FP32 code as a number. -/
def read32 (x : BitVec 32) : Val := Fmt.fp32.read x.toNat

/-! ## Exact arithmetic (R10, R56) -/

/-- The signed integer of a finite number in units of 2^q, for q at or below its exponent. -/
def unitsOf (s : Bool) (m : Nat) (e q : Int) : Int :=
  let n : Int := (m * 2 ^ (e - q).toNat : Nat)
  if s then -n else n

/-- The exact sum of two numbers with R56's zeros; invalid for opposite infinities. -/
def addNum (a b : Val) : Val × Flags :=
  match a, b with
  | .nan, _ => (.nan, 0)
  | _, .nan => (.nan, 0)
  | .inf s, .inf t => if s = t then (.inf s, 0) else (.nan, fInvalid)
  | .inf s, _ => (.inf s, 0)
  | _, .inf t => (.inf t, 0)
  | .fin s m e, .fin t n f =>
    if m = 0 ∧ n = 0 then (.fin (s && t) 0 0, 0)
    else
      let q := min e f
      (Val.ofInt (unitsOf s m e q + unitsOf t n f q) q, 0)

/-- The exact product; invalid for zero times infinity. -/
def mulNum (a b : Val) : Val × Flags :=
  match a, b with
  | .nan, _ => (.nan, 0)
  | _, .nan => (.nan, 0)
  | .inf s, .inf t => (.inf (s ^^ t), 0)
  | .inf s, .fin t n _ => if n = 0 then (.nan, fInvalid) else (.inf (s ^^ t), 0)
  | .fin s m _, .inf t => if m = 0 then (.nan, fInvalid) else (.inf (s ^^ t), 0)
  | .fin s m e, .fin t n f => (.fin (s ^^ t) (m * n) (e + f), 0)

/-- The exact sum of many terms (R56, R244): NaN, infinities, then one exact integer at the least exponent. -/
def sumNum (xs : List Val) : Val × Flags :=
  if xs.any Val.isNan then (.nan, 0)
  else
    let pinf := xs.any (fun x => x = .inf false)
    let ninf := xs.any (fun x => x = .inf true)
    if pinf && ninf then (.nan, fInvalid)
    else if pinf then (.inf false, 0)
    else if ninf then (.inf true, 0)
    else
      let q := xs.foldl (fun q x => match x with
        | .fin _ _ e => min q e
        | _ => q) 0
      let total := xs.foldl (fun (acc : Int) x => match x with
        | .fin s m e => acc + unitsOf s m e q
        | _ => acc) 0
      if xs ≠ [] ∧ xs.all (fun x => x.isZero && x.neg) then (.fin true 0 0, 0) else (Val.ofInt total q, 0)

/-- A quotient of two finite nonzero numbers, with a sticky low bit so that every rounding is that of the exact
value (R237). -/
def divFin (s : Bool) (m : Nat) (e : Int) (t : Bool) (n : Nat) (f : Int) : Val :=
  let sh := 64 + bitLength n
  let q := m * 2 ^ sh / n
  let sticky := if m * 2 ^ sh % n = 0 then 0 else 1
  .fin (s ^^ t) (2 * q + sticky) (e - f - sh - 1)

/-- Division (R237). -/
def divNum (a b : Val) : Val × Flags :=
  match a, b with
  | .nan, _ => (.nan, 0)
  | _, .nan => (.nan, 0)
  | .inf _, .inf _ => (.nan, fInvalid)
  | .inf s, .fin t _ _ => (.inf (s ^^ t), 0)
  | .fin s _ _, .inf t => (.fin (s ^^ t) 0 0, 0)
  | .fin s m e, .fin t n f =>
    if n = 0 then (if m = 0 then (.nan, fInvalid) else (.inf (s ^^ t), fDivzero))
    else if m = 0 then (.fin (s ^^ t) 0 0, 0)
    else (divFin s m e t n f, 0)

/-- Integer square root: `r` holds the bits found above bit k. -/
def isqrt : Nat → Nat → Nat → Nat
  | 0, _, r => r
  | k + 1, n, r => isqrt k n (if (r + 2 ^ k) * (r + 2 ^ k) ≤ n then r + 2 ^ k else r)

/-- A square root with a sticky low bit (R237). -/
def sqrtFin (m : Nat) (e : Int) : Val :=
  let sh := 160 - bitLength m
  let sh := if (e - sh) % 2 = 0 then sh else sh + 1
  let n := m * 2 ^ sh
  let r := isqrt 82 n 0
  .fin false (2 * r + (if r * r = n then 0 else 1)) ((e - sh) / 2 - 1)

/-- Square root (R237). -/
def sqrtNum (a : Val) : Val × Flags :=
  match a with
  | .nan => (.nan, 0)
  | .inf s => if s then (.nan, fInvalid) else (.inf false, 0)
  | .fin s m e => if m = 0 then (.fin s 0 0, 0) else if s then (.nan, fInvalid) else (sqrtFin m e, 0)

/-- Comparison of two numbers that are not NaN: a < b, with −0 = +0 (R239). -/
def ltNum (a b : Val) : Bool :=
  match a, b with
  | .inf s, .inf t => s && !t
  | .inf s, _ => s
  | _, .inf t => !t
  | .fin s m e, .fin t n f => decide (unitsOf s m e (min e f) < unitsOf t n f (min e f))
  | _, _ => false

/-- Equality of two numbers that are not NaN, with −0 = +0 (R239). -/
def eqNum (a b : Val) : Bool := !a.isNan && !b.isNan && !ltNum a b && !ltNum b a

/-- The order that puts −0 below +0 (R237, R244). -/
def beforeNum (a b : Val) : Bool := ltNum a b || (eqNum a b && a.neg && !b.neg)

/-! ## Estimates and functions (R238) -/

/-- Fractional bits of the fixed-point work of the functions. -/
def prec : Nat := 320

/-- Σ terms of a series: `t` is the present term, `k` its index, `f t k` the next term. -/
def series (f : Nat → Nat → Nat) : Nat → Nat → Nat → Nat → Nat
  | 0, _, _, acc => acc
  | n + 1, k, t, acc => series f n (k + 1) (f t k) (acc + t)

/-- ln 2 in units of 2^−prec: 2·Σ (1/3)^(2k+1)/(2k+1), each power kept beside its term. -/
def ln2Fix : Nat :=
  2 * ((List.range 110).foldl (fun (acc : Nat × Nat) k => (acc.1 + acc.2 / (2 * k + 1), acc.2 / 9))
    (0, 2 ^ prec / 3)).1

/-- e^y in units of 2^−prec, for y in units of 2^−prec below 1. -/
def expFix (y : Nat) : Nat := series (fun t k => t * y / 2 ^ prec / (k + 1)) 90 0 (2 ^ prec) 0

/-- The value of m·2^e in units of 2^−prec, rounded down. -/
def toFix (m : Nat) (e : Int) : Nat :=
  if 0 ≤ e + prec then m * 2 ^ (e + prec).toNat else m / 2 ^ (-(e + prec)).toNat

/-- A positive fixed-point value that is not exact, as a number with a sticky bit. -/
def stickyFix (neg : Bool) (x : Nat) (e : Int) : Val := .fin neg (2 * x + 1) (e - prec - 1)

/-- 2^a for a finite a (R238): exact for an integer a. -/
def exp2Fin (s : Bool) (m : Nat) (e : Int) : Val :=
  if m = 0 then .fin false 1 0
  else if 12 ≤ e + (Nat.log2 m : Int) then .fin false 3 (if s then -4096 else 4096)
  else
    let whole : Int := if 0 ≤ e then unitsOf s m e 0 else (unitsOf s m e e) / (2 ^ (-e).toNat : Nat)
    let fracNum : Nat := if 0 ≤ e then 0 else ((unitsOf s m e e) % (2 ^ (-e).toNat : Nat)).toNat
    if fracNum = 0 then .fin false 1 whole
    else
      let y := fracNum * ln2Fix / 2 ^ (-e).toNat
      stickyFix false (expFix y) whole

/-- Bits of log2 of x in [1, 2), x in units of 2^−prec, by repeated squaring. -/
def log2Bits : Nat → Nat → Nat → Nat
  | 0, _, acc => acc
  | n + 1, x, acc =>
    let y := x * x / 2 ^ prec
    if 2 ^ (prec + 1) ≤ y then log2Bits n (y / 2) (2 * acc + 1) else log2Bits n y (2 * acc)

/-- log2 a for a finite a > 0 (R238): exact for a power of two. -/
def log2Fin (m : Nat) (e : Int) : Val :=
  let t := Nat.log2 m
  let k : Int := e + t
  if m = 2 ^ t then Val.ofInt k 0
  else
    let F : Int := log2Bits 120 (m * 2 ^ prec / 2 ^ t) 0
    let K : Int := k * (2 ^ 120 : Nat) + F
    if 0 ≤ K then .fin false (2 * K.toNat + 1) (-121)
    else .fin true (2 * (-K - 1).toNat + 1) (-121)

/-- tanh a for a finite nonzero a (R238). -/
def tanhFin (s : Bool) (m : Nat) (e : Int) : Val :=
  let t : Int := e + (Nat.log2 m : Int)
  if t < -60 then .fin s (m * 2 ^ 200 - 1) (e - 200)
  else if 6 ≤ t then .fin s (2 ^ 100 - 1) (-100)
  else
    let y := 2 * toFix m e
    let n := y / ln2Fix
    let E := expFix (y % ln2Fix) * 2 ^ n
    stickyFix s ((E - 2 ^ prec) * 2 ^ prec / (E + 2 ^ prec)) 0

/-- `vexp2.f32`'s exact value (R238). -/
def exp2Num (a : Val) : Val × Flags :=
  match a with
  | .nan => (.nan, 0)
  | .inf s => (if s then .fin false 0 0 else .inf false, 0)
  | .fin s m e => (exp2Fin s m e, 0)

/-- `vlog2.f32`'s exact value (R238). -/
def log2Num (a : Val) : Val × Flags :=
  match a with
  | .nan => (.nan, 0)
  | .inf s => if s then (.nan, fInvalid) else (.inf false, 0)
  | .fin s m e => if m = 0 then (.inf true, fDivzero) else if s then (.nan, fInvalid) else (log2Fin m e, 0)

/-- `vtanh.f32`'s exact value (R238). -/
def tanhNum (a : Val) : Val × Flags :=
  match a with
  | .nan => (.nan, 0)
  | .inf s => (.fin s 1 0, 0)
  | .fin s m e => if m = 0 then (.fin s 0 0, 0) else (tanhFin s m e, 0)

/-- `est` of an exact positive value m·2^e whose low bit is sticky (R238): the estimate's code and flags. -/
def estCode (m : Nat) (e : Int) : Nat × Flags :=
  let k : Int := e + (Nat.log2 m : Int)
  if 128 ≤ k then (0x7F800000, fOverflow)
  else if k < -126 then
    -- 12 significant bits first; below the normal range the subnormal grid decides (R238)
    ((if 0 ≤ e + 149 then m * 2 ^ (e + 149).toNat else m / 2 ^ (-(e + 149)).toNat), 0)
  else
    let q := if (11 : Nat) ≤ Nat.log2 m then m / 2 ^ (Nat.log2 m - 11) else m * 2 ^ (11 - Nat.log2 m)
    ((k + 127).toNat * 2 ^ 23 + (q - 2 ^ 11) * 2 ^ 12, 0)

/-- An estimate with a sign. -/
def signedEst (s : Bool) (x : Val) : Nat × Flags :=
  match x with
  | .fin _ m e => let (c, f) := estCode m e; (Fmt.fp32.signed s c, f)
  | _ => (0x7FC00000, 0)

/-- `vrcpe.f32` (R238). -/
def rcpe (a : Val) : Nat × Flags :=
  match a with
  | .nan => (0x7FC00000, 0)
  | .inf s => (Fmt.fp32.signed s 0, 0)
  | .fin s m e =>
    if m = 0 then (Fmt.fp32.signed s 0x7F800000, fDivzero) else signedEst s (divFin false 1 0 false m e)

/-- `vrsqrte.f32` (R238): 1/√a as the square root of a reciprocal kept to 400 bits. -/
def rsqrte (a : Val) : Nat × Flags :=
  match a with
  | .nan => (0x7FC00000, 0)
  | .inf s => if s then (0x7FC00000, fInvalid) else (0, 0)
  | .fin s m e =>
    if m = 0 then (Fmt.fp32.signed s 0x7F800000, fDivzero)
    else if s then (0x7FC00000, fInvalid)
    else
      -- √(1/a): 1/a in units of 2^(−2·sh), then its integer square root, with a sticky bit
      let sh : Nat := 60
      let odd : Nat := if e % 2 = 0 then 0 else 1
      let m' := m * 2 ^ odd
      let h : Int := (e - odd) / 2
      let n := 2 ^ (2 * sh) / m'
      let r := isqrt 64 n 0
      signedEst false (.fin false (2 * r + (if r * r * m' = 2 ^ (2 * sh) then 0 else 1)) (-h - sh - 1))

end Sys2Proof.Machine
end

