-- ==== Sys2Proof/Machine/State.lean ====
section
/-!
DEFINITION. The state of the machine: the brick in focus, the other bricks, and everything the module holds.
Plain data only. INVENTORY.md lists every field with the rule that names it.
-/

namespace Sys2Proof.Machine

open Sys2Proof

/-- Why a step stops. -/
inductive Fault where
  /-- Raised by nothing: the machine takes its traps as R371 to R377 describe them, and no step of it stops (safe). -/
  | undecodable
  deriving DecidableEq, Repr

/-- Why the model has no meaning for an instruction. -/
inductive Refusal where
  /-- Raised by an arm of Dispatch that has no meaning yet; every arm has one, so nothing raises it (safe). -/
  | notModelled (mnemonic : String)
  deriving DecidableEq, Repr

/-! ## Inside a brick -/

/-- Operand latches (R152). -/
structure Opd where
  ia0o : Word
  ia1o : Word
  ago : Word
  lsa : Word
  lsd : Word
  lsx : Word
  vxo : Word
  mxpcw : Word
  mxo : Word
  bro : Word
  syo : Word
  qpa : Word
  spo : Word
  pwo : Word
  deriving DecidableEq, Repr

/-- Result latches (R150). -/
structure Res where
  ia0r : Word
  ia0h : Word
  ia1r : Word
  ia1h : Word
  agr : Word
  agn : Word
  lsr : Word
  lsh : Word
  vxr : Word
  mxs : Word
  brl : Word
  syr : Word
  qpf : Word
  spn : Word
  pwr : Word
  deriving DecidableEq, Repr

/-- What a lockstep operation in flight writes when its last cycle ends (R154, R232, R234). -/
inductive PWrite where
  | res (l : ResL) (x : Word)
  | vec (n : Nat) (lanes : BitVec 64) (x : Vec)
  | mask (n : Nat) (x : Word)
  | guard (k : Nat) (on : Bool)
  | flags (f : BitVec 7)
  /-- A division's two results, which a later division on the same unit abandons (R171). -/
  | div (u : Ia) (r h : Word)
  deriving DecidableEq, Repr

/-- A lockstep operation in flight: the domain cycles left, the present one included. -/
structure Pend where
  left : Nat
  w : PWrite
  deriving DecidableEq, Repr

/-- What a move or operation of the issuing bundle writes at the end of its cycle (R153). -/
inductive Write where
  | g (n : Nat) (x : Word)
  | k (n : Nat) (on : Bool)
  | kw (x : Word)
  | v (n : Nat) (x : Vec)
  | cnt (c : Ctr)
  | prio (p : Nat)
  /-- A `wsr`, by its register number (R379). -/
  | sys (num : Nat) (x : Word)
  /-- A `stat`: `mx.s` takes the unit's state as the cycle ends (R266). -/
  | stat
  deriving DecidableEq, Repr

/-- Branch state (R176): the prepared target, the condition, the pending transfer with its delay bundles left. -/
structure Br where
  bt : BitVec 32
  bc : Bool
  xfer : Option (BitVec 32 × Nat)
  deriving DecidableEq, Repr

/-- Loop state (R188). `base` is the first body bundle; `lbuf` the bundles the loop buffer captured, by their place in
the body; a place whose bundle the first pass did not fetch holds none (R141, R183). -/
structure LoopSt where
  base : Nat
  ii : Nat
  stages : Nat
  bind : BitVec 6
  levels : Nat
  trips : List Nat
  total : Nat
  pass : Nat
  idx : Nat
  lbuf : List (Option (BitVec 192))
  deriving DecidableEq, Repr

/-- The four counters (R190). -/
structure Cnt where
  ld : Nat
  st : Nat
  cp : Nat
  mx : Nat
  deriving DecidableEq, Repr

/-- A trap record (R373) before it is packed. -/
structure TrapRec where
  kind : Nat
  cause : Nat
  slot : Nat
  addr : Word
  aux : BitVec 32
  info : Word
  path : Nat
  fkind : Nat
  deriving DecidableEq, Repr

/-- A pending error report (R193): the trap it raises, and the counter whose wait covers it. -/
structure Report where
  ctr : Ctr
  tr : TrapRec
  deriving DecidableEq, Repr

/-- Suspension reasons (R332). -/
inductive Reason where
  | none | dependence | countedWait | park | replayFull | counterFull | scoreFull | pushFull | wakeWait | fence
  | barrier | matrixWait | detCheck
  deriving DecidableEq, Repr

/-- What a stalled bundle waits for beyond its reason: the release of hulls of a scoreboard, by their commands, free entries
of it (R124), or a range of the local stores for a read or a write (R271, R273). -/
inductive Want where
  | none
  | hulls (seqs : List Nat)
  | entries (n : Nat)
  | range (load : Bool) (space off len : Nat)
  deriving DecidableEq, Repr

/-- The stall a bundle met: its reason, wake field (R332), and whether the rest of the domain advances (R271). -/
structure Stall where
  reason : Reason
  wake : Nat
  matrix : Bool
  /-- The continuation as read at this cycle (R192, R224; log 24). -/
  cont : BitVec 32
  /-- What ends it, where the reason and the wake field do not say (R124, R271). -/
  want : Want
  deriving DecidableEq, Repr

/-- How a task leaves its brick after a bundle (R194 to R196). -/
inductive Leave where
  | exit
  | yield (cont : BitVec 32)
  | susp (cont : BitVec 32)
  deriving DecidableEq, Repr

/-- What the bundle now issuing has met (model's own; log 3). -/
inductive Event where
  | none
  /-- A trap taken, with its rank among traps found at issue (R450): kind rank, slot, cause. -/
  | trapped (rank slot cause : Nat)
  | stalled (st : Stall)
  /-- A stall that never suspends: 0 spire, with its slot (R411), 1 grant (R401), 2 `armw`, with its timeout (R221),
  3 `tret` (R384). -/
  | stalledOwn (what arg : Nat)
  deriving DecidableEq, Repr

/-- The bundle now issuing (model's own; log 3). -/
structure Issue where
  slot : Nat
  /-- The checks of every slot have passed: the bundle issues. -/
  go : Bool
  /-- Literal slots of the run so far, their value, and whether they sign-extend (R149). -/
  litN : Nat
  litV : Nat
  litS : Bool
  wr : List Write
  opd0 : Opd
  ev : Event
  leave : Option Leave
  /-- A transfer taken by this bundle (R178). -/
  jump : Option (BitVec 32)
  /-- A loop started by this bundle (R183); `none` inside for N = 0. -/
  loop : Option (Option LoopSt × Nat)
  /-- A `tret` issued by this bundle, with its skip bit (R384). -/
  tret : Option Bool
  deriving DecidableEq, Repr

/-- The three local stores (R128). -/
structure Locals where
  sp : Cells Byte
  ac : Cells Byte
  sb : Cells Byte
  deriving DecidableEq, Repr

/-- Queued matrix operations (R260). -/
inductive MxCode where
  | mm | mmT | mmc | mms | mmsT | mmcs | cclr | cacc | cscl | drain | drainq
  deriving DecidableEq, Repr

/-- A queued matrix operation: what its trigger read, and its progress once it has begun (R268 to R276). -/
structure MxOp where
  code : MxCode
  desc : Word
  pcw : Word
  o : Word
  tid : Nat
  ctx : Nat
  det : Option (Nat × Nat × Nat × Nat)
  /-- Frozen in the image a handler holds (R372, R451). -/
  frozen : Bool
  /-- The local stores as its first cycle finds them; none before it begins (R264, R273). -/
  snap : Option Locals
  /-- Cycles done, and cycles waited for B data, which count in T of an unexposed operation (R259). -/
  elapsed : Nat
  waits : Nat
  /-- The next column to stream, and the cycle of the operation at whose end its stream may begin (R259). -/
  col : Nat
  colAt : Nat
  /-- B bytes delivered from device memory, by offset from b_base, and how many (R274). -/
  bbuf : Cells Byte
  bgot : Nat
  /-- Ranges of those bytes that came poisoned, as first byte and length (R87, R258). -/
  bpois : List (Nat × Nat)
  /-- Pages whose translation an exposed product's request has found: virtual and physical page (R274). -/
  pages : List (Nat × Nat)
  /-- Waiting for B data (R274). -/
  waiting : Bool
  tok : Option Nat
  /-- Columns requested from device memory (R274). -/
  req : Nat
  /-- The column before which the product stops, with its report (R276). -/
  stop : Option (Nat × TrapRec)
  aRel : Bool
  bRel : Bool
  deriving DecidableEq, Repr

/-- The wait of the bundle after a `bar` (R225): the barrier's address and index, the generation in which the
arrival counted once it is known, and the continuation read at the issue of `bar`. -/
structure BarWait where
  va : Nat
  idx : Nat
  gen : Option (BitVec 32)
  broken : Bool
  cont : BitVec 32
  deriving DecidableEq, Repr

/-- The pipeline image (R372). -/
structure Image where
  pc : BitVec 32
  cbi : Nat
  codeBase : Nat
  opd : Opd
  res : Res
  pipe : List Pend
  br : Br
  lp : Option LoopSt
  ix : Vector Word 6
  rrb : BitVec 4
  timer : Nat
  spTimer : Nat
  acqTimer : Nat
  barWait : Option BarWait
  /-- What `stat` reports of the last completed operations (R266). -/
  lastt : Nat
  lasts : Nat
  deriving DecidableEq, Repr

/-- Atomic operations (R201, R209). -/
inductive AmoOp where
  | add | and | or | xor | min | max | minu | maxu | swap | cas | fadd
  deriving DecidableEq, Repr

/-- Kinds of access in flight (R204 to R214, R225, R347, R406). -/
inductive DevKind where
  | load (signed : Bool)
  | store
  | amo (op : AmoOp) (comb : Bool) (mode : Nat) (nr : Bool) (cmp : Nat)
  /-- A chained load: scratchpad offset of its block, steps, next step, carried value. -/
  | chain (block n s : Nat) (val : Word)
  | rst (brick space off : Nat)
  /-- A barrier arrival: kind 0 `bar`, 1 `arrive`, 2 `bleave`. -/
  | bar (kind idx block : Nat)
  | tspawn
  | tdec
  | tinc (n : Nat)
  | tkill (team : Bool)
  | tread
  /-- Bytes of a B block asked of another module (R274, R292). -/
  | bstream
  | msd (count reg : Nat)
  /-- The marker of a phase boundary (R223). -/
  | marker
  deriving DecidableEq, Repr

/-- Where a delivered value goes: physical registers bound at issue (R204). -/
inductive Dest where
  | none
  | g (n : Nat)
  | gq (lo hi : Nat)
  | v (n : Nat) (lanes : BitVec 64)
  deriving DecidableEq, Repr

/-- How far an access has come. -/
inductive Stage where
  | issued
  /-- Parked on a replayable fault, with its token (R99 to R101). -/
  | parked (tok : Nat)
  /-- Waiting in a router's wait buffer or split record, or in the write queue (R292, R296). -/
  | queued
  /-- Sent over the fabric to the node that owns its line (R434). -/
  | remote (node : Nat)
  /-- Performed, with the value read. -/
  | performed (val : Nat) (flags : BitVec 7)
  /-- Not performed, with the report it leaves (R208). -/
  | failed (r : Report)
  deriving DecidableEq, Repr

/-- A device access or packet in flight (R204). `tid` names the task that issued it. -/
structure DevOp where
  id : Nat
  kind : DevKind
  va : Nat
  len : Nat
  data : Nat
  bytes : BitVec 256
  dst : Dest
  acq : Bool
  rel : Bool
  scope : Nat
  /-- The ord code of an atomic (R198). -/
  ord : Nat
  tid : Nat
  ctx : Nat
  /-- Launch, team, member and phase in deterministic mode (R324). -/
  det : Option (Nat × Nat × Nat × Nat)
  /-- The issuer's launch (R349). -/
  launch : Nat
  /-- The lines read may still enter the snapshot cache (R206). -/
  fill : Bool
  /-- Of a 256-byte access, the sectors performed so far as bits, and what they have read or which of them were discarded
  (R86, R321). -/
  sect : Nat
  acc : Nat
  /-- Of a chain, the brick whose stores hold its block, and the saved task whose image took them (R307, R394). -/
  home : Nat
  kept : Option Nat
  /-- Of a combinable request, how many routers of its path it has passed or entered (R296). -/
  routed : Nat
  /-- Of a 256-byte access, the sector that another module has been asked for (R321). -/
  turn : Nat
  stage : Stage
  deriving DecidableEq, Repr

/-- A command entry of a push buffer or engine (R112, R113, R216), with its issuer. -/
structure Cmd where
  raw : BitVec 512
  eng : Nat
  brick : Nat
  tid : Nat
  ctx : Nat
  /-- 1 when dome firmware submitted it (R113 act 3). -/
  firm : Bool
  /-- Deterministic tag of the issuer when the command was pushed (R326): launch id, team, member, phase. -/
  det : Option (Nat × Nat × Nat × Nat)
  seq : Nat
  /-- An aborted gang slice has ended the command before an engine accepted it (R366). -/
  stopped : Bool := false
  deriving DecidableEq, Repr

/-- A hull in a range scoreboard (R124). -/
structure Hull where
  space : Nat
  lo : Nat
  hi : Nat
  seq : Nat
  deriving DecidableEq, Repr

/-- A line of the snapshot cache (R140). -/
structure SnapLine where
  ctx : Nat
  line : Nat
  data : BitVec 512
  deriving DecidableEq, Repr

/-- A line that an engine or a brick's B stream has buffered on one of the paths of R222 (R222, R317). -/
structure BufLine where
  path : Nat
  unit : Nat
  ctx : Nat
  line : Nat
  data : BitVec 512
  deriving DecidableEq, Repr

/-- A line of the instruction cache (R141). -/
structure IcLine where
  ctx : Nat
  pa : Nat
  data : BitVec 1536
  deriving DecidableEq, Repr

/-- A cached translation (R93): the context, the first virtual address and size of the page, and its leaf. -/
structure TlbEnt where
  ctx : Nat
  va : Nat
  size : Nat
  leaf : Word
  deriving DecidableEq, Repr

/-- A word whose stored code word has inverted bits (R144). -/
structure EccErr where
  array : Nat
  word : Nat
  bits : List Nat
  deriving DecidableEq, Repr

/-- The lockstep hold (R102): what missed, the cycles held, and the token once parked. -/
structure Hold where
  va : Nat
  fetch : Bool
  cycles : Nat
  tok : Option Nat
  deriving DecidableEq, Repr

/-- An entry of a spire FIFO (R408): 256 bytes and the clock cycle from which it can be received. -/
structure SpEnt where
  data : Vec
  ready : Nat
  deriving DecidableEq, Repr

/-- A ready-queue entry (R355). `tid` is the registration it dispatches. -/
structure QEnt where
  ctx : Nat
  seq : Nat
  cnt : Nat
  kind : Nat
  quad : Nat
  prio : Nat
  recVa : Nat
  launch : Nat
  /-- A task made ready by `tspawn`; of a saved-team entry, that it names one task alone. -/
  spawned : Bool
  /-- Order in which entries were made, over both towers (R359). -/
  made : Nat
  deriving DecidableEq, Repr

/-- A task's registration with the dome (R333, R382): what is kept while it is off its brick, and its launch. -/
structure Task where
  tid : Nat
  recVa : Nat
  ctx : Nat
  launch : Nat
  det : Option Nat
  bound : Bool
  spawned : Bool
  team : Nat
  member : Nat
  tsize : Nat
  bar : Nat
  frame : Nat
  cnt : Cnt
  cyc : Nat
  phase : Nat
  prio : Nat
  nflg : Word
  tvec : Word
  reports : List Report
  /-- The barrier wait a suspension interrupted (R225, R346). -/
  barWait : Option BarWait
  brick : Nat
  /-- Readied from a wake wait: it dispatches only onto the brick it left (R382). -/
  pin : Bool
  /-- What a task suspended in a stall waits for (R124, R271). -/
  want : Want
  /-- Clock cycle of its latest dispatch or restore (R344). -/
  since : Nat
  /-- The tower that held member 0 of its team when the team was last placed (R356). -/
  lead : Nat
  /-- Its image slot in the context's save area, and the save generation (R388). -/
  slot : Option Nat
  gen : BitVec 32
  deriving DecidableEq, Repr

/-- A brick's architectural registers and latches. -/
structure Regs where
  g : Vector Word 64
  v : Vector Vec 32
  m : Vector Word 8
  k : BitVec 6
  h : Vector Word 16
  ix : Vector Word 6
  rrb : BitVec 4
  opd : Opd
  res : Res
  pipe : List Pend
  br : Br
  lp : Option LoopSt
  deriving DecidableEq, Repr

/-- A brick's trap and system registers (R380). -/
structure Sys where
  nflg : Word
  tvec : Word
  inh : Bool
  trec : Vector Word 4
  wcmp : Vector Word 8
  /-- Source and offset of each wake comparator's most recent unqueued match (R139). -/
  wlast : Vector Word 8
  wakeQ : List Word
  /-- Arming comparators as arm words with the hit bit in bit 22 (R221, R389). -/
  arm : Vector (BitVec 26) 4
  tag : Vector Word 256
  thand : BitVec 8
  einj : Word
  elog : Cells (BitVec 128)
  held : Option Image
  deriving DecidableEq, Repr

/-- A brick (files 06 to 12, 19, 20). -/
structure Brick where
  bid : Nat
  running : Bool
  t : Task
  pc : BitVec 32
  cbi : Nat
  codeBase : Nat
  r : Regs
  y : Sys
  loc : Locals
  cnt : Cnt
  cyc : Nat
  phase : Nat
  reports : List Report
  barWait : Option BarWait
  timer : Nat
  spTimer : Nat
  acqTimer : Nat
  /-- The stall in force, and the continuation read at its start (R192, R447). -/
  stall : Option Stall
  /-- The stalls of their own kinds in force, as Event.stalledOwn names them (R447). -/
  own : List (Nat × Nat)
  contAt : BitVec 32
  armTimedOut : Bool
  dirty : List Nat
  lpois : List (Nat × Nat)
  ecc : List EccErr
  snap : List SnapLine
  ic : List IcLine
  /-- The instruction, data, stream and second-level buffers (R93). -/
  itlb : List TlbEnt
  dtlb : List TlbEnt
  stlb : List TlbEnt
  tlb : List TlbEnt
  hold : Option Hold
  dev : List DevOp
  /-- Loads whose delivery falls at the end of the present cycle (R156). -/
  landing : List Nat
  nextId : Nat
  push : List Cmd
  score : List Hull
  mxq : List MxOp
  lastt : Nat
  lasts : Nat
  spq : List SpEnt
  /-- Clock cycles from which the slots this brick's receives freed count for the sender (R408). -/
  spFreed : List Nat
  cls : Option Nat
  hiCls : Option Nat
  /-- The outcome of the grant the task waits for: none while it waits (R401). -/
  grant : Option Bool
  stepN : Nat
  stepD : Nat
  halted : Bool
  preq : Bool
  /-- Issue has stopped for a save, with the reason and wake the record takes (R386, R103, R449). -/
  saving : Option (Reason × Nat)
  /-- The next bundle counts as issued with no effect (R384). -/
  skip : Bool
  localQ : List QEnt
  assigned : Option QEnt
  /-- The tower whose team entry holds the brick, and that entry's place in the order of all entries made (R359). -/
  reserved : Option (Nat × Nat)
  lastCtx : Option Nat
  clk : Nat
  iss : Issue
  deriving DecidableEq, Repr

/-! ## The module -/

/-- Who waits on a replay token (R96, R99). -/
inductive Parked where
  | dev (brick id : Nat)
  /-- The lockstep hold of a brick (R102), or the task saved from it (R103). -/
  | hold (brick tid : Nat)
  /-- The unexposed product at the head of a brick's matrix queue (R275). -/
  | mx (brick tid : Nat)
  | engine (e seq : Nat)
  /-- A bundle kept back by the checks of deterministic mode, with the path of its access, and whether it is one of the task's
  trap handler (R325). -/
  | det (tid path : Nat) (handler : Bool)
  /-- A dome's ready-ring access (R362). -/
  | ring (tower prio : Nat)
  /-- A queue pair of an Ethernet port (R424). -/
  | port (port qp : Nat)
  /-- A chain packet of another module (R213, R306). -/
  | packet (tower : Nat) (p : Bytes)
  deriving DecidableEq, Repr

/-- A token and what it releases; `abort` once firmware has aborted it. -/
structure Token where
  tok : Nat
  who : Parked
  va : Nat
  released : Bool
  aborted : Bool
  deriving DecidableEq, Repr

/-- What an Ethernet port asks of device memory (R423, R424). -/
inductive PortKind where
  | write (data : Bytes)
  /-- A read: bytes still to come, and those that have. -/
  | read (len : Nat) (got : Bytes)
  | fetchAdd (add : Word)
  | cmpSwap (cmp swap : Word)
  deriving DecidableEq, Repr

/-- An operation of a queue pair, or what is left of it (R321, R424): the first of a parked pair holds its token; of poisoned lines,
the bytes that it has written with good data (R87). -/
structure PortOp where
  port : Nat
  qp : Nat
  rkey : Nat
  va : Nat
  kind : PortKind
  tok : Option Nat
  good : Cells (BitVec 64)
  deriving DecidableEq, Repr

/-- A class request in a domain's grant queue (R401). -/
structure Grant where
  brick : Nat
  tid : Nat
  cls : Nat
  deriving DecidableEq, Repr

/-- An overflow ring of one context, tower and priority (R362). -/
structure Ring where
  ctx : Nat
  prio : Nat
  head : Nat
  ents : List QEnt
  deriving DecidableEq, Repr

/-- A tower's dome (R18): its registers (R426), queues, logs, ready queues and grant queues. -/
structure Dome where
  shbase : Word
  acthr : Nat
  twarn : Nat
  tcrit : Nat
  cwin : Nat
  tslice : Nat
  gslice : Nat
  gskew : Nat
  dbud : Vector Nat 8
  gang : Vector Word 16
  tlbReq : Option Word
  tlbDone : Bool
  /-- The walk cache of the tower walker: non-leaf entries, each with the range it covers (R93). -/
  walks : List TlbEnt
  faultQ : List (BitVec 256)
  /-- Records that wait for room in a full fault queue, of which none is dropped (R99, R363). -/
  faultOwed : List (BitVec 256)
  trapLog : List (BitVec 256)
  trapOv : Nat
  hintQ : List (BitVec 128)
  hintOv : Nat
  cwQ : List (BitVec 128)
  cwOv : Nat
  hw : List QEnt
  stamps : Vector Nat 4
  rings : List Ring
  grants : List Grant
  /-- Module clock cycle of the last balancing round (R364). -/
  balAt : Nat
  deriving DecidableEq, Repr

/-- A voltage domain (R395): state code 0 active, 1 gating, 2 gated, 3 ungating; requests waiting (true: gate);
the module clock cycle from which power has returned (R397); the cycle in which its budget window began (R404). -/
structure Domain where
  state : Nat
  reqs : List Bool
  returns : Nat
  winAt : Nat
  deriving DecidableEq, Repr

/-- A place beyond the module: a host window's address, or a line of another module, with its virtual address and the key id
of its leaf. -/
inductive Far where
  | window (w off : Nat)
  | node (node pa va key : Nat)
  deriving DecidableEq, Repr

/-- A write of a command that is ready to be made. -/
inductive Wr where
  /-- Bytes of one sector at a physical address, with the virtual one where the command names that (R321). -/
  | phys (pa : Nat) (va : Option Nat) (bs : List Byte)
  /-- A block that the command writes whole, with its key id and compressible bit, and its lines that come poisoned (R70, R80,
  R87). -/
  | block (pa : Nat) (bs : List Byte) (key : Nat) (cmp : Bool) (bad : List Nat)
  /-- A line moved by its physical address to, from or within the second tier (R69, R107). -/
  | move (src dst : Nat)
  | loc (brick space off : Nat) (bs : List Byte)
  | far (f : Far) (bs : List Byte)
  deriving DecidableEq, Repr

/-- What a command has read ahead of its position, to be written together: bytes of a block of a transform, or of a 4 KiB block, with
their poison; blocks transformed for a 4 KiB block, and their side array's bytes by space and address (R70, R117). -/
structure Ahead where
  buf : List (Bytes × Bool)
  out : List (Bytes × Bool)
  side : List (Nat × Int × Bytes)
  deriving DecidableEq, Repr

/-- Nothing read ahead. -/
def Ahead.none : Ahead := ⟨[], [], []⟩

/-- A command in one of an engine's four command contexts (R112, R115, R122): its position, what it has done, and
its outcome once known (status, fault kind). -/
structure CmdCtx where
  cmd : Cmd
  started : Bool
  /-- Position: run, and units within it (R115). -/
  k : Nat
  off : Nat
  count : Nat
  flags : BitVec 7
  poisoned : Bool
  outcome : Option (Nat × Nat)
  tok : Option Nat
  /-- Answers of the host or another module for the piece now in hand, with their poison (R429, R433). -/
  got : List (Bytes × Bool)
  /-- Answers still awaited, whether the one awaited is a read's, and its length. -/
  asked : Nat
  reading : Bool
  want : Nat
  /-- Nodes that the answers awaited come from (R436). -/
  nodes : List Nat
  /-- Data for the host held back until the run they belong to has been read whole (R87): window, offset and bytes; and the
  destination bytes they stand for. -/
  late : List (Nat × Nat × Bytes)
  lateBytes : Nat
  /-- Of poisoned lines, the bytes that the command has written with good data (R87). -/
  good : Cells (BitVec 64)
  /-- What it has read ahead of its position. -/
  ahead : Ahead
  /-- Writes of the last piece still to be made, and whether their data are poisoned (R321). -/
  todo : List Wr
  todoBad : Bool
  /-- The decrement of act 2 has been given up (R122). -/
  undec : Bool
  /-- What a routine starts with in a0, a1 and a2 (R126). -/
  args : List Word
  /-- The access to device memory that a routine waits for, and what its last load brought (R125, R126). -/
  core : Option CoreAcc
  loaded : Bytes
  /-- The stream core's registers, and whether the access is that of the instruction at its pc (R125). -/
  regs : CoreRegs
  stepping : Bool
  /-- The bytes of the output ring that the core has stored, and the places in the rings of the next bytes to consume and to publish
  (R125). -/
  ringMem : Cells Byte
  inPos : Nat
  outPos : Nat
  /-- Stream rings of a routine (R125), and whether it has ended by `ecall` (R126). -/
  ringIn : Bytes
  ringOut : Bytes
  ended : Bool
  /-- Clock cycle of the routine's last progress (R126). -/
  idle : Nat
  /-- This module's contribution, whether it has been sent, and the contributions that have come, by rank (R127). -/
  mine : Bytes
  sent : Bool
  parts : List (Nat × Bytes)
  deriving DecidableEq, Repr

/-- A copy or collective engine (R111, R112), with its stream core's lookaside buffer (R93) and 16 KiB of scratch (R125). -/
structure Engine where
  queue : List Cmd
  ctxs : List CmdCtx
  tlb : List TlbEnt
  coreTlb : List TlbEnt
  scratch : Cells Byte
  deriving DecidableEq, Repr

/-- Combinable requests as a tree: a leader before its follower (R297, R300). -/
inductive Tree where
  | leaf (brick id : Nat) (d : Nat)
  | pair (l f : Tree)
  deriving DecidableEq, Repr

/-- What combinable requests must agree in (R297). -/
structure CombKey where
  pa : Nat
  w8 : Bool
  op : AmoOp
  mode : Nat
  ord : Nat
  scope : Nat
  ctx : Nat
  key : Nat
  deriving DecidableEq, Repr

/-- An entry of a router's wait buffer: a waiting request, or the split record a pair left behind (R296, R297),
with the value its reply carried once it has come. -/
structure BufEnt where
  router : Nat
  key : CombKey
  tree : Tree
  since : Nat
  waiting : Bool
  reply : Option (Nat × BitVec 7)
  deriving DecidableEq, Repr

/-- A line of the memory-side cache (R66, R67): its dirty sectors, and the compressible bit of the leaf that brought it. -/
structure SliceLine where
  line : Nat
  dirty : BitVec 2
  cmp : Bool
  deriving DecidableEq, Repr

/-- A write-queue entry waiting for its line (R292, R293): requests in order of arrival. -/
structure WqEnt where
  line : Nat
  reqs : List (Nat × Nat)
  deriving DecidableEq, Repr

/-- A memory region (R424). -/
structure Region where
  rkey : BitVec 32
  ctx : Nat
  va : Nat
  len : Nat
  deriving DecidableEq, Repr

/-- A collective group (R438). -/
structure Group where
  index : Nat
  rank : Nat
  nodes : List Nat
  deriving DecidableEq, Repr

/-- Node id and routing table (R434). -/
structure Node where
  id : Nat
  routes : List (List Nat)
  deriving DecidableEq, Repr

/-- A fabric link (R433 to R437). -/
structure Link where
  up : Bool
  lanes : Nat
  combines : Bool
  lseq : Nat
  rseq : Nat
  /-- Flits not yet acknowledged, with their destination nodes; those beyond 1,024 wait to be sent (R433). -/
  unacked : List (Nat × Bytes)
  errs : Nat
  replays : Nat
  deriving DecidableEq, Repr

/-- A key slot 1 to 127 in use (R76, R443). -/
structure KeySlot where
  slot : Nat
  ctx : Nat
  key : BitVec 256
  /-- Whether the slot is being cleared, and the Clear key commands, of one port each, whose answers wait for it to be empty (R425,
  R428, R443). -/
  clearing : Option (List MgmtHeader)
  deriving DecidableEq, Repr

/-- The security controller (R439 to R443). Debug level 0 none, 1 trace, 2 halt. -/
structure Sec where
  locked : Bool
  level : Nat
  dbgCtx : Nat
  nonce : Option Bytes
  nonces : Nat
  transports : Nat
  recovery : Bool
  staged : Cells Byte
  stagedLen : Nat
  fw : Vector (Option Bytes) 2
  active : Option Nat
  boots : Nat
  deriving DecidableEq, Repr

/-- Parts in service (R32). -/
structure InServ where
  retired : List Nat
  hbm : BitVec 12
  channels : BitVec 24
  eth : BitVec 4
  fab : BitVec 36
  routines : Nat
  deriving DecidableEq, Repr

/-- A launch (R337, R342): its record, where it came from, its counts, and the records and pool run it uses. -/
structure Launch where
  id : Nat
  ctx : Nat
  raw : BitVec 2048
  ring : Option Nat
  status : Nat
  expanded : Bool
  teamsMade : Nat
  rbase : Nat
  pooled : Bool
  det : Option Nat
  live : Nat
  ntask : Nat
  nfault : Nat
  nkill : Nat
  /-- Of a bound launch, the tasks not yet dispatched with their bricks, in order (R368); of a traced one, those that
  have been (R367). -/
  trace : List (Nat × Nat)
  /-- Entries of the dispatch trace written (R367). -/
  traced : Nat
  deriving DecidableEq, Repr

/-- An exit whose release has not been performed: its task, the brick, and the exit bundle (R194, R377). -/
structure Exit where
  task : Task
  brick : Nat
  pc : BitVec 32
  cbi : Nat
  /-- Whether a loop was active, and a transfer pending, at the exit bundle (R373). -/
  loop : Bool
  pend : Bool
  deriving DecidableEq, Repr

/-- A saved image (R388 to R394): the brick as it stood, with reason and wake; `home` for one that returns to the brick
it left ahead of every reservation (R366, R396). -/
structure Saved where
  task : Task
  image : Brick
  reason : Reason
  wake : Nat
  home : Bool
  deriving DecidableEq, Repr

/-- An admitted must-save set (R416): entries as first page address and pages. -/
structure Must where
  ctx : Nat
  ents : List (Nat × Nat)
  charge : Nat
  deriving DecidableEq, Repr

/-- A segment in a keep bank (R417). -/
structure Seg where
  ctx : Nat
  decl : Nat
  seg : Nat
  va : Nat
  npg : Nat
  body : Bytes
  whole : Bool
  deriving DecidableEq, Repr

/-- A keep bank (R417): header (sequence, sealed), directory, segments, seal records. -/
structure Bank where
  hdr : Option (Nat × Bool)
  dirDone : Bool
  /-- Context, entry index, first address and pages of every entry. -/
  dir : List (Nat × Nat × Nat × Nat)
  /-- Written in production, under the fused module key (R444). -/
  locked : Bool
  segs : List Seg
  seals : List (Nat × Nat × BitVec 32)
  deriving DecidableEq, Repr

/-- The module's power (R413, R439). -/
inductive Power where
  | on
  /-- Freeze: work has stopped; then the bank header is written, then its directory. -/
  | freeze
  | opened
  | save
  | sealed
  | off
  deriving DecidableEq, Repr

/-- A gang slice in force (R365, R366). -/
structure Gang where
  idx : Nat
  ctx : Nat
  start : Nat
  /-- Tasks of the gang team, and those swapped out for it. -/
  team : List Nat
  prior : List Nat
  /-- An abort has ended the slice; the team waits for the next start (R366). -/
  aborted : Bool
  /-- S + gskew has passed, and its team was resident (R366). -/
  met : Bool
  deriving DecidableEq, Repr

/-- A packet of a queue pair that asks for nothing an event of the table stands for (R423): one of an unsupported feature, as a SEND
off the management pair, immediate data or an invalidate; one marked as having met congestion; one that comes out of sequence. -/
inductive PortPacket where
  | unsupported
  | marked
  | outOfSequence
  deriving DecidableEq, Repr

/-- What a debugger asks of a halted brick (R439): a general register read or written, bytes of a local store read or written, its
counters, or which task runs on it. -/
inductive DebugAcc where
  | readReg (n : Nat)
  | writeReg (n : Nat) (v : Word)
  | readLocal (space off len : Nat)
  | writeLocal (space off : Nat) (data : Bytes)
  | counters
  | dispatch
  deriving DecidableEq, Repr

/-- Who moves next: an event of the table, another brick coming into focus, or what has no row of its own there: dome firmware with
a command for an engine, its context and 64 bytes (R111), freeing a frame (R80), giving a context class 2 (R428), or loading a
routine slot (R126); the stream core of an engine with an access or its next instruction (R125); a packet at an Ethernet port
(R423); a debugger (R439); a management command of an op of no row (R425). -/
inductive Item where
  | event (i : Instr)
  | turn (brick : Nat)
  | firmware (e ctx : Nat) (raw : BitVec 512)
  | freeFrame (frame : Nat)
  | startup (ctx : Nat)
  | loadSlot (slot : Nat) (image : Bytes)
  | core (e : Nat) (a : CoreAcc)
  | coreStep (e : Nat)
  | packet (port qp : Nat) (p : PortPacket)
  | debug (brick : Nat) (a : DebugAcc)
  | manage (h : MgmtHeader) (op : Nat) (pl : Bytes)
  deriving DecidableEq, Repr

/-- An atomic of another module on its way to its slice (R292, R296, R433): its number, the link and node it came by, its
request, operation and operands, and how many routers of its path it has passed or entered. -/
structure Visit where
  id : Nat
  req : FabReq
  pa : Nat
  op : AmoOp
  w8 : Bool
  mode : Nat
  opd : Nat
  cmp : Nat
  poisoned : Bool
  routed : Nat
  deriving DecidableEq, Repr

/-- A load or store of another module that is not done yet: its request, the bytes still to store or their number still to load from an
address on, what it has loaded, whether any of it was poisoned, and of poisoned lines what it has written (R87, R292, R321). -/
structure FabJob where
  req : FabReq
  pa : Nat
  todo : Option Bytes
  left : Nat
  got : Bytes
  bad : Bool
  good : Cells (BitVec 64)
  deriving DecidableEq, Repr

/-- The machine. -/
structure State where
  b : Brick
  peers : List (Nat × Brick)
  agenda : List Item
  tick : Nat
  clk : Nat
  ftime : Nat
  mem : List Host.Cell
  pois : List Nat
  dtag : Cells (BitVec 128)
  blk : Cells (BitVec 16)
  /-- Stored lines, with their words, of frames whose key left its slot, and the HBM frame plus one whose tweak a second-tier
  frame's image keeps (R69, R77, R83, R107). -/
  img : Cells (BitVec 576)
  twk : Cells Nat
  /-- Lines that the slices of the memory-side cache hold (R66, R67). -/
  cache : List SliceLine
  /-- Lines buffered on the paths of engines and B streams (R222, R317). -/
  bufs : List BufLine
  /-- Access counters by frame and slice: four slices serve a frame (R66, R108). -/
  acnt : Cells (BitVec 32)
  wq : List WqEnt
  /-- Node that owns a physical frame, plus one; 0 for this module (R292, R434). -/
  remote : Cells Nat
  /-- The next comparison at this point code finds a check-word mismatch of this syndrome (R86); or the next use of array 0x20
  or 0x21 meets an error, corrected with 0x100 added to the id, as 0x130 for a stack's corrections (R85, R142). -/
  upset : Option (Nat × Nat)
  /-- Error logs of the slices, domes, engines and stacks, by array and instance (R143). -/
  logs : Cells (BitVec 128)
  routers : List BufEnt
  dome0 : Dome
  dome1 : Dome
  toks : List Token
  doms : Vector Domain 16
  engs : Vector Engine 34
  ctxTab : Cells (BitVec 256)
  win : Cells (BitVec 256)
  regions : List Region
  groups : List Group
  node : Option Node
  links : Vector Link 36
  out : List (Nat × Bytes)
  /-- Packets a paused Ethernet port has yet to send (R423). -/
  egress : List (Nat × Bytes)
  /-- Chain packets of other modules that have a further step to perform here, with the tower where each stands (R304, R308). -/
  hops : List (Nat × Bytes)
  /-- Combinable atomics of other modules that have not reached their slice (R296). -/
  visits : List Visit
  /-- Loads and stores of other modules not done yet (R292, R321). -/
  jobs : List FabJob
  /-- Operations of parked queue pairs, in message order (R424). -/
  ports : List PortOp
  paused : List Nat
  keys : List KeySlot
  sec : Sec
  inServ : InServ
  /-- Images of the stream-core routine slots that dome firmware has loaded (R126). -/
  slots : List (Nat × Bytes)
  launches : List Launch
  ringQ : List Launch
  tasks : List Task
  exits : List Exit
  images : List Saved
  musts : List Must
  keep : Vector Bank 2
  power : Power
  /-- Gang slices in force, and broadcast starts to come: register and fabric time (R365). -/
  gangNow : List Gang
  gangNext : List (Nat × Nat)
  /-- Slices whose abort has come in: register and start (R366). -/
  gangStops : List (Nat × Nat)
  /-- Fabric time of the last control flits sent (R438). -/
  syncAt : Nat
  /-- Contexts with a throttle notice pending (R405, R378). -/
  notices : List Nat
  /-- Commands of saved tasks' push buffers that the domes deliver (R386). -/
  passed : List Cmd
  nextTid : Nat
  nextLaunch : Nat
  detId : Nat
  cmdSeq : Nat
  deriving DecidableEq, Repr

/-! ## Reset (R132, R157, R382, R397, R426) -/

/-- Every operand latch at zero (R157). -/
def Opd.zero : Opd := ⟨0, 0, 0, 0, 0, 0, 0, 0, 0, 0, 0, 0, 0, 0⟩

/-- Every result latch at zero (R157). -/
def Res.zero : Res := ⟨0, 0, 0, 0, 0, 0, 0, 0, 0, 0, 0, 0, 0, 0, 0⟩

/-- No branch state (R176). -/
def Br.zero : Br := ⟨0, false, none⟩

/-- No bundle at issue. -/
def Issue.idle : Issue :=
  { slot := 0, go := false, litN := 0, litV := 0, litS := false, wr := [], opd0 := Opd.zero, ev := .none, leave := none,
    jump := none, loop := none, tret := none }

/-- The registers at reset: zero (R157 for a dispatch; log 5 for reset). -/
def Regs.reset : Regs :=
  { g := Vector.replicate 64 0, v := Vector.replicate 32 0, m := Vector.replicate 8 0, k := 0,
    h := Vector.replicate 16 0, ix := Vector.replicate 6 0, rrb := 0, opd := Opd.zero, res := Res.zero,
    pipe := [], br := Br.zero, lp := none }

/-- Trap and system registers at reset (R132, R380, R382; log 5). -/
def Sys.reset : Sys :=
  { nflg := 0, tvec := 0, inh := false, trec := Vector.replicate 4 0,
    wcmp := Vector.replicate 8 0, wlast := Vector.replicate 8 0, wakeQ := [], arm := Vector.replicate 4 0,
    tag := Vector.replicate 256 0, thand := 0, einj := 0, elog := [], held := none }

/-- Local stores as R132 clears them. -/
def Locals.clear : Locals := ⟨[], [], []⟩

/-- A brick with no task. -/
def Task.empty : Task :=
  { tid := 0, recVa := 0, ctx := 0, launch := 0, det := none, bound := false, spawned := false, team := 0,
    member := 0, tsize := 1, bar := 0, frame := 0, cnt := ⟨0, 0, 0, 0⟩, cyc := 0, phase := 0, prio := 0,
    nflg := 0, tvec := 0, reports := [], barWait := none, brick := 0, pin := false, want := .none, since := 0, lead := 0, slot := none, gen := 0 }

/-- Brick n as reset leaves it (R132; log 5). -/
def Brick.reset (n : Nat) : Brick :=
  { bid := n, running := false, t := Task.empty, pc := 0, cbi := 0, codeBase := 0, r := Regs.reset,
    y := Sys.reset, loc := Locals.clear, cnt := ⟨0, 0, 0, 0⟩, cyc := 0, phase := 0, reports := [],
    barWait := none, timer := 0, spTimer := 0, acqTimer := 0, stall := none, own := [], contAt := 0, armTimedOut := false,
    dirty := [], lpois := [], ecc := [], snap := [], ic := [], itlb := [], dtlb := [], stlb := [], tlb := [], hold := none, dev := [], landing := [], nextId := 0,
    push := [], score := [], mxq := [], lastt := 0, lasts := 0, spq := [], spFreed := [], cls := none,
    hiCls := none, grant := none, stepN := 8, stepD := 8, halted := false, preq := false, saving := none, skip := false, localQ := [],
    assigned := none, reserved := none, lastCtx := none, clk := 0, iss := Issue.idle }

/-- A dome with the defaults of R426. -/
def Dome.reset : Dome :=
  { shbase := 0, acthr := 256, twarn := 95, tcrit := 105, cwin := 0, tslice := 2100000, gslice := 2100000,
    gskew := 52500, dbud := Vector.replicate 8 6000, gang := Vector.replicate 16 0, tlbReq := none,
    tlbDone := false, walks := [], faultQ := [], faultOwed := [], trapLog := [], trapOv := 0, hintQ := [], hintOv := 0, cwQ := [], cwOv := 0,
    hw := [], stamps := Vector.replicate 4 0, rings := [], grants := [], balAt := 0 }

/-- The security controller after a boot from nothing (R439, R441; logs 5, 7). -/
def Sec.reset : Sec :=
  { locked := true, level := 0, dbgCtx := 0, nonce := none, nonces := 0, transports := 0, recovery := false,
    staged := [], stagedLen := 0, fw := #v[some [], none], active := some 0, boots := 0 }

/-- The module right after reset. The manual gives no number of signed routine slots (R32), and it stands at 0 (log 5). -/
def State.reset : State :=
  { b := Brick.reset 0, peers := [], agenda := [], tick := 0, clk := 0, ftime := 0, mem := [], pois := [],
    dtag := [], blk := [], img := [], twk := [], cache := [], bufs := [], acnt := [], wq := [], remote := [], upset := none, logs := [], routers := [], dome0 := Dome.reset, dome1 := Dome.reset,
    toks := [], doms := Vector.replicate 16 ⟨0, [], 0, 0⟩, engs := Vector.replicate 34 ⟨[], [], [], [], []⟩, ctxTab := [],
    win := [], regions := [], groups := [], node := none,
    links := Vector.replicate 36 ⟨false, 4, false, 0, 0, [], 0, 0⟩, out := [], egress := [], hops := [], visits := [], jobs := [], ports := [], paused := [], keys := [],
    sec := Sec.reset, inServ := ⟨[], 0xFFF, 0xFFFFFF, 0xF, 0xFFFFFFFFF, 0⟩, slots := [], launches := [], ringQ := [],
    tasks := [], exits := [], images := [], musts := [],
    keep := Vector.replicate 2 ⟨none, false, [], false, [], []⟩, power := .on, gangNow := [], gangNext := [], gangStops := [], syncAt := 0,
    notices := [], passed := [],
    nextTid := 1, nextLaunch := 1, detId := 0, cmdSeq := 0 }

end Sys2Proof.Machine
end

