-- ==== Sys2Proof/Machine/Operands.lean ====
section
/-!
DEFINITION. Operand forms: register names and rotation (R186), latches (R150, R152), guards and stage tags (R147,
R148, R184), sources (R149, R150), the writes a bundle makes at the end of its cycle (R153), and operations in
flight (R154, R156, R232 to R234).
-/

namespace Sys2Proof.Machine

open Sys2Proof

/-- Element i of a vector, with a default beyond its end. -/
def vget {α : Type} {n : Nat} (d : α) (v : Vector α n) (i : Nat) : α := v[i]?.getD d

/-- A vector with element i replaced; unchanged beyond its end. -/
def vset {α : Type} {n : Nat} (v : Vector α n) (i : Nat) (x : α) : Vector α n := v.setIfInBounds i x

/-! ## Updating the brick in focus -/

/-- The state with the brick in focus changed. -/
def State.onB (s : State) (f : Brick → Brick) : State := { s with b := f s.b }

/-- The state with the registers of the brick in focus changed. -/
def State.onR (s : State) (f : Regs → Regs) : State := { s with b := { s.b with r := f s.b.r } }

/-- The state with the system registers of the brick in focus changed. -/
def State.onY (s : State) (f : Sys → Sys) : State := { s with b := { s.b with y := f s.b.y } }

/-- The state with the bundle now issuing changed. -/
def State.onIss (s : State) (f : Issue → Issue) : State := { s with b := { s.b with iss := f s.b.iss } }

/-! ## Latches -/

/-- An operand latch (R152). -/
def Opd.get (o : Opd) : OpdL → Word
  | .ia0o => o.ia0o | .ia1o => o.ia1o | .ago => o.ago | .lsa => o.lsa | .lsd => o.lsd | .lsx => o.lsx | .vxo => o.vxo
  | .mxpcw => o.mxpcw | .mxo => o.mxo | .bro => o.bro | .syo => o.syo | .qpa => o.qpa | .spo => o.spo | .pwo => o.pwo

/-- Operand latches with one written (R152). -/
def Opd.set (o : Opd) (l : OpdL) (x : Word) : Opd :=
  match l with
  | .ia0o => { o with ia0o := x } | .ia1o => { o with ia1o := x } | .ago => { o with ago := x }
  | .lsa => { o with lsa := x } | .lsd => { o with lsd := x } | .lsx => { o with lsx := x }
  | .vxo => { o with vxo := x } | .mxpcw => { o with mxpcw := x } | .mxo => { o with mxo := x }
  | .bro => { o with bro := x } | .syo => { o with syo := x } | .qpa => { o with qpa := x }
  | .spo => { o with spo := x } | .pwo => { o with pwo := x }

/-- A result latch (R150). -/
def Res.get (o : Res) : ResL → Word
  | .ia0r => o.ia0r | .ia0h => o.ia0h | .ia1r => o.ia1r | .ia1h => o.ia1h | .agr => o.agr | .agn => o.agn
  | .lsr => o.lsr | .lsh => o.lsh | .vxr => o.vxr | .mxs => o.mxs | .brl => o.brl | .syr => o.syr | .qpf => o.qpf
  | .spn => o.spn | .pwr => o.pwr

/-- Result latches with one written. -/
def Res.set (o : Res) (l : ResL) (x : Word) : Res :=
  match l with
  | .ia0r => { o with ia0r := x } | .ia0h => { o with ia0h := x } | .ia1r => { o with ia1r := x }
  | .ia1h => { o with ia1h := x } | .agr => { o with agr := x } | .agn => { o with agn := x }
  | .lsr => { o with lsr := x } | .lsh => { o with lsh := x } | .vxr => { o with vxr := x }
  | .mxs => { o with mxs := x } | .brl => { o with brl := x } | .syr => { o with syr := x }
  | .qpf => { o with qpf := x } | .spn => { o with spn := x } | .pwr => { o with pwr := x }

/-! ## Register names (R186) -/

/-- The physical register of a g name under a rotation base. -/
def physG (rrb : BitVec 4) (n : Nat) : Nat := if n < 48 then n else 48 + (n - 48 + 16 - rrb.toNat) % 16

/-- The physical register of a v name under a rotation base. -/
def physV (rrb : BitVec 4) (n : Nat) : Nat := if n < 24 then n else 24 + (n - 24 + 16 - rrb.toNat) % 8

/-- A scalar register by its name. -/
def State.readG (s : State) (n : Nat) : Word := vget 0 s.b.r.g (physG s.b.r.rrb n)

/-- A vector register by its name. -/
def State.readV (s : State) (n : Nat) : Vec := vget 0 s.b.r.v (physV s.b.r.rrb n)

/-- A mask register. -/
def State.readM (s : State) (n : Nat) : Word := vget 0 s.b.r.m n

/-- An operand latch of the brick in focus. -/
def State.opd (s : State) (l : OpdL) : Word := s.b.r.opd.get l

/-! ## Guards (R147, R148, R184) -/

/-- Whether stage i of the active loop is live in the present pass (R183). -/
def LoopSt.live (l : LoopSt) (i : Nat) : Bool := decide (i ≤ l.pass) && decide (l.pass - i < l.total)

/-- Whether guard code k(i+1) names the register, and not a stage tag of the loop (R184). -/
def State.guardReg (s : State) (i : Nat) : Bool :=
  match s.b.r.lp with
  | some l => !(decide (i < l.stages) && !bit l.bind.toNat i)
  | none => true

/-- What guard register k(i+1), or the stage tag in its place, reads as (R184). -/
def State.guardBit (s : State) (i : Nat) : Bool :=
  match s.b.r.lp with
  | some l => if i < l.stages ∧ bit l.bind.toNat i = false then l.live i else bit s.b.r.k.toNat i
  | none => bit s.b.r.k.toNat i

/-- Whether a guard code reads the guard register: a stage tag does not (R184). -/
def State.readsGuard (s : State) : Guard → Bool
  | .always => false
  | .on k => s.guardReg k.val
  | .off k => s.guardReg k.val

/-- Whether a slot's move takes effect. -/
def State.guardOn (s : State) : Guard → Bool
  | .always => true
  | .on k => s.guardBit k.val
  | .off k => !s.guardBit k.val

/-! ## Sources (R150) -/

/-- A counter (R190). -/
def Cnt.get (c : Cnt) : Ctr → Nat
  | .ld => c.ld | .st => c.st | .cp => c.cp | .mx => c.mx

/-- Counters with one replaced. -/
def Cnt.set (c : Cnt) (i : Ctr) (n : Nat) : Cnt :=
  match i with
  | .ld => { c with ld := n } | .st => { c with st := n } | .cp => { c with cp := n } | .mx => { c with mx := n }

/-- The value of the run before this slot (R149). -/
def State.litValue (s : State) : Word :=
  let i := s.b.iss
  if i.litS then sext i.litV (20 * i.litN) else zext i.litV 60

/-- Brick status (R150). -/
def State.statWord (s : State) : Word :=
  BitVec.ofNat 64 (s.b.stepN + (if s.b.t.det.isSome then 16 else 0) + (if s.b.t.bound then 32 else 0) +
    64 * s.b.t.prio)

/-- The guards as `kw` reads them (R150). -/
def State.kwWord (s : State) : Word := BitVec.ofNat 64 (1 + 2 * s.b.r.k.toNat)

/-- The value of a source at the start of the cycle (R150, R153). -/
def State.src (s : State) : Src → Word
  | .g n => s.readG n.val
  | .lit => s.litValue
  | .pc => s.b.pc.zeroExtend 64
  | .zero => 0
  | .stat => s.statWord
  | .ix n => vget 0 s.b.r.ix n.val
  | .bid => BitVec.ofNat 64 s.b.bid
  | .cyc => BitVec.ofNat 64 s.b.cyc
  | .k n => if n.val = 0 then 1 else ofBool (bit s.b.r.k.toNat (n.val - 1))
  | .kw => s.kwWord
  | .cnt c => BitVec.ofNat 64 (s.b.cnt.get c)
  | .res l => s.b.r.res.get l
  | .imm v => v.signExtend 64

/-! ## What a bundle writes (R153, R156) -/

/-- A write left to the end of the cycle. -/
def State.defer (s : State) (w : Write) : State := s.onIss (fun i => { i with wr := i.wr ++ [w] })

/-- A guard register written (R152). -/
def setGuard (k : BitVec 6) (i : Nat) (on : Bool) : BitVec 6 :=
  BitVec.ofNat 6 (k.toNat - (if bit k.toNat i then 2 ^ i else 0) + (if on then 2 ^ i else 0))

/-- The bits of a system register that are not reserved, which alone keep what is written (R5, R57, R137, R144,
R374). -/
def sysMask (num : Nat) : Word :=
  if num = 0x000 then 0x7F
  else if num = 0x001 then 0xFFFFFFFFFFF02FFF
  else if num = 0x040 then 0x80FFFFFFFFFFFFFF
  else 0xFFFFFFFFFFF0FFFF

/-- A `wsr` made at the end of its cycle (R380): a write that clears, invalidates or replaces, by register number. -/
def Brick.writeSys (b : Brick) (num : Nat) (x : Word) : Brick :=
  if num = 0x000 then { b with y := { b.y with nflg := x &&& sysMask num } }
  else if num = 0x001 then { b with y := { b.y with tvec := x &&& sysMask num } }
  else if 0x010 ≤ num ∧ num < 0x018 then
    { b with y := { b.y with wcmp := vset b.y.wcmp (num - 0x010) (x &&& sysMask num) } }
  else if num = 0x040 then { b with y := { b.y with einj := x &&& sysMask num } }
  else if num = 0x041 then { b with ic := [] }
  else if x = 0 then { b with y := { b.y with elog := cdrop b.y.elog ((num - 0x100) / 2) } }
  else b

/-- What `stat` reports of the matrix unit (R266). -/
def Brick.mxStat (b : Brick) : Word :=
  BitVec.ofNat 64 (b.mxq.length +
    (match b.mxq with
      | [] => 0
      | op :: _ => (if op.snap.isSome then 8 else 0) + (if bit op.pcw.toNat 20 then 16 else 0)) +
    b.lasts * 2 ^ 16 + b.lastt * 2 ^ 32)

/-- One deferred write made. Names of g and v are physical already. -/
def Brick.write (b : Brick) (w : Write) : Brick :=
  match w with
  | .g n x => { b with r := { b.r with g := vset b.r.g n x } }
  | .k n on => { b with r := { b.r with k := setGuard b.r.k n on } }
  | .kw x => { b with r := { b.r with k := x.extractLsb' 1 6 } }
  | .v n x => { b with r := { b.r with v := vset b.r.v n x } }
  | .cnt c => { b with cnt := b.cnt.set c (b.cnt.get c + 1) }
  | .prio p => { b with t := { b.t with prio := p } }
  | .sys num x => b.writeSys num x
  | .stat => { b with r := { b.r with res := b.r.res.set .mxs b.mxStat } }

/-- A move's write to a destination that is no trigger: an operand latch at once (R153 item 2), anything else at
the end of the cycle. -/
def State.writeDst (s : State) (d : Dst) (x : Word) : State :=
  match d with
  | .g n => s.defer (.g (physG s.b.r.rrb n.val) x)
  | .opd l => s.onR (fun r => { r with opd := r.opd.set l x })
  | .k n => s.defer (.k n.val (decide (x ≠ 0)))
  | .kw => s.defer (.kw x)

/-! ## Operations in flight (R154) -/

/-- An operation of latency L put in flight. -/
def State.launchOp (s : State) (L : Nat) (w : PWrite) : State :=
  s.onR (fun r => { r with pipe := r.pipe ++ [⟨L, w⟩] })

/-- Lanes of a 64-bit selection as a predicate. -/
def laneSel (m : Word) (j : Nat) : Bool := bit m.toNat j

/-- What an operation in flight writes when its last cycle ends (R154, R232, R234). -/
def Brick.land (b : Brick) (w : PWrite) : Brick :=
  match w with
  | .res l x => { b with r := { b.r with res := b.r.res.set l x } }
  | .vec n lanes x =>
    let old := vget 0 b.r.v n
    { b with r := { b.r with v := vset b.r.v n (mergeLanes (laneSel lanes) (lane x) (lane old)) } }
  | .mask n x => { b with r := { b.r with m := vset b.r.m n x } }
  | .guard k on => { b with r := { b.r with k := setGuard b.r.k k on } }
  | .flags f => { b with y := { b.y with nflg := b.y.nflg ||| f.zeroExtend 64 } }
  | .div u r h =>
    match u with
    | .ia0 => { b with r := { b.r with res := (b.r.res.set .ia0r r).set .ia0h h } }
    | .ia1 => { b with r := { b.r with res := (b.r.res.set .ia1r r).set .ia1h h } }

/-- Every operation in flight one domain cycle on. -/
def tickPipe (p : List Pend) : List Pend := p.map (fun e => { e with left := e.left - 1 })

/-- The operations whose last cycle has ended write, earlier-triggered first, so that of two writes to one latch in
one cycle the later-triggered stands (R156). -/
def Brick.landDue (b : Brick) : Brick :=
  let due := b.r.pipe.filter (fun e => e.left == 0)
  let b := { b with r := { b.r with pipe := b.r.pipe.filter (fun e => e.left != 0) } }
  due.foldl (fun b e => b.land e.w) b

/-- Flags recorded in `nflg` (R58). -/
def Brick.raise (b : Brick) (f : Flags) : Brick := b.land (.flags f)

end Sys2Proof.Machine
end

