-- ==== Sys2Proof/Machine/Local.lean ====
section
/-!
DEFINITION. The local stores (R128 to R130): reads and writes with their dirty bits (R134, R392), error protection and
injection (R142 to R144), write packets with wake and arming comparators (R136 to R139, R221), and the tag table (R133,
R135).
-/

namespace Sys2Proof.Machine

open Sys2Proof

/-! ## Spaces (R128) -/

/-- Bytes of a local space; 0 for a reserved code (R128, R200). -/
def spaceSize : Nat → Nat
  | 0 => 0x100000
  | 1 => 0x80000
  | 2 => 0x10000
  | _ => 0

/-- The store of a space code. -/
def Locals.get (l : Locals) : Nat → Cells Byte
  | 0 => l.sp
  | 1 => l.ac
  | _ => l.sb

/-- The stores with one replaced. -/
def Locals.set (l : Locals) (space : Nat) (m : Cells Byte) : Locals :=
  match space with
  | 0 => { l with sp := m }
  | 1 => { l with ac := m }
  | _ => { l with sb := m }

/-- n bytes of a local store. -/
def Locals.read (l : Locals) (space off n : Nat) : List Byte := readBytes (l.get space) off n

/-- A little-endian number read from a local store. -/
def Locals.readNat (l : Locals) (space off n : Nat) : Nat := ofBytes (l.read space off n)

/-- Bytes written in a local store. -/
def Locals.write (l : Locals) (space off : Nat) (bs : List Byte) : Locals :=
  l.set space (writeBytes (l.get space) off bs)

/-- Whether n bytes from an offset lie in a space. -/
def inSpace (space off n : Nat) : Bool := decide (off + n ≤ spaceSize space)

/-- Whether two byte ranges overlap. -/
def overlaps (a n b m : Nat) : Bool := decide (a < b + m) && decide (b < a + n)

/-! ## Error protection (R142 to R144) -/

/-- The array of an offset (R142). -/
def arrayOf (space off : Nat) : Nat :=
  match space with
  | 0 => 1
  | 1 => if off < 0x40000 then 2 else 3
  | _ => 4

/-- Bytes of a protected word (R142). -/
def wordBytes (space : Nat) : Nat := if space = 1 then 4 else 8

/-- The protected words a range touches, by their first offsets. -/
def wordsOf (space off n : Nat) : List Nat :=
  let w := wordBytes space
  (List.range ((off + n - 1) / w + 1 - off / w)).map (fun i => w * (off / w + i))

/-- The space of a local array (R142). -/
def arraySpace : Nat → Option Nat
  | 1 => some 0
  | 2 | 3 => some 1
  | 4 => some 2
  | _ => none

/-- The first offset of an array in its space. -/
def arrayBase (array : Nat) : Nat := if array = 3 then 0x40000 else 0

/-- Code-word width of an array (R142). A bundle or row under parity is wider than any index of `einj` (log 49). -/
def codeWidth (array : Nat) : Nat :=
  if array = 2 ∨ array = 3 then 39 else if array = 6 ∨ array = 7 ∨ array = 12 then 127 else 72

/-- The syndrome of inverted bits: 0x01 for parity (R143); for a code, the example of R144 gives one, and the others are
free (log 13). -/
def syndromeOf (array : Nat) (flipped : List Nat) : BitVec 8 :=
  if array = 6 ∨ array = 7 ∨ array = 12 then 0x01
  else if array = 1 ∧ flipped = [3] then 0x04 else Config.syndrome array flipped

/-- An error log with one more error (R143). -/
def logError (e : BitVec 128) (array addr ctx : Nat) (synd : BitVec 8) (unc : Bool) : BitVec 128 :=
  let x := e.toNat
  let ncor := if unc then bits x 111 96 else min 65535 (bits x 111 96 + 1)
  let nunc := if unc then min 65535 (bits x 95 80 + 1) else bits x 95 80
  let keep := bit x 63 && bit x 62 && !unc
  let x := setBits (setBits x 111 96 ncor) 95 80 nunc
  if keep then BitVec.ofNat 128 x
  else
    BitVec.ofNat 128 (addr % 2 ^ 42 + (if bit x 61 || bit x 63 then 2 ^ 61 else 0) + (if unc then 2 ^ 62 else 0) +
      2 ^ 63 + synd.toNat * 2 ^ 64 + array % 256 * 2 ^ 72 + nunc * 2 ^ 80 + ncor * 2 ^ 96 + ctx % 65536 * 2 ^ 112)

/-- The brick with an error of a word logged (R143). -/
def Brick.logErr (b : Brick) (e : EccErr) (addr ctx : Nat) : Brick :=
  let unc := decide (2 ≤ e.bits.length)
  let x := logError (cget 0 b.y.elog e.array) e.array addr ctx (syndromeOf e.array e.bits) unc
  { b with y := { b.y with elog := cset 0 b.y.elog e.array x } }

/-- One word met by a read: a single inverted bit is corrected, two make the word poisoned, and both are logged
(R142, R143). -/
def Brick.checkWord (b : Brick) (space ctx w : Nat) : Brick :=
  match b.ecc.find? (fun e => e.array == arrayOf space w && e.word == w) with
  | none => b
  | some e =>
    let b := b.logErr e (w - arrayBase e.array) ctx
    let b := { b with ecc := b.ecc.filter (fun x => x != e) }
    if 2 ≤ e.bits.length ∧ !b.lpois.contains (space, w) then { b with lpois := (space, w) :: b.lpois } else b

/-- A read's checks: the brick afterwards, and the first poisoned word met (R142). -/
def Brick.checkRead (b : Brick) (space off n ctx : Nat) : Brick × Option Nat :=
  if b.ecc = [] ∧ b.lpois = [] then (b, none)
  else
    let ws := wordsOf space off n
    let b := ws.foldl (fun b w => b.checkWord space ctx w) b
    (b, ws.find? (fun w => b.lpois.contains (space, w)))

/-- The bits that an injection inverts: an index at or beyond the code width inverts none (R144), nor does one bit named twice
(log 115). -/
def flipsOf (einj : Word) : List Nat :=
  let b0 := fld einj 40 34
  let b1 := fld einj 47 41
  if b0 = b1 then [] else [b0, b1].filter (fun i => decide (i < codeWidth (fld einj 55 48)))

/-- The error that an injection into a local store or the tag table plants (R144). -/
def injection (einj : Word) : Option EccErr :=
  let array := fld einj 55 48
  match arraySpace array with
  | some sp =>
    let w := wordBytes sp
    some ⟨array, arrayBase array + fld einj 33 0 / w * w, flipsOf einj⟩
  | none => if array = 8 then some ⟨8, fld einj 33 0 / 8, flipsOf einj⟩ else none

/-- The injection armed in `einj`, made if this write holds its word (R144). -/
def Brick.inject (b : Brick) (array : Nat) (words : List Nat) : Brick :=
  if bit b.y.einj.toNat 63 then
    match injection b.y.einj with
    | some e =>
      if e.array = array ∧ words.contains e.word then
        let b := { b with y := { b.y with einj := setFld b.y.einj 63 63 0 } }
        if e.bits = [] then b else { b with ecc := e :: b.ecc }
      else b
    | none => b
  else b

/-- Every word of the local stores and of the tag table written at once: an armed injection into one of them is made (R144). -/
def Brick.injectStores (b : Brick) : Brick :=
  match injection b.y.einj with
  | some e =>
    if (if e.array = 8 then decide (e.word < 256) else inSpace ((arraySpace e.array).getD 3) e.word 1) then b.inject e.array [e.word] else b
  | none => b

/-- Codes and poison after a write: a word written whole loses both, and a partial write re-encodes a correctable word
(R142). -/
def Brick.writeCodes (b : Brick) (space off n : Nat) : Brick :=
  let ws := wordsOf space off n
  let whole := fun w => decide (off ≤ w) && decide (w + wordBytes space ≤ off + n)
  let b := if b.lpois = [] then b
    else { b with lpois := b.lpois.filter (fun p => !(p.1 == space && ws.contains p.2 && whole p.2)) }
  let b := if b.ecc = [] then b
    else { b with ecc := b.ecc.filter (fun e =>
      !(e.array == arrayOf space e.word && ws.contains e.word && (whole e.word || e.bits.length < 2))) }
  b.inject (arrayOf space off) ws

/-! ## Arrays that the manual does not lay out (R142 to R144; log 49) -/

/-- Words of an array written, each with whether it is written whole: a whole write ends a word's error, a partial one
re-encodes a correctable word, and an armed injection is made if one of the words holds its offset (R142, R144). -/
def Brick.plant (b : Brick) (array : Nat) (ws : List (Nat × Bool)) : Brick :=
  let b := if b.ecc = [] then b
    else { b with ecc := b.ecc.filter (fun e =>
      !(e.array == array && ws.any (fun w => w.1 == e.word && (w.2 || decide (e.bits.length < 2))))) }
  if bit b.y.einj.toNat 63 && decide (fld b.y.einj 55 48 = array) then
    match ws.find? (fun w => Config.eccHolds array w.1 (fld b.y.einj 33 0)) with
    | some w =>
      { b with
        y := { b.y with einj := setFld b.y.einj 63 63 0 }
        ecc := if flipsOf b.y.einj = [] then b.ecc else ⟨array, w.1, flipsOf b.y.einj⟩ :: b.ecc }
    | none => b
  else b

/-- The address that a word's error is logged with. -/
def errOffset (array word : Nat) : Nat := if array = 8 then 8 * word else Config.eccOffset array word

/-- Words met by a read, as array and word: each error is logged, a single inverted bit is corrected, and the first
uncorrectable word is answered (R142, R143). -/
def Brick.meet (b : Brick) (ws : List (Nat × Nat)) (ctx : Nat) : Brick × Option EccErr :=
  if b.ecc = [] then (b, none)
  else
    let met := b.ecc.filter (fun e => ws.contains (e.array, e.word))
    let b := met.foldl (fun b e => b.logErr e (errOffset e.array e.word) ctx) b
    let b := { b with ecc := b.ecc.filter (fun e => !(met.contains e && decide (e.bits.length < 2))) }
    (b, met.find? (fun e => decide (2 ≤ e.bits.length)))

/-- The errors of a queue whose oldest entry, of `width` words, has been taken out. -/
def Brick.shiftErrs (b : Brick) (array width : Nat) : Brick :=
  let stay := b.ecc.filter (fun e => !(e.array == array && decide (e.word < width)))
  if b.ecc = [] then b
  else { b with
    ecc := stay.map (fun e => if e.array = array ∧ e.word < 2 ^ 32 then { e with word := e.word - width } else e) }

/-- Words of a v register in the register array: those of which both lanes are written whole, those of which one is in
part (R142). -/
def vecWords (n : Nat) (lanes : Word) : List (Nat × Bool) :=
  (List.range 32).filterMap (fun i =>
    let lo := bit lanes.toNat (2 * i)
    let hi := bit lanes.toNat (2 * i + 1)
    if lo || hi then some (64 + 32 * n + i, lo && hi) else none)

/-- The register array's word of a mask register. -/
def maskWord (n : Nat) : Nat := 1088 + n

/-- The register array's word of the guards. -/
def guardWord : Nat := 1096

/-- Words of the register array that a bundle's deferred write writes. -/
def Write.words : Write → List (Nat × Bool)
  | .g n _ => [(n, true)]
  | .k _ _ => [(guardWord, false)]
  | .kw _ => [(guardWord, true)]
  | .v n _ => vecWords n (-1)
  | _ => []

/-- Words of the register array that an operation in flight writes. -/
def PWrite.words : PWrite → List (Nat × Bool)
  | .vec n lanes _ => vecWords n lanes
  | .mask n _ => [(maskWord n, true)]
  | .guard _ _ => [(guardWord, false)]
  | _ => []

/-- Words of the register array that a delivery writes. -/
def Dest.words : Dest → List (Nat × Bool)
  | .none => []
  | .g n => [(n, true)]
  | .gq lo hi => [(lo, true), (hi, true)]
  | .v n lanes => vecWords n lanes

/-- Every word of the register files that a dispatch writes (R157). -/
def regWords : List (Nat × Bool) := (List.range 1097).map (fun i => (i, true))

/-- The words of h0 to h15, which a walk of the shadow context writes (R94; log 49). -/
def shadowWords : List (Nat × Bool) := (List.range 16).map (fun i => (1097 + i, true))

/-- The snapshot array's words of n bytes at a physical address under a context. -/
def snapWords (ctx pa n : Nat) : List (Nat × Bool) :=
  (List.range ((pa + n - 1) / 8 + 1 - pa / 8)).map (fun i =>
    let w := pa / 8 + i
    (ctx * 2 ^ 49 + w, decide (pa ≤ 8 * w) && decide (8 * w + 8 ≤ pa + n)))

/-- The wake and scoreboard array's word of a hull; a wake token's word is its place in the queue. -/
def hullWord (h : Hull) : Nat := 2 ^ 32 + h.seq

/-- Words of the entries of a queue from one length to another, `width` words each. -/
def entryWords (width lo hi : Nat) : List (Nat × Bool) :=
  (List.range (width * hi)).filterMap (fun i => if width * lo ≤ i then some (i, true) else none)

/-! ## Writes -/

/-- The granule of an offset, as R388 numbers granules. -/
def granuleOf (space off : Nat) : Nat :=
  off / 4096 + (match space with | 0 => 4 | 1 => 260 | _ => 388)

/-- A list with an element, once. -/
def addOnce (x : Nat) (l : List Nat) : List Nat := if l.contains x then l else x :: l

/-- The granules and slots a range touches: 4,096 bytes each. -/
def pagesOf (off n : Nat) : List Nat :=
  (List.range ((off + n - 1) / 4096 + 1 - off / 4096)).map (fun i => off / 4096 + i)

/-- The dirty bit of a valid tag entry set by a write into its slot (R134). -/
def markSlot (t : Vector Word 256) (slot : Nat) : Vector Word 256 :=
  let e := vget 0 t slot
  if bit e.toNat 0 then vset t slot (setFld e 1 1 1) else t

/-- The tag table as the brick itself changes it, in dirty and reference bits: an entry that changes is written, so its code is
made anew, and an armed injection into it is made (R134, R135, R142, R144). -/
def Brick.setTags (b : Brick) (t : Vector Word 256) : Brick :=
  let b' := { b with y := { b.y with tag := t } }
  if b.ecc = [] ∧ !bit b.y.einj.toNat 63 then b'
  else
    let ws := (List.range 256).filter (fun i => decide (vget 0 b.y.tag i ≠ vget 0 t i))
    ({ b' with ecc := b.ecc.filter (fun e => !(e.array == 8 && ws.contains e.word && decide (e.bits.length < 2))) } : Brick).inject 8 ws

/-- Bytes written in a local store, with granule dirty bits, tag dirty bits and codes (R130, R134, R142, R392). -/
def Brick.storeLocal (b : Brick) (space off : Nat) (bs : List Byte) : Brick :=
  let ps := pagesOf off bs.length
  let b := { b with
    loc := b.loc.write space off bs
    dirty := ps.foldl (fun d p => addOnce (granuleOf space (4096 * p)) d) b.dirty }
  let b := if space = 0 then b.setTags (ps.foldl markSlot b.y.tag) else b
  b.writeCodes space off bs.length

/-! ## Wake tokens (R136 to R139) -/

/-- Whether comparator word w watches a write of n bytes at an offset (R138). -/
def wakeMatches (w : Word) (space off n : Nat) : Bool :=
  bit w.toNat 63 && decide (fld w 62 61 = space) && decide (space < 3) && decide (fld w 39 20 ≤ fld w 59 40) &&
  decide (off ≤ fld w 59 40) && decide (fld w 39 20 < off + n)

/-- A token (R136). -/
def tokenWord (source off tag cmp : Nat) : Word :=
  BitVec.ofNat 64 (cmp + tag % 256 * 2 ^ 8 + off % 2 ^ 20 * 2 ^ 20 + source % 65536 * 2 ^ 48)

/-- One comparator's match: a token pushed, or counted while the queue is full (R138, R139). -/
def Sys.wake (y : Sys) (off source c : Nat) : Sys :=
  let w := vget 0 y.wcmp c
  let t := tokenWord source off (fld w 15 8) c
  if y.wakeQ.length < 16 then { y with wakeQ := y.wakeQ ++ [t] }
  else if fld w 7 0 = 255 then { y with wcmp := vset y.wcmp c (setFld w 60 60 1), wlast := vset y.wlast c t }
  else { y with wcmp := vset y.wcmp c (setFld w 7 0 (fld w 7 0 + 1)), wlast := vset y.wlast c t }

/-- Every comparator that matches, in increasing number (R138). -/
def Sys.wakeAll (y : Sys) (space off n source : Nat) : Sys :=
  (List.range 8).foldl (fun y c => if wakeMatches (vget 0 y.wcmp c) space off n then y.wake off source c else y) y

/-- The token a refill pushes for comparator c: its most recent unqueued match (R139). -/
def Sys.refill (y : Sys) : Sys :=
  match (List.range 8).find? (fun c => decide (0 < fld (vget 0 y.wcmp c) 7 0)) with
  | none => y
  | some c =>
    let w := vget 0 y.wcmp c
    let l := vget 0 y.wlast c
    { y with
      wakeQ := y.wakeQ ++ [tokenWord (fld l 63 48) (fld l 39 20) (fld w 15 8) c]
      wcmp := vset y.wcmp c (setFld w 7 0 (fld w 7 0 - 1)) }

/-- The oldest token popped, and the queue refilled (R139, R220). -/
def Sys.popWake (y : Sys) : Option (Word × Sys) :=
  match y.wakeQ with
  | [] => none
  | t :: rest => some (t, { y with wakeQ := rest }.refill)

/-- Hit bits of armed comparators whose line a write overlaps (R221). -/
def Sys.armHits (y : Sys) (space off n : Nat) : Sys :=
  { y with arm := y.arm.map (fun a =>
      let x := a.toNat
      if bit x 23 && decide (bits x 21 20 = space) && overlaps (bits x 19 0 / 64 * 64) 64 off n
      then BitVec.ofNat 26 (setBits x 22 22 1) else a) }

/-- A write packet performed in a local store; `own` for the brick's own store path, which no comparator watches
(R138, R203, R221). -/
def Brick.packet (b : Brick) (space off : Nat) (bs : List Byte) (source : Nat) (own : Bool) : Brick :=
  let b := b.storeLocal space off bs
  if own then b
  else
    let n := b.y.wakeQ.length
    let b := { b with y := (b.y.wakeAll space off bs.length source).armHits space off bs.length }
    b.plant 11 (entryWords 1 n b.y.wakeQ.length)

/-! ## Tag table (R133, R135) -/

/-- Whether entry s takes part in lookups with key t. -/
def tagHit (tag : Vector Word 256) (t s : Nat) : Bool :=
  let e := vget 0 tag s
  bit e.toNat 0 && decide (fld e 63 24 = t)

/-- The victim scan of R135: table, slot hinted and new `thand`. -/
def scanVictim (start : Nat) : Nat → Nat → Vector Word 256 → Vector Word 256 × Option Nat
  | 0, _, tag => (tag, none)
  | n + 1, step, tag =>
    let s := (start + step) % 256
    let e := vget 0 tag s
    if bit e.toNat 3 then scanVictim start n (step + 1) tag
    else if !bit e.toNat 0 || !bit e.toNat 2 then (tag, some s)
    else scanVictim start n (step + 1) (vset tag s (setFld e 2 2 0))

/-- A lookup (R135): slot and hint as the latches take them, and the table after it. -/
def Sys.lookup (y : Sys) (t : Nat) : Word × Word × Sys :=
  match (List.range 256).find? (tagHit y.tag t) with
  | some s => (BitVec.ofNat 64 s, -1, { y with tag := vset y.tag s (setFld (vget 0 y.tag s) 2 2 1) })
  | none =>
    match scanVictim y.thand.toNat 512 0 y.tag with
    | (tag, some s) => (-1, BitVec.ofNat 64 s, { y with tag := tag, thand := BitVec.ofNat 8 ((s + 1) % 256) })
    | (tag, none) => (-1, -1, { y with tag := tag })

/-- Tag entries met by a read: corrected and logged, or found uncorrectable (R142, array 0x08). -/
def Brick.checkTags (b : Brick) (entries : List Nat) (ctx : Nat) : Brick × Option EccErr :=
  b.meet (entries.map (fun e => (8, e))) ctx

/-- A tag entry replaced (R133); the write ends an entry's error and makes an armed injection (R142, R144). -/
def Brick.setTag (b : Brick) (s : Nat) (e : Word) : Brick :=
  let b := { b with
    y := { b.y with tag := vset b.y.tag s e }
    ecc := if b.ecc = [] then [] else b.ecc.filter (fun x => !(x.array == 8 && x.word == s)) }
  b.inject 8 [s]

end Sys2Proof.Machine
end

