-- ==== Sys2Proof/Machine/Array.lean ====
section
/-!
DEFINITION. The arithmetic of the bit-serial array: element and block layouts (R42 to R47), scales (R49 to R51), the
group sum (R256, R257), streamed planes (R258), products (R264), region operations (R265), and the drains (R278 to
R288), as functions of the local stores.
-/

namespace Sys2Proof.Machine

open Sys2Proof

/-! ## Layouts (R42, R43) -/

/-- Element i of width w of a little-endian bit string at a byte offset (R42). -/
def elemAt (m : Cells Byte) (off w i : Nat) : Nat :=
  ofBytes (readBytes m (off + i * w / 8) (w / 8 + 2)) / 2 ^ (i * w % 8) % 2 ^ w

/-- Row r of the plane-major block at an offset (R43). -/
def rowAt (m : Cells Byte) (off r : Nat) : Nat := ofBytes (readBytes m (off + 4 * r) 4)

/-- An integer element as the array reads it: exponent −6 (R48, R251). -/
def int8Val (i : Int) : Val := Val.ofInt i (-6)

/-- An element code as the array reads it (R36, R48, R251). -/
def readElem (f : Fmt) (code : Nat) : Val := if f = .int8 then int8Val (sextInt code 8) else f.read code

/-! ## Blocks under a mask and a plane limit (R44 to R47) -/

/-- The sign-copy planes of an INT8 block: how many clear bits run from bit 1 while bit 0 is set (R45). -/
def signRun (mask : Nat) : Nat :=
  if bit mask 0 then ((List.range 7).takeWhile (fun i => !bit mask (i + 1))).length else 0

/-- Bit j of plane i of an INT8 block as read under its mask (R45). -/
def int8Plane (rows : Nat → Nat) (mask i j : Nat) : Bool :=
  if bit mask 0 ∧ 1 ≤ i ∧ i ≤ signRun mask then bit (rows 0) j
  else bit mask i && bit (rows i) j

/-- Element j of an INT8 block as read under its mask and plane limit (R45, R47). -/
def int8Elem (rows : Nat → Nat) (mask p j : Nat) : Int :=
  let x := (List.range 8).foldl (fun x i => 2 * x + (if int8Plane rows mask i j then 1 else 0)) 0
  let x := sextInt x 8
  let u : Int := 2 ^ (8 - p)
  x / u * u

/-- Element j of a floating block as read under its mask and plane limit: sign and exponent from the heads, class from
every stored bit (R41, R44, R47). -/
def floatElem (f : Fmt) (rows : Nat → Nat) (mask p j : Nat) : Val :=
  let s := bit (rows 0) j
  let E := (List.range f.ew).foldl (fun x i => 2 * x + (if bit (rows (1 + i)) j then 1 else 0)) 0
  let F := (List.range f.fw).foldl (fun x i => 2 * x + (if bit (rows (1 + f.ew + i)) j then 1 else 0)) 0
  match f.read (F + E * 2 ^ f.fw + (if s then 2 ^ (f.ew + f.fw) else 0)) with
  | .fin s m e =>
    let W := f.fw + 1
    let keep := fun i => bit mask i && decide (i < p)
    .fin s ((List.range W).foldl (fun x i => 2 * x + (if keep i && bit m (W - 1 - i) then 1 else 0)) 0) e
  | v => v

/-- Element j of a plane-major block (R46, R47). -/
def blockElem (f : Fmt) (rows : Nat → Nat) (mask p j : Nat) : Val :=
  if f = .int8 then int8Val (int8Elem rows mask p j) else floatElem f rows mask p j

/-- The rows of a plane-major block of 32 codes (R43). -/
def blockRow (f : Fmt) (code : Nat → Nat) (r : Nat) : Nat :=
  pack 1 (fun j => code j / 2 ^ (f.width - 1 - r) % 2) 32

/-- Whether plane i of a block of codes holds a one: the hidden plane from the exponent fields (R45). -/
def planeUsed (f : Fmt) (code : Nat → Nat) (i : Nat) : Bool :=
  (List.range 32).any (fun j =>
    if f = .int8 then bit (code j) (7 - i)
    else if i = 0 then decide (bits (code j) (f.ew + f.fw - 1) f.fw ≠ 0)
    else bit (code j) (f.fw - i))

/-- The mask a writer computes for a block of codes (R45). -/
def writeMask (f : Fmt) (code : Nat → Nat) : Nat :=
  if f = .int8 then
    let row := blockRow f code
    let run := if row 0 = 0 then 0
      else ((List.range 7).takeWhile (fun i => row (i + 1) == row 0)).length
    (List.range 8).foldl (fun m i =>
      let set := if i = 0 then decide (row 0 ≠ 0)
        else if row 0 = 0 then decide (row i ≠ 0)
        else if i ≤ run then false
        else if i = run + 1 then true
        else decide (row i ≠ 0)
      m + (if set then 2 ^ i else 0)) 0
  else (List.range (f.fw + 1)).foldl (fun m i => m + (if planeUsed f code i then 2 ^ i else 0)) 0

/-- The bytes of a plane-major block of 32 codes (R43). -/
def blockBytes (f : Fmt) (code : Nat → Nat) : List Byte :=
  (List.range f.width).flatMap (fun r => toBytes 4 (blockRow f code r))

/-! ## Scales (R49 to R51) -/

/-- A scale as read. -/
inductive Scale where
  | finite (m : Nat) (e : Int)
  | zero
  | nan
  | invalid
  deriving DecidableEq, Repr

/-- A scale byte read in a format: 0 E8M0, 1 UE4M3 (R34, R49, R50). -/
def readScale (sf code : Nat) : Scale :=
  if sf = 0 then (if code = 0xFF then .nan else .finite 1 ((code : Int) - 127))
  else if code = 0 then .zero
  else if 0x80 ≤ code then .invalid
  else match Fmt.e4m3.read code with
    | .fin _ m e => .finite m e
    | _ => .nan

/-- A scale's action on an element, apart from its factor (R51, R255). -/
def Scale.act (s : Scale) (x : Val) : Val :=
  match s with
  | .finite _ _ => x
  | .zero => match x with
    | .fin n _ _ => .fin n 0 0
    | _ => .nan
  | _ => .nan

/-- The scale factor σ (R255). -/
def Scale.factor : Scale → Val
  | .finite m e => .fin false m e
  | _ => .fin false 1 0

/-! ## The group sum (R256) -/

/-- Class tests of a pair of elements, for `groupSpecial`. -/
def isInf : Val → Bool
  | .inf _ => true
  | _ => false

/-- What a group returns by its heads alone: NaN, an infinity, or nothing (R256). -/
def groupSpecial (ps : List (Val × Val)) : Option Val × Flags :=
  let nan := ps.any (fun p => p.1.isNan || p.2.isNan)
  let infs := ps.filter (fun p => !p.1.isNan && !p.2.isNan && (isInf p.1 || isInf p.2))
  let zeroInf := infs.any (fun p => p.1.isZero || p.2.isZero)
  let signed := infs.filter (fun p => !p.1.isZero && !p.2.isZero)
  let pinf := signed.any (fun p => p.1.neg == p.2.neg)
  let ninf := signed.any (fun p => p.1.neg != p.2.neg)
  let fl := flagIf (zeroInf || (pinf && ninf)) fInvalid
  if nan || zeroInf || (pinf && ninf) then (some .nan, fl)
  else if pinf then (some (.inf false), 0)
  else if ninf then (some (.inf true), 0)
  else (none, 0)

/-- The terms with both elements nonzero, as (sign, ma, mb, ea + eb) (R256). -/
def groupTerms (ps : List (Val × Val)) : List (Bool × Nat × Nat × Int) :=
  ps.filterMap (fun p => match p.1, p.2 with
    | .fin s m e, .fin t n f => if m = 0 ∨ n = 0 then none else some (s ^^ t, m, n, e + f)
    | _, _ => none)

/-- The window's least significant position for a body width (R256). -/
def windowLsb (body : Nat) (ts : List (Bool × Nat × Nat × Int)) : Int :=
  let head := fun (t : Bool × Nat × Nat × Int) => ((Nat.log2 t.2.1 + Nat.log2 t.2.2.1 + 1 : Nat) : Int) + t.2.2.2
  match ts with
  | [] => 0
  | t :: rest => rest.foldl (fun h t => max h (head t)) (head t) - body + 1

/-- A partial product in units of the window's low bit, its magnitude truncated (R256). -/
def partialUnits (lsb : Int) (t : Bool × Nat × Nat × Int) (j : Nat) : Nat :=
  let sh := t.2.2.2 + j - lsb
  if 0 ≤ sh then t.2.1 * 2 ^ sh.toNat else t.2.1 / 2 ^ (-sh).toNat

/-- `groupsum` (R256): `body` none for INT8, whose sum is exact and whose signs are 0 (R39); `wb` the planes of b. -/
def groupSum (body : Option Nat) (wb : Nat) (ps : List (Val × Val)) : Val × Flags :=
  match groupSpecial ps with
  | (some v, fl) => (v, fl)
  | (none, _) =>
    let ts := groupTerms ps
    if ts = [] then (.fin (body.isSome && ps.all (fun p => p.1.neg != p.2.neg)) 0 0, 0)
    else match body with
      | none =>
        let e := ts.foldl (fun e t => min e t.2.2.2) (ts.head?.elim 0 (fun t => t.2.2.2))
        let S := ts.foldl (fun (S : Int) t => S + unitsOf t.1 (t.2.1 * t.2.2.1) t.2.2.2 e) 0
        (Val.ofInt S e, 0)
      | some body =>
        let lsb := windowLsb body ts
        let S := ts.foldl (fun (S : Int) t =>
          (List.range wb).foldl (fun (S : Int) j =>
            if bit t.2.2.1 j then (if t.1 then S - partialUnits lsb t j else S + partialUnits lsb t j) else S) S) 0
        (Val.ofInt S lsb, 0)

/-- The body bits of a pair of formats (R251). -/
def bodyBits (fa fb : Fmt) : Option Nat :=
  if fa = .int8 ∧ fb = .int8 then none else if fa = .bf16 ∨ fb = .bf16 then some 29 else some 20

/-! ## Product parameters (R249, R252, R261) -/

/-- A product's descriptor and control word, taken apart. -/
structure Prod where
  M : Nat
  K : Nat
  N : Nat
  cb : Nat
  cr : Nat
  cc : Nat
  ao : Nat
  acc : Bool
  fa : Fmt
  fb : Fmt
  sfa : Nat
  sfb : Nat
  nsa : Bool
  nsb : Bool
  mode : Nat
  p : Nat
  zs : Bool
  et : Bool
  ap : Nat
  bp : Nat
  o : Nat
  accA : Bool
  kMajor : Bool
  dev : Bool
  deriving DecidableEq, Repr

/-- The product of a code, descriptor, control word and second operand (R249, R260, R261). -/
def Prod.ofOp (code : MxCode) (desc pcw o : Word) : Prod :=
  let fb := (Fmt.ofCode (fld pcw 7 4)).getD .int8
  let W := (fb.planes).getD 8
  { M := 4 * (fld desc 5 0 + 1), K := 16 * (fld desc 8 6 + 1), N := fld desc 16 9 + 1, ao := fld desc 36 17,
    cr := fld desc 44 37, cc := fld desc 52 45, cb := fld desc 53 53, acc := bit desc.toNat 54,
    fa := (Fmt.ofCode (fld pcw 3 0)).getD .int8, fb := fb, sfa := fld pcw 8 8, sfb := fld pcw 9 9,
    nsa := bit pcw.toNat 10 || code == .mmc || code == .mmcs, nsb := bit pcw.toNat 11, mode := fld pcw 13 12,
    p := if fld pcw 17 14 = 0 then W else fld pcw 17 14, zs := bit pcw.toNat 18, et := bit pcw.toNat 19,
    ap := fld pcw 39 25, bp := fld pcw 54 40, o := o.toNat, accA := code == .mmc || code == .mmcs,
    kMajor := code == .mmT || code == .mmsT, dev := code == .mms || code == .mmsT || code == .mmcs }

/-- Active quarters (R248). -/
def Prod.nq (P : Prod) : Nat := ceilDiv P.K 32

/-- Planes of the B format (R33). -/
def Prod.W (P : Prod) : Nat := P.fb.planes.getD 8

/-- Bytes of a B block (R254). -/
def Prod.blockLen (P : Prod) : Nat := 4 * P.fb.width

/-- Offset of B block (q, n) from the base (R254). -/
def Prod.blockOff (P : Prod) (q n : Nat) : Nat := P.blockLen * (P.nq * n + q)

/-- End of the load phase, in cycles (R259). -/
def Prod.loadEnd (P : Prod) : Nat := 8 + ceilDiv (P.M * P.K * P.fa.width) 4096

/-! ## Operands as read (R252 to R255) -/

/-- A element (m, k) before its scale, with the down-converter's flags (R252). -/
def Prod.aRaw (P : Prod) (l : Locals) (m k : Nat) : Val × Flags :=
  if P.accA then
    let c := ofBytes (readBytes l.ac (P.ao + 1024 * m + 4 * k) 4)
    let (code, fl) := round P.fa P.mode (Fmt.fp32.read c)
    (P.fa.read code, fl)
  else
    (readElem P.fa (elemAt l.sp P.ao P.fa.width (if P.kMajor then k * P.M + m else m * P.K + k)), 0)

/-- The scale of A block (m, q) (R253). -/
def Prod.aScale (P : Prod) (l : Locals) (m q : Nat) : Scale :=
  if P.nsa then .finite 1 0
  else readScale P.sfa (cget 0 l.sb (2 * (P.ap + P.nq * m + q) + 1)).toNat

/-- A element (m, k) as read (R255). -/
def Prod.a (P : Prod) (l : Locals) (m k : Nat) : Val := (P.aScale l m (k / 32)).act (P.aRaw l m k).1

/-- Side-bank pair of B block (q, n): mask and scale bytes (R254). -/
def Prod.bPair (P : Prod) (l : Locals) (q n : Nat) : Nat × Nat :=
  let i := 2 * (P.bp + P.nq * n + q)
  ((cget 0 l.sb i).toNat, (cget 0 l.sb (i + 1)).toNat)

/-- The scale of B block (q, n) (R254). -/
def Prod.bScale (P : Prod) (l : Locals) (q n : Nat) : Scale :=
  if P.nsb then .finite 1 0 else readScale P.sfb (P.bPair l q n).2

/-- Row r of B block (q, n), from the scratchpad or from the bytes delivered (R254, R274). -/
def Prod.bRow (P : Prod) (l : Locals) (buf : Cells Byte) (q n r : Nat) : Nat :=
  if P.dev then rowAt buf (P.blockOff q n) r else rowAt l.sp (P.o % 2 ^ 20 + P.blockOff q n) r

/-- B element (k, n) before its scale (R254, R255). -/
def Prod.bRaw (P : Prod) (l : Locals) (buf : Cells Byte) (k n : Nat) : Val :=
  blockElem P.fb (P.bRow l buf (k / 32) n) (P.bPair l (k / 32) n).1 P.p (k % 32)

/-- B element (k, n) as read (R255). -/
def Prod.b (P : Prod) (l : Locals) (buf : Cells Byte) (k n : Nat) : Val :=
  (P.bScale l (k / 32) n).act (P.bRaw l buf k n)

/-- The sixteen pairs of a group (R248). -/
def Prod.group (P : Prod) (l : Locals) (buf : Cells Byte) (m n g : Nat) : List (Val × Val) :=
  (List.range 16).map (fun i => (P.a l m (16 * g + i), P.b l buf (16 * g + i) n))

/-! ## C (R257, R264) -/

/-- Offset of C element (i, j) of a bank (R129). -/
def accOff (bank i j : Nat) : Nat := 0x40000 * bank + 1024 * i + 4 * j

/-- An accumulator element (R129). -/
def accRead (ac : Cells Byte) (bank i j : Nat) : BitVec 32 :=
  BitVec.ofNat 32 (ofBytes (readBytes ac (accOff bank i j) 4))

/-- An accumulator element written. -/
def accWrite (ac : Cells Byte) (bank i j : Nat) (c : BitVec 32) : Cells Byte :=
  writeBytes ac (accOff bank i j) (toBytes 4 c.toNat)

/-- One group rounded into a C element (R257). -/
def Prod.step (P : Prod) (l : Locals) (buf : Cells Byte) (m n g : Nat) (c : BitVec 32) : BitVec 32 × Flags :=
  let (S, f1) := groupSum (bodyBits P.fa P.fb) P.W (P.group l buf m n g)
  let (x, _) := mulNum S (P.aScale l m (g / 2)).factor
  let (x, _) := mulNum x (P.bScale l (g / 2) n).factor
  let (y, f2) := if !P.acc && g == 0 then (x, 0) else addNum (read32 c) x
  let (c, f3) := round32 P.mode y
  (c, f1 ||| f2 ||| f3)

/-- One C element: its groups in increasing k (R257). -/
def Prod.elem (P : Prod) (l : Locals) (buf : Cells Byte) (m n : Nat) (c : BitVec 32) : BitVec 32 × Flags :=
  (List.range (P.K / 16)).foldl (fun r g =>
    let (c, f) := P.step l buf m n g r.1
    (c, r.2 ||| f)) (c, 0)

/-- The columns before `cols` written into the accumulator, with the flags of every element (R264, R276). -/
def Prod.writeC (P : Prod) (l : Locals) (buf : Cells Byte) (ac : Cells Byte) (cols : Nat) : Cells Byte × Flags :=
  (List.range cols).foldl (fun r n =>
    (List.range P.M).foldl (fun r m =>
      let (c, f) := P.elem l buf m n (accRead r.1 P.cb (P.cr + m) (P.cc + n))
      (accWrite r.1 P.cb (P.cr + m) (P.cc + n) c, r.2 ||| f)) r) (ac, 0)

/-- The down-converter's flags over the whole of A (R252). -/
def Prod.loadFlags (P : Prod) (l : Locals) : Flags :=
  if P.accA then
    (List.range P.M).foldl (fun f m => (List.range P.K).foldl (fun f k => f ||| (P.aRaw l m k).2) f) 0
  else 0

/-- Whether an invalid scale is read by a product that streams `cols` columns (R51, R255). -/
def Prod.badScale (P : Prod) (l : Locals) (cols : Nat) : Bool :=
  (List.range P.nq).any (fun q =>
    (List.range P.M).any (fun m => P.aScale l m q == .invalid) ||
    (List.range cols).any (fun n => P.bScale l q n == .invalid))

/-! ## Streamed planes (R258, R259) -/

/-- Whether plane i of B block (q, n) contributes to a term of a row's group (R258). -/
def Prod.contributes (P : Prod) (l : Locals) (buf : Cells Byte) (m n g i : Nat) : Bool :=
  let ps := P.group l buf m n g
  match groupSpecial ps with
  | (some _, _) => false
  | (none, _) =>
    if P.fb = .int8 then
      let mask := (P.bPair l (g / 2) n).1
      (List.range 16).any (fun t =>
        let p := ps.getD t (.nan, .nan)
        !p.1.isZero && !p.2.isZero && !(decide (1 ≤ i) && decide (i ≤ signRun mask)) &&
        int8Plane (P.bRow l buf (g / 2) n) mask i ((16 * g + t) % 32))
    else
      let ts := groupTerms ps
      let lsb := windowLsb ((bodyBits P.fa P.fb).getD 20) ts
      ts.any (fun t => bit t.2.2.1 (P.W - 1 - i) && decide (partialUnits lsb t (P.W - 1 - i) ≠ 0))

/-- Whether plane i of a block contributes to any term (R258). -/
def Prod.planeLive (P : Prod) (l : Locals) (buf : Cells Byte) (q n i : Nat) : Bool :=
  (List.range P.M).any (fun m =>
    ((List.range (P.K / 16)).filter (fun g => g / 2 == q)).any (fun g => P.contributes l buf m n g i))

/-- The termination point E(q, n) (R258). -/
def Prod.termination (P : Prod) (l : Locals) (buf : Cells Byte) (q n : Nat) : Nat :=
  P.p - ((List.range P.p).takeWhile (fun i => !P.planeLive l buf q n (P.p - 1 - i))).length

/-- The streamed-plane count P(q, n) (R258). -/
def Prod.streamed (P : Prod) (l : Locals) (buf : Cells Byte) (q n : Nat) : Nat :=
  let pend := if P.et then P.termination l buf q n else P.p
  ((List.range pend).filter (fun i => !P.zs || bit (P.bPair l q n).1 i)).length

/-- The planes of a block that are counted, and so fetched and read (R258). -/
def Prod.counted (P : Prod) (l : Locals) (buf : Cells Byte) (q n : Nat) : List Nat :=
  let pend := if P.et then P.termination l buf q n else P.p
  (List.range pend).filter (fun i => !P.zs || bit (P.bPair l q n).1 i)

/-- Rows of a block that hold heads: sign and exponent; INT8 has none (R43). -/
def Prod.headRows (P : Prod) : Nat := if P.fb = .int8 then 0 else P.fb.width - P.W + 1

/-- The rows of a block that a product reads: the heads and the counted planes (R43, R258). -/
def Prod.readRows (P : Prod) (l : Locals) (buf : Cells Byte) (q n : Nat) : List Nat :=
  let hs := List.range P.headRows
  hs ++ ((P.counted l buf q n).map (fun i => P.fb.width - P.W + i)).filter (fun r => !hs.contains r)

/-- Stream cycles of a column: its slowest quarter (R259). -/
def Prod.colCost (P : Prod) (l : Locals) (buf : Cells Byte) (n : Nat) : Nat :=
  (List.range P.nq).foldl (fun c q => max c (ceilDiv (P.streamed l buf q n) 2)) 0

/-! ## Checks (R250, R263, R265, R280) -/

/-- The checks of the control word (R250). -/
def pcwOk (pcw : Word) : Bool :=
  let x := pcw.toNat
  decide (bits x 63 55 = 0) && decide (bits x 24 21 = 0) &&
  match Fmt.ofCode (bits x 3 0), Fmt.ofCode (bits x 7 4) with
  | some fa, some fb =>
    let W := fb.planes.getD 0
    let plim := bits x 17 14
    fa.planes.isSome && fb.planes.isSome && ((fa == .int8) == (fb == .int8)) &&
    (plim == 0 || (decide (plim ≤ W) && (decide (fb ≠ .int8) || decide (2 ≤ plim))))
  | _, _ => false

/-- Formats the down-converter makes (R252). -/
def downTarget (f : Fmt) : Bool := f == .bf16 || f == .e4m3 || f == .e5m2 || f == .e2m3 || f == .e3m2

/-- Whether a product's operands break R262 or R263. -/
def Prod.bad (P : Prod) (desc o : Word) : Bool :=
  decide (fld desc 63 55 ≠ 0) || (!P.dev && decide (fld o 63 20 ≠ 0)) ||
  decide (256 < P.cr + P.M) || decide (256 < P.cc + P.N) ||
  (!P.accA && decide (P.ao % 4 ≠ 0)) || (!P.dev && decide (P.o % 4 ≠ 0)) ||
  (!P.accA && decide (0x100000 < P.ao + ceilDiv (P.M * P.K * P.fa.width) 8)) ||
  (!P.dev && decide (0x100000 < P.o + P.blockLen * P.nq * P.N)) ||
  (P.accA && (decide (P.ao % 4 ≠ 0) || bit P.ao 19 || decide (256 < bits P.ao 17 10 + P.M) ||
    decide (256 < bits P.ao 9 2 + P.K) || !downTarget P.fa)) ||
  decide (32768 < P.bp + P.nq * P.N) ||
  (!P.nsa && !P.accA && decide (32768 < P.ap + P.nq * P.M))

/-- A region operation's bank, origin and extent (R265). -/
def regionOf (desc : Word) : Nat × Nat × Nat × Nat × Nat :=
  (fld desc 32 32, fld desc 7 0, fld desc 15 8, fld desc 23 16 + 1, fld desc 31 24 + 1)

/-- Whether a region descriptor breaks R265. -/
def regionBad (desc : Word) : Bool :=
  let (_, r0, c0, rows, cols) := regionOf desc
  decide (fld desc 63 33 ≠ 0) || decide (256 < r0 + rows) || decide (256 < c0 + cols)

/-! ## Region operations (R265) -/

/-- A function applied to every element of a region, with the union of its flags. -/
def mapRegion (bank r0 c0 rows cols : Nat) (f : Nat → Nat → BitVec 32 → BitVec 32 × Flags) (ac : Cells Byte) :
    Cells Byte × Flags :=
  (List.range rows).foldl (fun r i =>
    (List.range cols).foldl (fun r j =>
      let (c, fl) := f (r0 + i) (c0 + j) (accRead r.1 bank (r0 + i) (c0 + j))
      (accWrite r.1 bank (r0 + i) (c0 + j) c, r.2 ||| fl)) r) (ac, 0)

/-- The effect of `cclr`, `cacc` or `cscl` on the accumulator (R265). -/
def regionEffect (code : MxCode) (desc pcw o : Word) (ac : Cells Byte) : Cells Byte × Flags :=
  let (cb, r0, c0, rows, cols) := regionOf desc
  let mode := fld pcw 13 12
  match code with
  | .cacc => mapRegion cb r0 c0 rows cols (fun i j c =>
      let (x, f) := addNum (read32 c) (read32 (accRead ac (1 - cb) i j))
      let (y, g) := round32 mode x
      (y, f ||| g)) ac
  | .cscl => mapRegion cb r0 c0 rows cols (fun _ _ c =>
      match read32 c with
      | .fin s m e => round32 mode (.fin s m (e + sextInt (fld o 8 0) 9))
      | v => round32 mode v) ac
  | _ => mapRegion cb r0 c0 rows cols (fun _ _ _ => (0, 0)) ac

/-! ## Drains (R278 to R288) -/

/-- A drain's descriptor, taken apart (R279). -/
structure Drain where
  q : Bool
  cb : Nat
  r0 : Nat
  c0 : Nat
  rows : Nat
  cols : Nat
  fd : Fmt
  sf : Nat
  lay : Nat
  dir : Nat
  eo : Nat
  sp : Nat
  mode : Nat
  deriving DecidableEq, Repr

/-- The drain of a code, descriptor and control word (R278, R279). -/
def Drain.ofOp (code : MxCode) (desc pcw : Word) : Drain :=
  { q := code == .drainq, cb := fld desc 28 28, r0 := 4 * fld desc 5 0, c0 := fld desc 19 12,
    rows := 4 * (fld desc 11 6 + 1), cols := fld desc 27 20 + 1, fd := (Fmt.ofCode (fld desc 32 29)).getD .fp32,
    sf := fld desc 33 33, lay := fld desc 34 34, dir := fld desc 35 35, eo := 64 * fld desc 49 36,
    sp := 32 * fld desc 59 50, mode := fld pcw 13 12 }

/-- Block extent X, perpendicular extent Y and blocks per line (R279). -/
def Drain.X (D : Drain) : Nat := if D.dir = 0 then D.cols else D.rows
/-- Perpendicular extent (R279). -/
def Drain.Y (D : Drain) : Nat := if D.dir = 0 then D.rows else D.cols
/-- Blocks per line (R279). -/
def Drain.nb (D : Drain) : Nat := ceilDiv D.X 32
/-- Whether pairs are written (R281). -/
def Drain.pairs (D : Drain) : Bool := D.q || D.lay == 1

/-- Bytes of the element destination (R280). -/
def Drain.destLen (D : Drain) : Nat :=
  if D.lay = 1 then 4 * D.fd.width * D.nb * D.Y else ceilDiv (D.rows * D.cols * D.fd.width) 8

/-- Whether a drain's descriptor breaks R280. -/
def Drain.bad (D : Drain) (desc : Word) : Bool :=
  let fdc := fld desc 32 29
  decide (fld desc 63 60 ≠ 0) || decide (256 < D.r0 + D.rows) || decide (256 < D.c0 + D.cols) ||
  (if D.q then decide (fdc < 3) || decide (8 < fdc)
   else decide (11 < fdc) || decide (D.sf ≠ 0) || (D.lay == 1 && D.fd.planes.isNone) ||
     (D.lay == 0 && decide (D.sp ≠ 0))) ||
  (D.pairs && (decide (D.X % 16 ≠ 0) || decide (32768 < D.sp + D.nb * D.Y))) ||
  decide (0x100000 < D.eo + D.destLen)

/-- Element i of line u of a region: its row and column (R282, R283). -/
def Drain.place (D : Drain) (u i : Nat) : Nat × Nat := if D.dir = 0 then (u, i) else (i, u)

/-- An accumulator element of the region, by line and position. -/
def Drain.elemOf (D : Drain) (ac : Cells Byte) (u i : Nat) : BitVec 32 :=
  let (r, c) := D.place u i
  accRead ac D.cb (D.r0 + r) (D.c0 + c)

/-- Elements a block holds: 32, or 16 for a half block (R283). -/
def Drain.blockSize (D : Drain) (v : Nat) : Nat := min 32 (D.X - 32 * v)

/-- The magnitude of a number. -/
def Val.abs : Val → Val
  | .fin _ m e => .fin false m e
  | .inf _ => .inf false
  | .nan => .nan

/-- The codes of a scale format in increasing value, finite and nonzero (R49, R50). -/
def scaleCodes (sf : Nat) : List Nat := if sf = 0 then List.range 255 else (List.range 0x7E).map (· + 1)

/-- The value of a finite scale code. -/
def scaleVal (sf code : Nat) : Val := (readScale sf code).factor

/-- The largest finite value of a destination format; 127·2^−6 for INT8 (R284). -/
def maxVal (fd : Fmt) : Val := if fd = .int8 then .fin false 127 (-6) else fd.read fd.maxCode

/-- The scale code `drainq` chooses for a block's largest magnitude, and whether it saturates (R284). -/
def chooseScale (fd : Fmt) (sf : Nat) (amax : Val) : Nat × Bool :=
  if amax.isZero then (if sf = 0 then 0x7F else 0x38, false)
  else match (scaleCodes sf).find? (fun s => !ltNum (mulNum (scaleVal sf s) (maxVal fd)).1 amax) with
    | some s => (s, false)
    | none => (if sf = 0 then 0xFE else 0x7E, true)

/-- One element requantised under a scale (R284). -/
def requantElem (fd : Fmt) (mode : Nat) (s : Val) (sat : Bool) (c : Val) : Nat × Flags :=
  let s := if fd = .int8 then (mulNum s (.fin false 1 (-6))).1 else s
  let x := (divNum c s).1
  let edge := if fd = .int8 then Val.fin x.neg (if x.neg then 128 else 127) 0
    else (match maxVal fd with
      | .fin _ m e => .fin x.neg m e
      | v => v)
  if sat && !isInf x && ltNum edge.abs x.abs then
    ((round fd 1 edge).1, fSaturated ||| fInexact)
  else round fd mode x

/-- `requant` (R284): scale code, element codes in order, flags. -/
def requant (fd : Fmt) (sf mode : Nat) (cs : List Val) : Nat × List Nat × Flags :=
  let nanScale := if sf = 0 then 0xFF else 0x7F
  if cs.any Val.isNan then (nanScale, cs.map (fun _ => 0), 0)
  else if cs.any isInf ∧ fd ≠ .e5m2 then (nanScale, cs.map (fun _ => 0), fInvalid)
  else
    let amax := cs.foldl (fun a c => if isInf c then a else if ltNum a c.abs then c.abs else a) (.fin false 0 0)
    let (s, sat) := chooseScale fd sf amax
    let ys := cs.map (requantElem fd mode (scaleVal sf s) sat)
    (s, ys.map Prod.fst, ys.foldl (fun f y => f ||| y.2) 0)

/-- Block v of line u as the drain writes it: scale byte, codes, flags (R281, R284). -/
def Drain.block (D : Drain) (ac : Cells Byte) (u v : Nat) : Nat × List Nat × Flags :=
  let cs := (List.range (D.blockSize v)).map (fun i => read32 (D.elemOf ac u (32 * v + i)))
  if D.q then requant D.fd D.sf D.mode cs
  else
    let ys := cs.map (round D.fd D.mode)
    (0x7F, ys.map Prod.fst, ys.foldl (fun f y => f ||| y.2) 0)

/-- Element-major bits written at an index: the other bits of partly covered bytes stay (R282). -/
def putElem (m : Cells Byte) (off w i code : Nat) : Cells Byte :=
  let a := off + i * w / 8
  let sh := i * w % 8
  let n := ceilDiv (sh + w) 8
  let old := ofBytes (readBytes m a n)
  writeBytes m a (toBytes n (setBits old (sh + w - 1) sh code))

/-- One block written: its elements, and its pair where pairs are written (R281 to R283). -/
def Drain.writeBlock (D : Drain) (ac : Cells Byte) (r : Locals × Flags) (u v : Nat) : Locals × Flags :=
  let (s, ys, f) := D.block ac u v
  let code := fun i => ys.getD i 0
  let b := D.nb * u + v
  let l := r.1
  let sp := if D.lay = 1 then writeBytes l.sp (D.eo + 4 * D.fd.width * b) (blockBytes D.fd code)
    else (List.range ys.length).foldl (fun m i =>
      putElem m D.eo D.fd.width (D.X * u + 32 * v + i) (code i)) l.sp
  let sb := if D.pairs then
      writeBytes l.sb (2 * (D.sp + b)) [BitVec.ofNat 8 (writeMask D.fd code), BitVec.ofNat 8 s]
    else l.sb
  ({ l with sp := sp, sb := sb }, r.2 ||| f)

/-- The effect of a drain on the local stores, with its flags (R281 to R285). -/
def Drain.effect (D : Drain) (l : Locals) : Locals × Flags :=
  (List.range D.Y).foldl (fun r u => (List.range D.nb).foldl (fun r v => D.writeBlock l.ac r u v) r) (l, 0)

/-! ## Cycles (R259, R265, R286) -/

/-- Whether a code is a product. -/
def MxCode.isProduct : MxCode → Bool
  | .mm | .mmT | .mmc | .mms | .mmsT | .mmcs => true
  | _ => false

/-- T of an operation that is no product (R265, R286). -/
def fixedCycles (code : MxCode) (desc : Word) : Nat :=
  let (_, _, _, rows, cols) := regionOf desc
  match code with
  | .cclr => 4 + ceilDiv (rows * cols) 1024
  | .drain => 12 + ceilDiv (4 * (fld desc 11 6 + 1) * (fld desc 27 20 + 1)) 128
  | .drainq => 16 + ceilDiv (4 * (fld desc 11 6 + 1) * (fld desc 27 20 + 1)) 128
  | _ => 6 + ceilDiv (rows * cols) 512

end Sys2Proof.Machine
end

