-- ==== Sys2Proof/Machine/Compress.lean ====
section
/-!
DEFINITION. Compressed blocks: the header (R71), the tokens of a segment's stream (R72), what makes a stream well formed
(R73), and the expansion of a block, a segment or a group (R74).
-/

namespace Sys2Proof.Machine

open Sys2Proof

/-! ## Tokens (R72) -/

/-- A token of a segment's stream. -/
inductive Token4K where
  | literal (x : Byte)
  | copy (len dist : Nat)
  | zeros (len : Nat)
  | run (len : Nat) (x : Byte)
  | raw (data : Nat)
  deriving DecidableEq, Repr

/-- The token at bit p of a bit string, and its length in bits (R72). -/
def tokenFrom (x p : Nat) : Token4K × Nat :=
  let f := fun (at_ w : Nat) => x / 2 ^ (p + at_) % 2 ^ w
  if !bit x p then (.literal (BitVec.ofNat 8 (f 1 8)), 9)
  else if !bit x (p + 1) then (.copy (f 2 5 + 2) (f 7 9 + 1), 16)
  else if !bit x (p + 2) then (.zeros (f 3 5 + 1), 8)
  else if !bit x (p + 3) then (.run (f 4 5 + 1) (BitVec.ofNat 8 (f 9 8)), 17)
  else (.raw (f 4 256), 260)

/-- The bytes of a token, from the groups of its segment already formed and the bytes of its own group so far; none where
it breaks R73. -/
def Token4K.output (t : Token4K) (done cur : List Byte) : Option (List Byte) :=
  let fits := fun (bs : List Byte) => if cur.length + bs.length ≤ 32 then some bs else none
  match t with
  | .literal x => fits [x]
  | .zeros n => fits (List.replicate n 0)
  | .run n x => fits (List.replicate n x)
  | .raw d => if cur = [] then some (toBytes 32 d) else none
  | .copy n dist =>
    let pos := done.length + cur.length
    if dist ≤ pos ∧ pos - dist + n ≤ done.length then fits ((done.drop (pos - dist)).take n) else none

/-! ## Groups, segments and blocks (R71, R73, R74) -/

/-- One group decoded from bit p of a stream that ends before bit `lim`: its 32 bytes and the bit after them. Each token gives
at least one byte, so 32 steps suffice. -/
def groupFrom (x lim : Nat) (done : List Byte) : Nat → Nat → List Byte → Option (List Byte × Nat)
  | 0, p, cur => if cur.length = 32 then some (cur, p) else none
  | fuel + 1, p, cur =>
    if cur.length = 32 then some (cur, p)
    else
      let (t, n) := tokenFrom x p
      if lim < p + n then none
      else match t.output done cur with
        | some bs => groupFrom x lim done fuel (p + n) (cur ++ bs)
        | none => none

/-- The first n groups of a segment's stream. -/
def groupsFrom (x lim : Nat) : Nat → Nat → List Byte → Option (List Byte)
  | 0, _, done => some done
  | n + 1, p, done =>
    match groupFrom x lim done 32 p [] with
    | some (g, p) => groupsFrom x lim n p (done ++ g)
    | none => none

/-- Whether segment i of a header is all zeros (R71). -/
def zeroSegment (h i : Nat) : Bool := bit h (96 + i)

/-- Byte offset of segment i's stream (R71). -/
def segmentOff (h i : Nat) : Nat := h / 2 ^ (12 * i) % 4096

/-- The byte at or before which segment i's stream ends: the next stream's offset, or the end of the stored lines (R73). -/
def segmentEnd (h stored i : Nat) : Nat :=
  match ((List.range 8).filter (fun j => decide (i < j) && !zeroSegment h j)).head? with
  | some j => min stored (segmentOff h j)
  | none => stored

/-- The first n groups of segment i of a stored image; none where a check of R73 fails. -/
def expandSegment (image : List Byte) (i n : Nat) : Option (List Byte) :=
  let x := ofBytes image
  if zeroSegment x i then some (List.replicate (32 * n) 0)
  else if segmentOff x i < 16 then none
  else groupsFrom x (8 * segmentEnd x image.length i) n (8 * segmentOff x i) []

/-- The bit after the first n groups of a segment's stream, and the groups. -/
def groupsEnd (x lim : Nat) : Nat → Nat → List Byte → Option Nat
  | 0, p, _ => some p
  | n + 1, p, done =>
    match groupFrom x lim done 32 p [] with
    | some (g, p) => groupsEnd x lim n p (done ++ g)
    | none => none

/-- Whether the last byte of each token stream of an image is padded with zeros, and the header's reserved bits are zero (R71,
R72). -/
def wellPadded (image : List Byte) : Bool :=
  let x := ofBytes image
  decide (bits x 127 104 = 0) && (List.range 8).all (fun i => zeroSegment x i ||
    match groupsEnd x (8 * segmentEnd x image.length i) 16 (8 * segmentOff x i) [] with
    | some p => decide (x / 2 ^ p % 2 ^ ((8 - p % 8) % 8) = 0)
    | none => false)

/-- A block from its stored image (R71 to R73). -/
def expandBlock (image : List Byte) : Option (List Byte) :=
  ((List.range 8).mapM (fun i => expandSegment image i 16)).map List.flatten

/-- Sector k of a block from its stored image: its segment's groups are decoded from group 0 up to the sector's (R71, R74). -/
def expandSector (image : List Byte) (k : Nat) : Option (List Byte) :=
  (expandSegment image (k / 16) (k % 16 + 1)).map (fun bs => bs.drop (32 * (k % 16)))

end Sys2Proof.Machine
end

