-- ==== Sys2Proof/Machine/Mem.lean ====
section
/-!
DEFINITION. Device memory: the physical map (R63), bytes and poison (R83, R87), keys and block descriptors (R76 to
R80), page-table walks (R88 to R92), fault records (R96, R97), and reads and writes under a context's translation.
-/

namespace Sys2Proof.Machine

open Sys2Proof

/-- The dome of a tower. -/
def State.dome (s : State) (tower : Nat) : Dome := if tower = 0 then s.dome0 else s.dome1

/-- The state with a tower's dome replaced. -/
def State.setDome (s : State) (tower : Nat) (d : Dome) : State :=
  if tower = 0 then { s with dome0 := d } else { s with dome1 := d }

/-- A brick's tower (R9). -/
def towerOf (bid : Nat) : Nat := bid / 384

/-- A brick's quadrant (R9). -/
def quadOf (bid : Nat) : Nat := bid % 192 / 48

/-- A brick's voltage domain (R395). -/
def domainOf (bid : Nat) : Nat := 8 * (bid / 384) + 4 * (bid % 384 / 192) + bid % 192 / 48

/-- A brick's pair partner: the same place in the other layer (R9, R14). -/
def partnerOf (bid : Nat) : Nat := if bid % 384 < 192 then bid + 192 else bid - 192

/-- Brick n: the one in focus, one of the others, or as reset leaves it. -/
def State.brick (s : State) (n : Nat) : Brick :=
  if s.b.bid = n then s.b
  else match s.peers.find? (fun p => p.1 == n) with
    | some p => p.2
    | none => Brick.reset n

/-- The state with brick n replaced. -/
def State.setBrick (s : State) (n : Nat) (b : Brick) : State :=
  if s.b.bid = n then { s with b := b } else { s with peers := cput (cdrop s.peers n) n b }

/-- Another brick in focus; the one that was goes among the others. -/
def State.focus (s : State) (n : Nat) : State :=
  if s.b.bid = n then s else { s with b := s.brick n, peers := cput (cdrop (cdrop s.peers n) s.b.bid) s.b.bid s.b }

/-- Whether a brick is on the module and in service (R32). -/
def State.inService (s : State) (n : Nat) : Bool := decide (n < 768) && !s.inServ.retired.contains n

/-- A valid entry of the context table (R428). -/
def State.ctxEnt (s : State) (ctx : Nat) : Option Nat :=
  let e := (cget 0 s.ctxTab ctx).toNat
  if bit e 0 then some e else none

/-- The class of a context (R380, R428); 0 where it does not exist. -/
def State.ctxClass (s : State) (ctx : Nat) : Nat :=
  match s.ctxEnt ctx with
  | some e => bits e 2 1
  | none => 0

/-! ## Physical memory -/

/-- Whether a physical address names memory (R63). -/
def physOk (pa : Nat) : Bool := decide (pa < 0x03C000000000)

/-- The n bytes at a physical address. -/
def State.readPhys (s : State) (pa n : Nat) : List Byte := readBytes s.mem pa n

/-- The lines a range of bytes touches. -/
def linesOf (pa n : Nat) : List Nat :=
  (List.range ((pa + n - 1) / 64 + 1 - pa / 64)).map (fun i => 64 * (pa / 64 + i))

/-- The lines a range covers wholly (R87). -/
def wholeLines (pa n : Nat) : List Nat :=
  (linesOf pa n).filter (fun l => decide (pa ≤ l) && decide (l + 64 ≤ pa + n))

/-- Bytes written at a physical address; a line written whole loses its poison (R87). -/
def State.writePhys (s : State) (pa : Nat) (bs : List Byte) : State :=
  let whole := wholeLines pa bs.length
  { s with
    mem := writeBytes s.mem pa bs
    img := if s.img = [] then [] else s.img.filter (fun x => !(linesOf pa bs.length).contains x.1)
    pois := if s.pois = [] then [] else s.pois.filter (fun l => !whole.contains l) }

/-- Whether a range touches a poisoned line (R87). -/
def State.poisoned (s : State) (pa n : Nat) : Bool :=
  (linesOf pa n).any (fun l => s.pois.contains l)

/-- A line marked poisoned (R86, R87). -/
def State.poison (s : State) (line : Nat) : State :=
  if s.pois.contains line then s else { s with pois := line :: s.pois }

/-! ## Keys (R76, R79, R80, R443) -/

/-- Whether a key slot is loaded for a context; slot 0 is every context's (R443). -/
def State.keyLoaded (s : State) (ctx key : Nat) : Bool :=
  key == 0 || s.keys.any (fun k => k.slot == key && k.ctx == ctx)

/-- The descriptor of a block stored raw under key 0, which a block never written whole has (R80; log 6). -/
def rawBlock : BitVec 16 := 63

/-- The key id of a frame's block descriptor (R80). -/
def State.frameKey (s : State) (pa : Nat) : Nat := bits (cget rawBlock s.blk (pa / 4096)).toNat 13 7

/-- The base die's checks of an access: the fault kind, if any (R79, R80). `whole` is a write of all 64 lines. One that breaks
both rules takes the key-slot fault (log 111). -/
def State.keyFault (s : State) (ctx key pa : Nat) (whole : Bool) : Option Nat :=
  if !s.keyLoaded ctx key then some 5
  else if !whole && decide (s.frameKey pa ≠ key) then some 6
  else none

/-- The node that owns a physical address, when it is another module (R292; log 29). -/
def State.ownerNode (s : State) (pa : Nat) : Option Nat :=
  match cget 0 s.remote (pa / 4096) with
  | 0 => none
  | n + 1 => some n

/-! ## Page tables (R88 to R92) -/

/-- What a walk finds. -/
inductive Walk where
  /-- A leaf: its entry, and the first virtual address and size of its page. -/
  | leaf (pte : Word) (va size : Nat)
  /-- A fault: kind, replay class, level, and the entry at which the walk stopped. -/
  | fault (kind rc level : Nat) (pte : Word)
  deriving DecidableEq, Repr

/-- Uses of an address that permissions tell apart (R92). -/
inductive Use where
  | read
  | write
  | fetch
  deriving DecidableEq, Repr

/-- The 8-byte entry at a physical address. -/
def State.readEntry (s : State) (pa : Nat) : Word := BitVec.ofNat 64 (ofBytes (s.readPhys pa 8))

/-- Whether a valid entry is malformed at its level (R90). -/
def entryMalformed (e : Nat) (level : Nat) : Bool :=
  let pa := bits e 51 12 * 4096
  let leaf := bit e 2
  decide (bits e 63 60 ≠ 0) || bit e 52 || bit e 1 || decide (bits e 11 10 ≠ 0) || decide (bits e 9 8 = 3) ||
  (decide (level = 3) && leaf) || (decide (level = 0) && !leaf) ||
  (!leaf && (decide (bits e 59 53 ≠ 0) || decide (bits e 7 3 ≠ 0))) ||
  (bit e 6 && decide (level ≠ 0)) ||
  (decide (level = 2) && leaf && decide (bits e 29 12 ≠ 0)) ||
  (decide (level = 1) && leaf && decide (bits e 20 12 ≠ 0)) ||
  !physOk pa

/-- Whether the sixteen entries of a run are well formed (R91): `es` is the group, each agreeing with the first but
for pa, which rises by 4,096 from a 64 KiB base. -/
def runWellFormed (es : List Nat) : Bool :=
  match es with
  | [] => false
  | e0 :: _ =>
    let base := bits e0 51 12 * 4096
    decide (base % 65536 = 0) &&
    (List.range 16).all (fun j =>
      let e := es.getD j 0
      bit e 0 && bit e 6 && decide (bits e 51 12 * 4096 = base + 4096 * j) &&
      decide (bits e 63 52 = bits e0 63 52) && decide (bits e 11 0 = bits e0 11 0))

/-- The index bits and page size of a level (R88). -/
def levelShift : Nat → Nat
  | 3 => 39 | 2 => 30 | 1 => 21 | _ => 12

/-- One context's walk from the table at `table` and level `fuel − 1` (R88 to R91). -/
def State.walkFrom (s : State) (va : Nat) : Nat → Nat → Walk
  | 0, _ => .fault 3 0 0 0
  | level + 1, table =>
    let sh := levelShift level
    let idx := if level = 3 then va / 2 ^ 39 % 8192 else va / 2 ^ sh % 512
    let at_ := table + 8 * idx
    let w := s.readEntry at_
    let e := w.toNat
    let rc := bits e 9 8
    if s.poisoned at_ 8 then .fault 8 0 level w
    else if bit e 0 = false then
      (if rc = 3 then .fault 3 rc level w else if rc = 2 then .fault 7 rc level w else .fault 0 rc level w)
    else if entryMalformed e level then .fault 3 rc level w
    else if bit e 2 then
      if bit e 6 then
        let group := at_ / 128 * 128
        if s.poisoned group 128 then .fault 8 0 level w
        else if runWellFormed ((List.range 16).map (fun j => (s.readEntry (group + 8 * j)).toNat)) then
          .leaf (BitVec.ofNat 64 (e - bits e 15 12 * 4096)) (va / 65536 * 65536) 65536
        else .fault 3 rc level w
      else .leaf w (va / 2 ^ sh * 2 ^ sh) (2 ^ sh)
    else s.walkFrom va level (bits e 51 12 * 4096)

/-- The root table of a context's entry (R88, R428). -/
def rootOf (e : Nat) : Nat := bits e 115 90 * 65536

/-- The walk of a context's tables (R88); an address beyond 52 bits takes the address-range fault (R62). A context
that does not exist has no root, and its walk takes kind 0x7; a root that R63 excludes is not read, and the walk takes kind
0x3 (log 21). -/
def State.walk (s : State) (ctx va : Nat) : Walk :=
  if 2 ^ 52 ≤ va then .fault 4 0 0 0
  else match s.ctxEnt ctx with
    | some e => if physOk (rootOf e) then s.walkFrom va 4 (rootOf e) else .fault 3 0 3 0
    | none => .fault 7 2 3 0

/-- The fault a leaf gives a use of it (R92). -/
def leafFault (pte : Word) (use : Use) : Option Nat :=
  match use with
  | .read => none
  | .write => if bit pte.toNat 3 then none else some 1
  | .fetch => if bit pte.toNat 4 then none else some 2

/-- The physical address of a virtual one under a leaf. -/
def leafPa (pte : Word) (pageVa va : Nat) : Nat := bits pte.toNat 51 12 * 4096 + (va - pageVa)

/-- The level of a leaf, by the size of its page (R88, R97). -/
def leafLevel (size : Nat) : Nat := if size = 2 ^ 30 then 2 else if size = 2 ^ 21 then 1 else 0

/-- The entry at which the walk of an address stopped: of a run, the entry of the address's own page (R91, R97). -/
def leafEntry (pte : Word) (size va : Nat) : Word :=
  if size = 65536 then BitVec.ofNat 64 (pte.toNat + va / 4096 % 16 * 4096) else pte

/-- Whether a physical address lies in the second tier (R63). -/
def secondTier (pa : Nat) : Bool := decide (0x00C000000000 ≤ pa)

/-- The key id of a leaf. -/
def leafKey (pte : Word) : Nat := bits pte.toNat 59 53

/-- What a walk's outcome gives a use of an address, with every check of R92 and of the base die: the physical address,
or a fault as kind, replay class, level and entry (R97). A leaf in the second tier, which only privileged copies reach, is
taken as malformed (R23, R64; log 98). A line of another module meets its key checks there. -/
def State.useWalk (s : State) (w : Walk) (ctx va : Nat) (use : Use) (whole : Bool) :
    Except (Nat × Nat × Nat × Word) Nat :=
  match w with
  | .fault k rc l e => .error (k, rc, l, e)
  | .leaf pte pva size =>
    let pa := leafPa pte pva va
    match (if secondTier pa then some 3 else leafFault pte use) with
    | some k => .error (k, bits pte.toNat 9 8, leafLevel size, leafEntry pte size va)
    | none =>
      match (if (s.ownerNode pa).isSome then none else s.keyFault ctx (leafKey pte) pa whole) with
      | some k => .error (k, 0, 0, 0)
      | none => .ok pa

/-- A translation by a walk. -/
def State.resolve (s : State) (ctx va : Nat) (use : Use) (whole : Bool) : Except (Nat × Nat × Nat × Word) Nat :=
  s.useWalk (s.walk ctx va) ctx va use whole

/-! ## Lookaside buffers (R93) -/

/-- The translation a buffer holds for an address. -/
def tlbFind (tlb : List TlbEnt) (ctx va : Nat) : Option TlbEnt :=
  tlb.find? (fun e => e.ctx == ctx && decide (e.va ≤ va) && decide (va < e.va + e.size))

/-- What an access's translation looks in before it walks (R93): entries of lookaside buffers, and the tower whose walker
serves a miss; none where the shadow context walks (R94). -/
structure Look where
  ents : List TlbEnt
  tower : Option Nat
  deriving DecidableEq, Repr

/-- The buffers that device loads, stores and atomics use (R93). -/
def Brick.dataLook (b : Brick) : Look := ⟨b.dtlb ++ b.tlb, some (towerOf b.bid)⟩

/-- The buffers that instruction fetch uses (R93, R94). -/
def Brick.fetchLook (b : Brick) : Look := ⟨b.itlb ++ b.tlb, none⟩

/-- The buffers that the B stream of a product uses (R93, R94). -/
def Brick.streamLook (b : Brick) (exposed : Bool) : Look := ⟨b.stlb ++ b.tlb, if exposed then none else some (towerOf b.bid)⟩

/-- The walk cache's deepest entry for an address, while it is held still: the table it names, with the levels left to walk
(R93; log 10). -/
def State.cachedNode (s : State) (tower ctx va : Nat) : Option (Nat × Nat) :=
  let at_ := fun (size : Nat) => (s.dome tower).walks.find? (fun e =>
    e.ctx == ctx && e.size == size && decide (e.va ≤ va) && decide (va < e.va + e.size))
  let go := fun (e : TlbEnt) (n : Nat) => if Config.walkKept s.tick then some (n, bits e.leaf.toNat 51 12 * 4096) else none
  match at_ (2 ^ 21), at_ (2 ^ 30), at_ (2 ^ 39) with
  | some e, _, _ => go e 1
  | none, some e, _ => go e 2
  | none, none, some e => go e 3
  | none, none, none => none

/-- A walk by a tower's walker, from its walk cache where that holds a table of the address (R93, R94). -/
def State.walkIn (s : State) (tower ctx va : Nat) : Walk :=
  if 2 ^ 52 ≤ va then .fault 4 0 0 0
  else match s.cachedNode tower ctx va with
    | some (n, table) => s.walkFrom va n table
    | none => s.walk ctx va

/-- The valid non-leaf entries that a walk reads, each with the range it covers (R88, R93). -/
def State.nodesFrom (s : State) (ctx va : Nat) : Nat → Nat → List TlbEnt
  | 0, _ => []
  | level + 1, table =>
    let sh := levelShift level
    let at_ := table + 8 * (if level = 3 then va / 2 ^ 39 % 8192 else va / 2 ^ sh % 512)
    let w := s.readEntry at_
    let e := w.toNat
    if s.poisoned at_ 8 || !bit e 0 || entryMalformed e level || bit e 2 then []
    else ⟨ctx, va / 2 ^ sh * 2 ^ sh, 2 ^ sh, w⟩ :: s.nodesFrom ctx va level (bits e 51 12 * 4096)

/-- The non-leaf entries of an address's walk from its root. -/
def State.nodesOf (s : State) (ctx va : Nat) : List TlbEnt :=
  match s.ctxEnt ctx with
  | some e => if decide (va < 2 ^ 52) && physOk (rootOf e) then s.nodesFrom ctx va 4 (rootOf e) else []
  | none => []

/-- The entry at which an address's walk stops: its level and where it lies (R88, R97). -/
def State.lastEntry (s : State) (ctx va : Nat) : Option (Nat × Nat) :=
  match s.ctxEnt ctx with
  | some e =>
    if decide (va < 2 ^ 52) && physOk (rootOf e) then
      let ns := s.nodesOf ctx va
      let level := 3 - ns.length
      let table := ((ns.getLast?).map (fun n => bits n.leaf.toNat 51 12 * 4096)).getD (rootOf e)
      some (level, table + 8 * (if level = 3 then va / 2 ^ 39 % 8192 else va / 2 ^ levelShift level % 512))
    else none
  | none => none

/-- An entry put in a buffer that holds `cap`; where it is full the oldest leaves (R93; log 10). -/
def tlbPut (cap : Nat) (tlb : List TlbEnt) (e : TlbEnt) : List TlbEnt :=
  if tlb.contains e then tlb
  else (e :: tlb.filter (fun x => !(x.ctx == e.ctx && x.va == e.va && x.size == e.size))).take cap

/-- The walk cache of a tower after a walk (R93). -/
def State.fillWalks (s : State) (tower ctx va : Nat) : State :=
  let d := s.dome tower
  s.setDome tower { d with walks := (s.nodesOf ctx va).foldl (tlbPut 256) d.walks }

/-- What an access finds: a translation a buffer still holds, or a walk (R93; log 10). -/
def State.look (s : State) (l : Look) (ctx va : Nat) : Walk :=
  let w := match l.tower with
    | some t => s.walkIn t ctx va
    | none => s.walk ctx va
  match tlbFind l.ents ctx va with
  | some e =>
    let kept := Walk.leaf e.leaf e.va e.size
    if w = kept then w else if Config.tlbKept s.tick then kept else w
  | none => w

/-- A buffer of `cap` entries with a walk's leaf in it. -/
def tlbFill (cap : Nat) (tlb : List TlbEnt) (ctx : Nat) (w : Walk) : List TlbEnt :=
  match w with
  | .leaf pte va size => tlbPut cap tlb ⟨ctx, va, size, pte⟩
  | .fault _ _ _ _ => tlb

/-- The data and second-level buffers with a translation (R93). -/
def Brick.fillData (b : Brick) (ctx : Nat) (w : Walk) : Brick :=
  { b with dtlb := tlbFill 64 b.dtlb ctx w, tlb := tlbFill 1024 b.tlb ctx w }

/-- The instruction and second-level buffers with a translation (R93). -/
def Brick.fillFetch (b : Brick) (ctx : Nat) (w : Walk) : Brick :=
  { b with itlb := tlbFill 32 b.itlb ctx w, tlb := tlbFill 1024 b.tlb ctx w }

/-- The stream and second-level buffers with a translation (R93). -/
def Brick.fillStream (b : Brick) (ctx : Nat) (w : Walk) : Brick :=
  { b with stlb := tlbFill 32 b.stlb ctx w, tlb := tlbFill 1024 b.tlb ctx w }

/-- A translation through lookaside buffers. -/
def State.xlate (s : State) (l : Look) (ctx va : Nat) (use : Use) (whole : Bool) :
    Except (Nat × Nat × Nat × Word) Nat :=
  s.useWalk (s.look l ctx va) ctx va use whole

/-- A translation by a tower's walker, for an access that no lookaside buffer serves (R94, R304). -/
def State.resolveIn (s : State) (tower ctx va : Nat) (use : Use) (whole : Bool) : Except (Nat × Nat × Nat × Word) Nat :=
  s.useWalk (s.walkIn tower ctx va) ctx va use whole

/-! ## Line tags of deterministic mode (R323, R324) -/

/-- The check of one access against a line's tag: the new tag, or none on a conflict (R324). `d` is the launch, team,
member and phase. -/
def detTag (tag : BitVec 128) (d : Nat × Nat × Nat × Nat) (rd wr : Bool) : Option (BitVec 128) :=
  let (launch, team, member, phase) := d
  let x := tag.toNat
  let stale := decide (bits x 127 96 ≠ launch) ||
    (decide (bits x 95 64 = team) && !bit x 23 && decide (bits x 63 32 < phase))
  let x := if stale then launch % 2 ^ 32 * 2 ^ 96 + team % 2 ^ 32 * 2 ^ 64 + phase % 2 ^ 32 * 2 ^ 32 else x
  let other := decide (bits x 95 64 ≠ team)
  let ow := bit x 20 && (other || decide (bits x 19 10 ≠ member))
  let orr := bit x 21 && (bit x 23 || bit x 22 || other || decide (bits x 9 0 ≠ member))
  if (wr && (ow || orr)) || (rd && ow) then none
  else
    let x := if wr then setBits (setBits x 20 20 1) 19 10 member else x
    let x := if rd then
        (if other then setBits x 23 23 1
         else if bit x 21 && decide (bits x 9 0 ≠ member) then setBits x 22 22 1
         else setBits (setBits x 21 21 1) 9 0 member)
      else x
    some (BitVec.ofNat 128 x)

/-- Every line of a physical range checked and marked: the state with its tags, or the line and tag in conflict. An
access outside deterministic mode neither reads nor changes tags (R324). -/
def State.detCheck (s : State) (pa n : Nat) (d : Option (Nat × Nat × Nat × Nat)) (rd wr : Bool) :
    Except (Nat × BitVec 128) State :=
  match d with
  | none => .ok s
  | some d =>
    (linesOf pa n).foldl (fun r line =>
      match r with
      | .error e => .error e
      | .ok s =>
        match detTag (cget 0 s.dtag line) d rd wr with
        | some t => .ok { s with dtag := cset 0 s.dtag line t }
        | none => .error (line, cget 0 s.dtag line)) (.ok s)

/-! ## Fault records (R96 to R99) -/

/-- A 32-byte fault record (R97). -/
def faultRecord (time pte token source ctx rc level kind path va : Nat) : BitVec 256 :=
  BitVec.ofNat 256 (va % 2 ^ 52 + path * 2 ^ 52 + kind * 2 ^ 56 + level * 2 ^ 60 + rc * 2 ^ 62 + ctx * 2 ^ 64 +
    source * 2 ^ 80 + token * 2 ^ 96 + pte * 2 ^ 128 + time % 2 ^ 64 * 2 ^ 192)

/-- Whether a tower's fault queue has room for a record (R99). -/
def State.faultRoom (s : State) (tower : Nat) : Bool := decide ((s.dome tower).faultQ.length < 1024)

/-- A fault queue with the records that wait moved in while it has room (R99). -/
def Dome.moveOwed (d : Dome) : Dome :=
  let n := 1024 - d.faultQ.length
  { d with faultQ := d.faultQ ++ d.faultOwed.take n, faultOwed := d.faultOwed.drop n }

/-- A record posted to a tower's fault queue, behind those that wait for room (R96, R99). Kinds 0xA, 0xB and 0xC are never
posted (R98). -/
def State.postFault (s : State) (tower : Nat) (r : BitVec 256) : State :=
  let d := s.dome tower
  s.setDome tower ({ d with faultOwed := d.faultOwed ++ [r] } : Dome).moveOwed

/-- The n-th candidate after a free token, leaving out 0xFFFF (R97; log 17). -/
def tokenAt (start n : Nat) : Nat := (start + n) % 65535

/-- A replay token no parked access holds: the first free one from a free value on (R97, R99; log 17). -/
def State.freshToken (s : State) : Nat :=
  let start := (Config.token s.tick).toNat
  match (List.range (s.toks.length + 1)).find? (fun n => !s.toks.any (fun t => t.tok == tokenAt start n)) with
  | some n => tokenAt start n
  | none => tokenAt start 0

/-- An access parked under a fresh token. -/
def State.park (s : State) (who : Parked) (va : Nat) : Nat × State :=
  let tok := s.freshToken
  (tok, { s with toks := s.toks ++ [⟨tok, who, va, false, false⟩], tick := s.tick + 1 })

end Sys2Proof.Machine
end

