-- ==== Sys2Proof/Machine/BaseDie.lean ====
section
/-!
DEFINITION. The memory side: check words and their error records (R81 to R87), stored lines and their encryption (R76 to
R80), compressed blocks (R70, R73 to R75), frames that move between tiers (R68, R69, R107), the memory-side cache (R66, R67)
and the access counters of its slices (R108 to R110).
-/

namespace Sys2Proof.Machine

open Sys2Proof

/-! ## Towers, slices and channels (R20, R64, R66, R68) -/

/-- The tower of a physical address's slice (R63, R64). -/
def paTower (pa : Nat) : Nat :=
  if pa < 0x00C000000000 then pa / 2 ^ 36 / 6 else if pa < 0x024000000000 then 0 else 1

/-- The slice that serves a line: one of its stack's four (R66). -/
def sliceOf (line : Nat) : Nat := line / 2 ^ 36 * 4 + line / 64 % 4

/-- The channel of its tower's second tier on which a frame lies (R68). -/
def channelOf (pa : Nat) : Nat := (pa - (if pa < 0x024000000000 then 0x00C000000000 else 0x024000000000)) / 4096 % 12

/-- Whether the channel of a second-tier frame is in service (R32, R68); which bit is which channel's is the model's choice: bit
12·tower + channel (log 119). -/
def State.channelOn (s : State) (pa : Nat) : Bool := s.inServ.channels.getLsbD (12 * paTower pa + channelOf pa)

/-- The tower whose dome a fault goes to: the walker's, or for key faults that of the base die which the access's translation
named (R96). -/
def State.faultTower (s : State) (l : Look) (ctx va kind tower : Nat) : Nat :=
  if kind = 5 ∨ kind = 6 then
    match s.look l ctx va with
    | .leaf pte pva _ => leafPa pte pva va / 2 ^ 36 / 6
    | .fault _ _ _ _ => tower
  else tower

/-! ## Check words (R81 to R86) -/

/-- A check-word error record (R86). -/
def cwRecord (synd point ctx line : Nat) : BitVec 128 :=
  BitVec.ofNat 128 (line + ctx % 65536 * 2 ^ 64 + point * 2 ^ 88 + synd % 2 ^ 32 * 2 ^ 96)

/-- A record posted to a tower's check-word error queue, or dropped and counted. The queue's depth is not in the manual;
it is as deep as the trap log (log 28). -/
def State.postCw (s : State) (tower : Nat) (r : BitVec 128) : State :=
  let d := s.dome tower
  if d.cwQ.length < 1024 then s.setDome tower { d with cwQ := d.cwQ ++ [r] }
  else s.setDome tower { d with cwOv := min (2 ^ 32 - 1) (d.cwOv + 1) }

/-- The word that travels with bytes: their CRC-32C, as it was made, with the bits that a disturbance at a point inverts
(R81, R82). -/
def carriedWord (bs : List Byte) (x : Nat) : Nat := crc32c bs ^^^ (x % 2 ^ 32)

/-- An error of an array outside the bricks logged (R85, R142, R143; log 13). -/
def State.logArray (s : State) (array inst addr ctx synd : Nat) (unc : Bool) : State :=
  let e := logError (cget 0 s.logs (array * 64 + inst)) array addr ctx (BitVec.ofNat 8 synd) unc
  { s with logs := cset 0 s.logs (array * 64 + inst) e }

/-- An array outside the bricks read: whether an uncorrectable error was met, which is logged as a corrected one is (R142). -/
def State.arrayError (s : State) (array inst addr ctx : Nat) : Bool × State :=
  match s.upset with
  | some (p, x) =>
    if p = array ∨ p = array + 256 then (p == array, ({ s with upset := none } : State).logArray array inst addr ctx x (p == array))
    else (false, s)
  | none => (false, s)

/-- The comparison of the word of some bytes of a line at one of some points: none where carried and computed word agree,
else the point and the state with the record written (R84, R86): at a slice, a base die or the second tier in the tower of the
line, elsewhere in the tower given. What is poisoned is the caller's to say. -/
def State.mismatch (s : State) (points : List Nat) (ctx line tower : Nat) (bs : List Byte) : Option (Nat × State) :=
  match s.upset with
  | some (p, x) =>
    if points.contains p then
      let synd := carriedWord bs x ^^^ crc32c bs
      if synd = 0 then none
      else
        let s := ({ s with upset := none } : State).postCw (if 3 ≤ p ∧ p ≤ 7 then paTower line else tower) (cwRecord synd p ctx line)
        some (p, if p = 4 then s.logArray 0x30 (line / 2 ^ 36) line ctx synd true else s)
    else none
  | none => none

/-- The line poisoned where the unit at a point holds the line itself: a slice, the base die, the second tier (R84, R86). -/
def State.hurt (s : State) (p line : Nat) : State := if 3 ≤ p ∧ p ≤ 7 then s.poison line else s

/-! ## Stored lines and their keys (R70, R76 to R80, R83) -/

/-- The key a slot holds; slot 0 holds the key of the boot (R76, R443). -/
def State.slotKey (s : State) (slot : Nat) : Option (BitVec 256) :=
  if slot = 0 then some (Config.bootKey s.sec.boots) else (s.keys.find? (fun k => k.slot == slot)).map KeySlot.key

/-- The tweak of a stored line: the address of its HBM line divided by 64; an image in the second tier keeps that of the
frame it came from (R77, R107). -/
def State.tweakOf (s : State) (line : Nat) : Nat :=
  match cget 0 s.twk (line / 4096) with
  | 0 => line / 64
  | f + 1 => (f * 4096 + line % 4096) / 64

/-- A block's descriptor (R80). -/
def State.descOf (s : State) (pa : Nat) : Nat := (cget rawBlock s.blk (pa / 4096)).toNat

/-- Stored lines of a descriptor (R80). -/
def storedLines (d : Nat) : Nat := bits d 5 0 + 1

/-- The image that a base die's coder gives a block: of reserved bits and padding zero, well formed, at most 56 lines, and
expanding to the block; none where the block is stored raw (R70 to R73; log 14). -/
def blockImage (bs : List Byte) : Option (List Byte) :=
  let x := Config.coder bs
  if decide (16 ≤ x.length) && decide (x.length ≤ 3584) && wellPadded x && expandBlock x == some bs then some x else none

/-- The stored form of line i of a block before encryption: of the compressed image, or the line itself (R70, R77). -/
def State.plainStored (s : State) (frame i : Nat) : Nat :=
  let bs := s.readPhys (frame * 4096) 4096
  match (if bit (s.descOf (frame * 4096)) 6 then blockImage bs else none) with
  | some x => ofBytes ((x.drop (64 * i)).take 64)
  | none => ofBytes ((bs.drop (64 * i)).take 64)

/-- A line's stored bytes as they were kept when its key left its slot, with its words above them. -/
def State.sealedLine (s : State) (line : Nat) : Option (BitVec 576) := (s.img.find? (fun x => x.1 == line)).map Prod.snd

/-- The words that a base die keeps of a line: of a raw line one, of a line of a compressed block those of its two sectors, which
are groups (R74, R83). -/
def lineWords (cmp : Bool) (bs : List Byte) : Nat :=
  if cmp then crc32c (bs.take 32) + crc32c (bs.drop 32) * 2 ^ 32 else crc32c bs

/-- A stored line: its bytes with its words above them. -/
def packLine (stored words : Nat) : BitVec 576 := BitVec.ofNat 576 (stored % 2 ^ 512 + words * 2 ^ 512)

/-- A stored line: encrypted under its block's key, and the words of its plaintext line (R76 to R78, R83). -/
def State.storedLine (s : State) (line : Nat) : BitVec 576 :=
  match s.sealedLine line with
  | some x => x
  | none =>
    let p := BitVec.ofNat 512 (s.plainStored (line / 4096) (line / 64 % 64))
    let c := match s.slotKey (s.frameKey line) with
      | some k => Config.xts k (s.tweakOf line) p
      | none => p
    packLine c.toNat (lineWords (bit (s.descOf line) 6) (s.readPhys line 64))

/-- The lines of a frame. -/
def frameLines (frame : Nat) : List Nat := (List.range 64).map (fun i => frame * 4096 + 64 * i)

/-- A frame whose key leaves its slot, or whose descriptor changes under it: its lines are kept as they are stored (R76, R80,
R443). -/
def State.sealFrame (s : State) (frame : Nat) : State :=
  { s with img := (frameLines frame).foldl (fun m l => cput (cdrop m l) l (s.storedLine l)) s.img }

/-- A stored line's bytes decrypted under the key its slot holds now (R77, R78). -/
def State.decrypted (s : State) (key : BitVec 256) (line : Nat) : BitVec 512 :=
  (Config.xts key (s.tweakOf line)).symm ((s.storedLine line).extractLsb' 0 512)

/-- The sectors of a line that a range touches (R66). -/
def sectorsOf (line pa n : Nat) : BitVec 2 :=
  BitVec.ofNat 2 ((if pa < line + 32 ∧ line < pa + n then 1 else 0) + (if pa < line + 64 ∧ line + 32 < pa + n then 2 else 0))

/-- Sector h of a kept line of a compressed block, under the key its slot holds now: the point that finds it wrong, 0 where it is
right, and its bytes where there are any. Only the groups up to it are decoded (R74, R77, R78, R84). -/
def State.rereadSector (s : State) (key : BitVec 256) (line h : Nat) : Nat × Option (List Byte) :=
  let image := (List.range (storedLines (s.descOf line))).flatMap
    (fun i => toBytes 64 (s.decrypted key (line / 4096 * 4096 + 64 * i)).toNat)
  match expandSector image (2 * (line / 64 % 64) + h) with
  | some a => (if crc32c a = ((s.storedLine line).extractLsb' (512 + 32 * h) 32).toNat then 0 else 5, some a)
  | none => (6, none)

/-- A kept raw line under the key its slot holds now (R77, R78, R84). -/
def State.rereadLine (s : State) (key : BitVec 256) (line : Nat) : Nat × Option (List Byte) :=
  let bs := toBytes 64 (s.decrypted key line).toNat
  (if crc32c bs = ((s.storedLine line).extractLsb' 512 32).toNat then 0 else 4, some bs)

/-- What a base die gives for bytes at an address of a kept line: bytes found wrong are recorded, with the word kept of them,
and poison the line; they travel on as they are (R84, R86). -/
def State.opened (s : State) (ctx line at_ word : Nat) (r : Nat × Option (List Byte)) : State :=
  let s := match r.2 with
    | some bs => { s with mem := writeBytes s.mem at_ bs }
    | none => s
  if r.1 = 0 then s
  else (s.postCw (paTower line) (cwRecord (word ^^^ crc32c ((r.2).getD [])) r.1 ctx line)).poison line

/-- Sectors of a line read from its stack: where the line was kept under a key its slot no longer holds, its bytes are what the
present key makes of them, and a word that disagrees is recorded and poisons the line (R74, R77, R78, R84, R86). -/
def State.openLine (s : State) (ctx line : Nat) (m : BitVec 2) : State :=
  match s.sealedLine line, s.slotKey (s.frameKey line) with
  | some x, some k =>
    if s.pois.contains line then s
    else if bit (s.descOf line) 6 then
      ((List.range 2).filter (fun h => m.getLsbD h)).foldl (fun s h =>
        s.opened ctx line (line + 32 * h) (x.extractLsb' (512 + 32 * h) 32).toNat (s.rereadSector k line h)) s
    else s.opened ctx line line (x.extractLsb' 512 32).toNat (s.rereadLine k line)
  | _, _ => s

/-- A whole block expanded and kept raw from now on: the conversion of a partial write to a compressed block (R70). -/
def State.makeRaw (s : State) (ctx frame : Nat) : State :=
  let s := if s.img = [] then s else (frameLines frame).foldl (fun s l => s.openLine ctx l 3) s
  { s with
    img := if s.img = [] then [] else s.img.filter (fun x => x.1 / 4096 != frame)
    blk := cset rawBlock s.blk frame (BitVec.ofNat 16 (setBits (s.descOf (frame * 4096)) 6 0 63)) }

/-- The lines of an access as its slice gets them from the stack (R67, R74, R78). A write into a compressed block that a
departed key left behind leaves the block raw. -/
def State.openLines (s : State) (ctx pa n : Nat) (write : Bool) : State :=
  if s.img = [] then s
  else (linesOf pa n).foldl (fun s l =>
    if write && (s.sealedLine l).isSome && bit (s.descOf l) 6 then s.makeRaw ctx (l / 4096) else s.openLine ctx l (sectorsOf l pa n)) s

/-- The base die's comparison as a slice that does not hold a line is given it: of a raw line after decryption, of a compressed
block after expansion (R74, R78, R84). -/
def State.fillCheck (s : State) (ctx line : Nat) : State :=
  if s.upset = none then s
  else match s.mismatch (if bit (s.descOf line) 6 then [5, 6] else [4]) ctx line (paTower line) (s.readPhys line 64) with
    | some (p, s) => s.hurt p line
    | none => s

/-- A block's descriptor after a write of all its lines: the request's key, and compressed where the frame is
compressible and what the coder gives fits in 56 lines (R70, R80; log 14). -/
def State.blockWritten (s : State) (key pa : Nat) (cmp : Bool) : BitVec 16 :=
  match (if cmp then blockImage (s.readPhys (pa / 4096 * 4096) 4096) else none) with
  | some x => BitVec.ofNat 16 (key * 2 ^ 7 + 64 + (ceilDiv x.length 64 - 1))
  | none => BitVec.ofNat 16 (key * 2 ^ 7 + 63)

/-- All 64 lines of a block received in one write by its base die (R70, R80). -/
def State.writeBlock (s : State) (key pa : Nat) (cmp : Bool) : State :=
  { s with
    img := if s.img = [] then [] else s.img.filter (fun x => x.1 / 4096 != pa / 4096)
    blk := cset rawBlock s.blk (pa / 4096) (s.blockWritten key pa cmp) }

/-! ## The memory-side cache (R66, R67, R70) -/

/-- Sets of the slice that holds a line: 3 MiB or 2.5 MiB of 16 ways of 64 bytes (R66). -/
def sliceSets (line : Nat) : Nat := if line / 2 ^ 36 % 6 < 4 ∧ !bit line 7 then 3072 else 2560

/-- The set a line lies in; how a slice picks it is not in the manual (log 99). -/
def sliceSet (line : Nat) : Nat := Config.sliceSet line % sliceSets line

/-- The slice's copy of a line. -/
def State.heldLine (s : State) (line : Nat) : Option SliceLine := s.cache.find? (fun c => c.line == line)

/-- Whether its slice holds a line. -/
def State.holds (s : State) (line : Nat) : Bool := (s.heldLine line).isSome

/-- Whether every line of a block is held dirty (R70). -/
def State.blockDirty (s : State) (frame : Nat) : Bool :=
  (frameLines frame).all (fun l => (s.heldLine l).any (fun c => decide (c.dirty ≠ 0)))

/-- A held line written back: with the other lines of its block where all 64 are dirty, else alone, which leaves its block
raw (R70). -/
def State.writeBack (s : State) (c : SliceLine) : State :=
  if c.dirty = 0 then s
  else if s.blockDirty (c.line / 4096) then
    let s := s.writeBlock (s.frameKey c.line) c.line c.cmp
    { s with cache := s.cache.map (fun x => if x.line / 4096 = c.line / 4096 then { x with dirty := 0 } else x) }
  else if bit (s.descOf c.line) 6 then s.makeRaw 0xFFFF (c.line / 4096)
  else s

/-- A line that leaves its slice (R66, R67). -/
def State.evict (s : State) (line : Nat) : State :=
  match s.heldLine line with
  | some c =>
    let s := s.writeBack c
    { s with cache := s.cache.filter (fun x => x.line != line) }
  | none => s

/-- Room made for a line in its set: of 16 ways, one that a free value names leaves a full set (R66; log 99). -/
def State.makeRoom (s : State) (line : Nat) : State :=
  if s.cache.length < 16 then s
  else
    let mine := s.cache.filter (fun c => sliceOf c.line == sliceOf line && sliceSet c.line == sliceSet line)
    if mine.length < 16 then s
    else match mine[Config.sliceVictim s.tick % 16]? with
      | some v => s.evict v.line
      | none => s

/-- A line brought into its slice (R67). -/
def State.allocate (s : State) (line : Nat) (cmp : Bool) : State :=
  if s.holds line then s
  else
    let s := s.makeRoom line
    { s with cache := s.cache ++ [⟨line, 0, cmp⟩] }

/-- The lines of an access in their slices, marked where it writes (R67). Only HBM lines are cached. -/
def State.touch (s : State) (pa n : Nat) (write cmp : Bool) : State :=
  if secondTier pa then s
  else (linesOf pa n).foldl (fun s l =>
    let s := s.allocate l cmp
    if write then
      { s with cache := s.cache.map (fun c => if c.line = l then { c with dirty := c.dirty ||| sectorsOf l pa n, cmp := cmp } else c) }
    else s) s

/-- The held lines of a frame gone without a trace: a block written whole passes them by (R67, R70). -/
def State.dropFrame (s : State) (frame : Nat) : State :=
  if s.cache = [] then s else { s with cache := s.cache.filter (fun c => c.line / 4096 != frame) }

/-- The held lines of a frame written back, and gone. -/
def State.flushFrame (s : State) (frame : Nat) : State :=
  ((s.cache.filter (fun c => c.line / 4096 == frame)).map SliceLine.line).foldl State.evict s

/-- Dome firmware frees a frame: its block's key is reset, to 0, and what the frame holds stays as it is stored (R80; log 120). -/
def State.freeFrame (s : State) (frame : Nat) : State :=
  if s.frameKey (frame * 4096) = 0 then s
  else
    let s := (s.flushFrame frame).sealFrame frame
    { s with blk := cset rawBlock s.blk frame (BitVec.ofNat 16 (setBits (s.descOf (frame * 4096)) 13 7 0)) }

/-- Every frame stored under a slot kept as it is stored, as the slot's key leaves it; its held lines are written back first
(R443; log 100). -/
def State.sealSlot (s : State) (slot : Nat) : State :=
  ((s.blk.filter (fun e => bits e.2.toNat 13 7 == slot)).map Prod.fst).foldl (fun s f => (s.flushFrame f).sealFrame f) s

/-! ## Frames between the tiers (R69, R107) -/

/-- The bytes that a read of a second-tier address gives: those of the stored image, which the tier's controllers neither
decrypt nor expand (R69). -/
def State.readTier (s : State) (pa n : Nat) : List Byte :=
  (List.range n).map (fun i =>
    let a := pa + i
    if cget 0 s.twk (a / 4096) = 0 then cget 0 s.mem a
    else BitVec.ofNat 8 ((s.storedLine (a / 64 * 64)).toNat / 2 ^ (8 * (a % 64))))

/-- A second-tier frame that holds an image taken as the bytes of that image, for a write of a part of it (log 101). -/
def State.looseTier (s : State) (frame : Nat) : State :=
  if cget 0 s.twk frame = 0 then s
  else
    let bs := s.readTier (frame * 4096) 4096
    { s with
      mem := writeBytes s.mem (frame * 4096) bs
      twk := cset 0 s.twk frame 0
      blk := cset rawBlock s.blk frame rawBlock
      img := s.img.filter (fun x => x.1 / 4096 != frame) }

/-- A stored line re-encrypted from one tweak to another; its words stay (R107). -/
def retweak (key : BitVec 256) (old new : Nat) (x : BitVec 576) : BitVec 576 :=
  packLine (Config.xts key new ((Config.xts key old).symm (x.extractLsb' 0 512))).toNat (x.extractLsb' 512 64).toNat

/-- A line of bytes that are no image, stored as they stand with a word of their own (log 101). -/
def plainLine (bs : List Byte) : BitVec 576 := packLine (ofBytes bs) (crc32c bs)

/-- A frame made ready to take lines of an image under a descriptor and an origin (a frame plus 1): lines that it holds under
others stay as they are stored (log 101). -/
def State.takeImage (s : State) (frame origin : Nat) (d : BitVec 16) : State :=
  if cget 0 s.twk frame = origin ∧ cget rawBlock s.blk frame = d then s
  else
    let s := if secondTier (frame * 4096) && decide (cget 0 s.twk frame = 0) then
        { s with img := (frameLines frame).foldl (fun m l => cput (cdrop m l) l (plainLine (s.readPhys l 64))) s.img }
      else s.sealFrame frame
    { s with twk := cset 0 s.twk frame origin, blk := cset rawBlock s.blk frame d }

/-- A stored line put at a line: its bytes as stored, the poison and the line tag that it carries (R69, R83, R323). -/
def State.putStored (s : State) (src dst : Nat) (x : BitVec 576) : State :=
  { s with
    img := cput (cdrop s.img dst) dst x
    pois := (s.pois.filter (fun l => l != dst)) ++ (if s.pois.contains src then [dst] else [])
    dtag := cset 0 s.dtag dst (cget 0 s.dtag src) }

/-- A line copied to, within or back from the second tier by its physical address: it goes as it is stored, with its block's
descriptor, since a physical address names no leaf (R80; log 124). Back in HBM it is re-encrypted under the tweak of its new place, where
its key is loaded (R69, R107; log 101). -/
def State.moveLine (s : State) (src dst : Nat) : State :=
  let s := s.evict src
  let s := { s with cache := s.cache.filter (fun c => c.line != dst) }
  let o := if secondTier src then cget 0 s.twk (src / 4096) else src / 4096 + 1
  let d := cget rawBlock s.blk (src / 4096)
  let x := if secondTier src && decide (o = 0) then plainLine (s.readPhys src 64) else s.storedLine src
  if secondTier dst then (s.takeImage (dst / 4096) o d).putStored src dst x
  else
    let y := match s.slotKey (bits d.toNat 13 7) with
      | some k => if o = 0 then x else retweak k (((o - 1) * 4096 + src % 4096) / 64) (dst / 64) x
      | none => x
    (s.takeImage (dst / 4096) 0 d).putStored src dst y

/-! ## Bytes under a context -/

/-- The physical address a dome or engine access reaches, where its translation succeeds. -/
def State.paOf (s : State) (ctx va : Nat) (use : Use) : Option Nat :=
  match s.resolve ctx va use false with
  | .ok pa => some pa
  | .error _ => none

/-- Bytes under a context as their slice would give them, one page's worth at a time (for accesses that lie in one 4 KiB page). -/
def State.readVa (s : State) (ctx va n : Nat) : Option (List Byte) :=
  (s.paOf ctx va .read).map (fun pa => (s.openLines ctx pa n false).readPhys pa n)

/-- A number read under a context. -/
def State.readVaNat (s : State) (ctx va n : Nat) : Option Nat := (s.readVa ctx va n).map ofBytes

/-! ## Access counters (R108 to R110) -/

/-- The steps of a stack's under-stack bricks (R20, R110). -/
def stackBricks (stack : Nat) : List Nat :=
  let t := stack / 6
  let x := stack % 6
  let (q, p) := if x < 4 then (x, 40) else (x - 4, 32)
  (List.range 8).map (fun i => 384 * t + 48 * q + p + i)

/-- Whether a stack is throttled (R110). -/
def State.stackHot (s : State) (stack : Nat) : Bool := (stackBricks stack).any (fun n => decide ((s.brick n).stepN < 8))

/-- A hint posted to a tower's queue, or dropped and counted (R109). -/
def State.postHint (s : State) (tower frame ctx own other reason : Nat) : State :=
  let d := s.dome tower
  let r := BitVec.ofNat 128 (frame % 2 ^ 26 * 2 ^ 16 + reason * 2 ^ 64 + ctx % 65536 * 2 ^ 80 + own * 2 ^ 96 + other * 2 ^ 112)
  if d.hintQ.length < 256 then s.setDome tower { d with hintQ := d.hintQ ++ [r] }
  else s.setDome tower { d with hintOv := min (2 ^ 32 - 1) (d.hintOv + 1) }

/-- The counters of a line's 64 KiB frame in the slice that serves the line (R66, R108). -/
def countKey (line : Nat) : Nat := line / 65536 * 4 + line / 64 % 4

/-- One line access counted against its 64 KiB frame in its slice (R108, R110). The hint is posted at the access that crosses the limit;
none is posted where the step falls and the limit, then a quarter, has been passed already (DEDUCED, log 132). -/
def State.countLine (s : State) (tower ctx line : Nat) : State :=
  let frame := line / 65536
  let home := paTower line
  let c := (cget 0 s.acnt (countKey line)).toNat
  let own := if tower = home then min 65535 (bits c 15 0 + 1) else bits c 15 0
  let other := if tower = home then bits c 31 16 else min 65535 (bits c 31 16 + 1)
  let put := fun (s : State) (x : Nat) => { s with acnt := cset 0 s.acnt (countKey line) (BitVec.ofNat 32 x) }
  let th := (s.dome home).acthr
  if tower ≠ home ∧ th ≤ other then put (s.postHint home frame ctx own other 0) 0
  else
    let s := put s (own + other * 65536)
    if tower = home ∧ th ≤ 4 * own ∧ 4 * bits c 15 0 < th ∧ s.stackHot (line / 2 ^ 36) then s.postHint home frame ctx own other 1 else s

/-- The lines of an access counted where its leaf says so (R108). -/
def State.counts (s : State) (l : Look) (tower ctx va pa n : Nat) : State :=
  match s.look l ctx va with
  | .leaf pte _ _ => if bit pte.toNat 7 then (linesOf pa n).foldl (fun s l => s.countLine tower ctx l) s else s
  | .fault _ _ _ _ => s

/-- Whether the leaf of an access marks its frame compressible (R70, R89). -/
def State.compressible (s : State) (l : Look) (ctx va : Nat) : Bool :=
  match s.look l ctx va with
  | .leaf pte _ _ => bit pte.toNat 5
  | .fault _ _ _ _ => false

/-- The slice's array, and the stack's corrections, as an access reads a line (R85, R142): a word that cannot be corrected
poisons the line. -/
def State.sliceErrors (s : State) (ctx pa : Nat) : State :=
  let line := pa / 64 * 64
  let (bad, s) := s.arrayError 0x20 (sliceOf line) line ctx
  let s := if bad then s.poison line else s
  if s.upset.any (fun u => decide (u.1 = 0x130)) then (s.arrayError 0x30 (line / 2 ^ 36) line ctx).2 else s

/-- The lines of a range that their slices do not hold, checked as their base die gives them (R74, R84). -/
def State.fillChecks (s : State) (ctx pa n : Nat) : State :=
  if s.upset = none then s
  else ((linesOf pa n).filter (fun l => !s.holds l)).foldl (fun s l => s.fillCheck ctx l) s

/-- The lines of an access as their slices serve it: counted (R108), read from the stack where they were kept (R74, R78), and
held from then on (R67). -/
def State.sliced (s : State) (l : Look) (tower ctx va pa n : Nat) (write : Bool) : State :=
  ((((s.counts l tower ctx va pa n).sliceErrors ctx pa).fillChecks ctx pa n).openLines ctx pa n write).touch pa n write
    (s.compressible l ctx va)

/-- Bytes that arrive for a store, checked at some points and written; those of a first line whose word disagrees are
discarded, and that line is poisoned (R82, R86). Whether every byte was written comes with the state. -/
def State.writeChecked (s : State) (points : List Nat) (ctx tower pa : Nat) (bs : List Byte) : State × Bool :=
  let line := pa / 64 * 64
  let k := min bs.length (line + 64 - pa)
  match s.mismatch points ctx line tower (bs.take k) with
  | some (_, s) => ((if bs.drop k = [] then s else s.writePhys (pa + k) (bs.drop k)).poison line, false)
  | none => (s.writePhys pa bs, true)

/-- Bytes that a unit reads from their line at some points: a word that disagrees poisons the line where its slice or base die
holds it, and the copy in hand in any case (R84, R86). -/
def State.readChecked (s : State) (points : List Nat) (ctx tower pa n : Nat) : State × Bool :=
  let line := pa / 64 * 64
  match s.mismatch points ctx line tower (s.readPhys pa n) with
  | some (p, s) => (s.hurt p line, true)
  | none => (s, s.poisoned pa n)

/-- The bytes of a line that a range covers, as bits (R87). -/
def lineMask (line pa n : Nat) : BitVec 64 := BitVec.ofNat 64 (2 ^ (min (pa + n) (line + 64) - line) - 2 ^ (max pa line - line))

/-- Good data written to a part of some lines by an access that has written others before: of a poisoned line the bytes written so
far are kept, and all 64 of them clear its poison (R87). -/
def State.cleanse (s : State) (good : Cells (BitVec 64)) (pa n : Nat) : Cells (BitVec 64) × State :=
  if s.pois = [] then ([], s)
  else (linesOf pa n).foldl (fun r l =>
    if !r.2.pois.contains l then r
    else
      let m := cget 0 r.1 l ||| lineMask l pa n
      if m = BitVec.allOnes 64 then (cset 0 r.1 l 0, { r.2 with pois := r.2.pois.filter (fun x => x != l) })
      else (cset 0 r.1 l m, r.2)) (good, s)

/-- What is left of those bytes once a line has been poisoned anew. -/
def spoil (good : Cells (BitVec 64)) (pa n : Nat) : Cells (BitVec 64) := (linesOf pa n).foldl (fun g l => cset 0 g l 0) good

/-! ## Accesses of a dome and of its context engine (R67, R84, R108, R334, R393) -/

/-- What a dome's translation looks in: the tower's walker alone (R94). -/
def domeLook (tower : Nat) : Look := ⟨[], some tower⟩

/-- A read of a tower's dome as the slices see it, and a word that disagrees (R67, R84, R86, R108). -/
def State.domeSee (s : State) (tower ctx va n : Nat) : State :=
  match s.paOf ctx va .read with
  | some pa => ((s.sliced (domeLook tower) tower ctx va pa n false).readChecked [1, 2, 3] ctx tower pa n).1
  | none => s

/-- Bytes of a tower's dome written at the physical address of a virtual one (R67, R70, R84, R86, R108). -/
def State.domeWrite (s : State) (tower ctx va pa : Nat) (bs : List Byte) : State :=
  ((s.sliced (domeLook tower) tower ctx va pa bs.length true).writeChecked [1, 2, 3] ctx tower pa bs).1

/-- Bytes written under a context; nothing is written where the page does not allow it. -/
def State.writeVa (s : State) (tower ctx va : Nat) (bs : List Byte) : State :=
  match s.paOf ctx va .write with
  | some pa => s.domeWrite tower ctx va pa bs
  | none => s

/-! ## Buffered lines of the other access paths (R222, R317, R318) -/

/-- The part of a line that a range of n bytes covers, as offset and length. -/
def linePart (line pa n : Nat) : Nat × Nat :=
  let lo := max pa line
  (lo - line, min (pa + n) (line + 64) - lo)

/-- One line read on a path of an engine or a B stream: what the unit has buffered of it since the last fence, or what its slice
holds, which is buffered in its turn (R317; log 11). -/
def State.bufLine (path unit ctx pa n : Nat) (r : List Byte × State) (line : Nat) : List Byte × State :=
  let s := r.2
  let (off, len) := linePart line pa n
  let mine := fun (b : BufLine) => b.path == path && b.unit == unit && b.ctx == ctx && b.line == line
  match (if s.poisoned line 64 then none else s.bufs.find? mine) with
  | some b =>
    if Config.bufKept s.tick then
      (r.1 ++ ((toBytes 64 b.data.toNat).drop off).take len, { s with tick := s.tick + 1 })
    else
      let d := BitVec.ofNat 512 (ofBytes (s.readPhys line 64))
      (r.1 ++ s.readPhys (line + off) len, { s with tick := s.tick + 1, bufs := s.bufs.map (fun x => if mine x then { x with data := d } else x) })
  | none =>
    let d := BitVec.ofNat 512 (ofBytes (s.readPhys line 64))
    (r.1 ++ s.readPhys (line + off) len, { s with bufs := ⟨path, unit, ctx, line, d⟩ :: s.bufs.filter (fun b => !mine b) })

/-- Bytes read on a path of an engine or a B stream (R317, R318). -/
def State.pathRead (s : State) (path unit ctx pa n : Nat) : List Byte × State :=
  (linesOf pa n).foldl (State.bufLine path unit ctx pa n) ([], s)

/-- The lines that a fence's paths have buffered for a context, discarded (R222). -/
def State.dropBufs (s : State) (ctx paths : Nat) : State :=
  { s with bufs := s.bufs.filter (fun b => !(b.ctx == ctx && bit paths b.path)) }

/-! ## The base die (R70, R75, R79, R80) -/

/-- BASE_DIE_ACCESS (R75): a request of a slice to the block of a frame under a key: the write of a block whose 64 lines are
held dirty, the write of one held line, or the read of one, for a leaf whose compressible bit is `cmp`. A key fault changes
nothing here, and the requester reports it (R70, R79, R80, R96). A word that disagrees poisons the line (R84, R86). -/
def execBaseDieAccess (ctx key pa : Nat) (whole cmp : Bool) (s : State) : Host.Outcome State Fault Refusal :=
  .next (
    if secondTier pa then s
    else match s.keyFault ctx key pa whole with
    | some _ => s
    | none =>
      let line := pa / 64 * 64
      match s.mismatch (if bit (s.descOf line) 6 then [5, 6] else [4]) ctx line (paTower pa) (s.readPhys line 64) with
      | some (p, s) => s.hurt p line
      | none =>
        if whole then
          match s.heldLine line with
          | some c => if s.blockDirty (pa / 4096) then s.writeBack { c with cmp := cmp } else s
          | none => s
        else if s.holds line then s.evict line
        else (s.openLine ctx line 3).allocate line cmp)

end Sys2Proof.Machine
end

