-- ==== Sys2Proof/Machine/Records.lean ====
section
/-!
DEFINITION. Task records (R330 to R336), registrations (R333), barrier blocks (R345, R346), ready-queue entries (R355,
R356, R362, R363), launch counts (R342) and the trap log (R376).
-/

namespace Sys2Proof.Machine

open Sys2Proof

/-! ## Task records (R330, R331) -/

/-- State of a record. -/
def recState (r : Nat) : Nat := bits r 19 16
/-- Dependence counter of a record. -/
def recDep (r : Nat) : Nat := bits r 127 112
/-- Suspension reason of a record. -/
def recReason (r : Nat) : Nat := bits r 13 8
/-- Priority of a record. -/
def recPrio (r : Nat) : Nat := bits r 15 14
/-- Barrier block of a record. -/
def recBar (r : Nat) : Nat := bits r 209 164 * 64
/-- Frame pointer of a record. -/
def recFrame (r : Nat) : Nat := bits r 255 210 * 64
/-- Team of a record. -/
def recTeam (r : Nat) : Nat := bits r 95 64
/-- Member number of a record. -/
def recMember (r : Nat) : Nat := bits r 111 102
/-- Code-table entry of a record. -/
def recCbi (r : Nat) : Nat := bits r 31 20
/-- Entry or continuation of a record. -/
def recPc (r : Nat) : Nat := bits r 63 32

/-- Whether a record is malformed (R335). -/
def recMalformed (r : Nat) : Bool :=
  decide (8 < recState r) || decide (bits r 101 96 ≠ 0) || decide (bits r 1 0 ≠ 0)

/-- A record's state, reason and wake replaced. -/
def recSet (r state reason wake : Nat) : Nat := setBits (setBits (setBits r 19 16 state) 13 8 reason) 163 128 wake

/-- Codes of the suspension reasons (R332). -/
def Reason.code : Reason → Nat
  | .none => 0 | .dependence => 1 | .countedWait => 2 | .park => 3 | .replayFull => 4 | .counterFull => 5
  | .scoreFull => 6 | .pushFull => 7 | .wakeWait => 8 | .fence => 9 | .barrier => 10 | .matrixWait => 11
  | .detCheck => 12

/-- A record as the dome finds it, with its physical address. The dome needs no permission of the page (log 22). -/
def State.recAt (s : State) (ctx va : Nat) : Option (Nat × Nat) :=
  (s.paOf ctx va .read).map (fun pa => (pa, ofBytes (s.readPhys pa 64)))

/-- A record that stands in a state that an event of R335 is listed for; an event in another state leaves it unchanged. -/
def State.recIn (s : State) (ctx va : Nat) (states : List Nat) : Option (Nat × Nat) :=
  match s.recAt ctx va with
  | some p => if states.contains (recState p.2) then some p else none
  | none => none

/-- A record written by a tower's dome at the physical address where it found it (R334). -/
def State.writeRec (s : State) (tower ctx va pa r : Nat) : State := s.domeWrite tower ctx va pa (toBytes 64 r)

/-! ## Bricks and registrations -/

/-- Whether a brick runs a task. -/
def Brick.runs (b : Brick) (tid : Nat) : Bool := b.running && b.t.tid == tid

/-- Every brick that has left its reset state. -/
def State.allBricks (s : State) : List Brick := s.b :: s.peers.map Prod.snd

/-- Every brick changed by one function. -/
def State.mapBricks (s : State) (f : Brick → Brick) : State :=
  { s with b := f s.b, peers := s.peers.map (fun p => (p.1, f p.2)) }

/-- The brick that runs a task. -/
def State.brickRunning (s : State) (tid : Nat) : Option Brick := s.allBricks.find? (fun b => b.runs tid)

/-- The registration of a task. -/
def State.reg (s : State) (tid : Nat) : Option Task := s.tasks.find? (fun t => t.tid == tid)

/-- A registration changed. -/
def State.onReg (s : State) (tid : Nat) (f : Task → Task) : State :=
  { s with tasks := s.tasks.map (fun t => if t.tid = tid then f t else t) }

/-- The saved image of a task changed. -/
def State.onImage (s : State) (tid : Nat) (f : Brick → Brick) : State :=
  { s with images := s.images.map (fun x => if x.task.tid = tid then { x with image := f x.image } else x) }

/-- The brick running a task, or its saved image, changed. -/
def State.onTask (s : State) (tid : Nat) (f : Brick → Brick) : State :=
  (s.mapBricks (fun b => if b.runs tid then f b else b)).onImage tid f

/-- Counters with one lowered by a completion (R190). -/
def Cnt.dec (c : Cnt) (i : Ctr) : Cnt := c.set i (c.get i - 1)

/-- A list with an optional element at its end. -/
def snocOpt {α : Type} (l : List α) : Option α → List α
  | none => l
  | some x => l ++ [x]

/-- A completion recorded at the brick that runs the task: its counter falls, its flags reach `nflg`, its report
becomes pending (R58, R190, R193). -/
def Brick.complete (b : Brick) (c : Ctr) (fl : Flags) (rep : Option TrapRec) : Brick :=
  { b with
    cnt := b.cnt.dec c
    y := { b.y with nflg := b.y.nflg ||| fl.zeroExtend 64 }
    reports := snocOpt b.reports (rep.map (fun t => ⟨c, t⟩)) }

/-- A completion recorded in a registration. -/
def Task.complete (t : Task) (c : Ctr) (fl : Flags) (rep : Option TrapRec) : Task :=
  { t with
    cnt := t.cnt.dec c
    nflg := t.nflg ||| fl.zeroExtend 64
    reports := snocOpt t.reports (rep.map (fun r => ⟨c, r⟩)) }

/-- A completion recorded against its task, wherever the task is; nothing is left to record once the task has ended
(R58, R194, R333). -/
def State.complete (s : State) (tid : Nat) (c : Ctr) (fl : Flags) (rep : Option TrapRec) : State :=
  (s.mapBricks (fun b => if b.runs tid then b.complete c fl rep else b)).onReg tid (fun t => t.complete c fl rep)

/-! ## Ready queues (R355, R356, R362, R363) -/

/-- A 16-byte queue entry (R355). -/
def QEnt.word (e : QEnt) : BitVec 128 :=
  BitVec.ofNat 128 (e.recVa / 64 % 2 ^ 46 + e.prio * 2 ^ 46 + e.quad * 2 ^ 58 + e.kind * 2 ^ 62 + e.cnt * 2 ^ 64 +
    e.seq % 2 ^ 32 * 2 ^ 80 + e.ctx % 2 ^ 16 * 2 ^ 112)

/-- A context's queue word (R362, R428): quota and ring area. -/
def State.queueWord (s : State) (ctx : Nat) : Nat × Nat :=
  match s.ctxEnt ctx with
  | some e => (bits e 255 236, bits e 235 200 * 65536)
  | none => (0, 0)

/-- Entries a context holds in its rings (R362). -/
def State.ringTotal (s : State) (ctx : Nat) : Nat :=
  let count := fun (d : Dome) => (d.rings.map (fun r => if r.ctx = ctx then r.ents.length else 0)).sum
  count s.dome0 + count s.dome1

/-- Whether a new entry of a priority goes to a ring (R362). -/
def Dome.spills (d : Dome) (prio : Nat) : Bool :=
  decide (4096 ≤ d.hw.length) || d.rings.any (fun r => r.prio == prio && !r.ents.isEmpty)

/-- Address of entry i of a ring (R362). -/
def ringVa (base quota tower prio i : Nat) : Nat := base + 16 * quota * (4 * tower + prio) + 16 * (i % quota)

/-- The stamp taken for a new entry of a priority (R356). -/
def Dome.stamp (d : Dome) (prio : Nat) : Nat × Dome :=
  let n := vget 0 d.stamps prio
  (n, { d with stamps := vset d.stamps prio ((n + 1) % 2 ^ 32) })

/-- A ring access that faults: it parks on kind 0x0, and waits for room while the fault queue is full (R99, R122, R362). -/
def State.ringFault (s : State) (tower prio ctx va : Nat) (f : Nat × Nat × Nat × Word) : State :=
  let (kind, rc, level, pte) := f
  let w := s.faultTower (domeLook tower) ctx va kind tower
  let post := fun (s : State) (tok : Nat) =>
    s.postFault w (faultRecord s.clk pte.toNat tok (0x460 + tower) ctx rc level kind 0xA va)
  if !s.faultRoom w then
    (let (tok, s) := s.park (.ring tower prio) va
     { s with toks := s.toks.map (fun t => if t.tok = tok then { t with released := true } else t) })
  else if kind = 0 then
    let (tok, s) := s.park (.ring tower prio) va
    post s tok
  else post s 0xFFFF

/-- An entry written in its context's ring (R362). -/
def State.spillWrite (s : State) (tower : Nat) (e : QEnt) (va : Nat) : State :=
  match s.resolve e.ctx va .write false with
  | .ok pa => s.domeWrite tower e.ctx va pa (toBytes 16 e.word.toNat)
  | .error f => s.ringFault tower e.prio e.ctx va f

/-- An entry put in its context's ring, in the dome's list and in memory (R362). -/
def State.spill (s : State) (tower : Nat) (e : QEnt) : State :=
  let d := s.dome tower
  let (quota, base) := s.queueWord e.ctx
  let mine := fun (r : Ring) => r.ctx == e.ctx && r.prio == e.prio
  let r := (d.rings.find? mine).getD ⟨e.ctx, e.prio, 0, []⟩
  let s := s.spillWrite tower e (ringVa base quota tower e.prio (r.head + r.ents.length))
  let r := { r with ents := r.ents ++ [e] }
  let d := s.dome tower
  s.setDome tower { d with rings := r :: d.rings.filter (fun x => !mine x) }

/-! ## Launches (R338, R342) -/

/-- Level i of a launch record: kind and trips (R338). -/
def Launch.level (l : Launch) (i : Nat) : Nat × Nat :=
  let w := bits l.raw.toNat (703 + 64 * i) (640 + 64 * i)
  (bits w 33 32, bits w 31 0)

/-- Loop levels with their kinds and trips. -/
def Launch.levels (l : Launch) : List (Nat × Nat) := (List.range 6).map l.level

/-- The team level: the lowest brick level (R338). -/
def Launch.teamLevel (l : Launch) : Nat := l.levels.findIdx (fun x => x.1 == 2)

/-- Team size (R338). -/
def Launch.tsize (l : Launch) : Nat := (l.level l.teamLevel).2

/-- A task's end counted by its launch: 0 exit, 1 fault, 2 kill (R342). -/
def Launch.ended (l : Launch) (how : Nat) : Launch :=
  { l with
    live := l.live - 1
    ntask := min (2 ^ 32 - 1) (l.ntask + 1)
    nfault := if how = 1 then min 255 (l.nfault + 1) else l.nfault
    nkill := if how = 2 then min 255 (l.nkill + 1) else l.nkill }

/-- A launch changed. -/
def State.onLaunch (s : State) (id : Nat) (f : Launch → Launch) : State :=
  { s with launches := s.launches.map (fun l => if l.id = id then f l else l) }

/-- A task's class requests leave the grant queues (R401, R403). -/
def State.dropGrants (s : State) (tid : Nat) : State :=
  let f := fun (d : Dome) => { d with grants := d.grants.filter (fun g => g.tid != tid) }
  { s with dome0 := f s.dome0, dome1 := f s.dome1 }

/-- A task's registration dropped with its image and the tokens that named its bundle, and its end counted (R99, R333,
R342). -/
def State.dropTask (s : State) (tid launch how : Nat) : State :=
  (({ s with
    tasks := s.tasks.filter (fun t => t.tid != tid)
    images := s.images.filter (fun x => x.task.tid != tid)
    toks := s.toks.filter (fun t => match t.who with
      | .hold _ k => k != tid
      | .det k _ _ => k != tid
      | _ => true) } : State).dropGrants tid).onLaunch launch (fun l => l.ended how)

/-- A quota breach: the record faulted, its launch told, the record of R363 posted. -/
def State.breach (s : State) (tower : Nat) (e : QEnt) : State :=
  let s := match s.recAt e.ctx e.recVa with
    | some (pa, r) => s.writeRec tower e.ctx e.recVa pa (recSet r 8 0 0)
    | none => s
  let tid := ((s.tasks.find? (fun t => t.recVa == e.recVa && t.ctx == e.ctx)).map Task.tid).getD 0
  (s.dropTask tid e.launch 1).postFault tower
    (faultRecord s.clk 0 0xFFFF (0x460 + tower) e.ctx 0 0 0xE 0xE e.recVa)

/-- An entry of a ring taken out of turn: its place in memory stays until the ring's head has passed it, under the reserved kind 3
(R355, R362). -/
def Ring.strike (r : Ring) (drop : QEnt → Bool) : Ring :=
  let es := r.ents.map (fun e => if drop e then { e with kind := 3 } else e)
  let n := (es.takeWhile (fun e => e.kind == 3)).length
  { r with head := r.head + n, ents := es.drop n }

/-- Entries taken out of a tower's queues, hardware and rings. -/
def Dome.strike (d : Dome) (drop : QEnt → Bool) : Dome :=
  { d with hw := d.hw.filter (fun e => !drop e), rings := d.rings.map (fun r => r.strike drop) }

/-- A new entry placed in a tower's queues: in hardware, in a ring, or, over quota, not made (R356, R362, R363). A saved team's
entry is never refused. A stamp is taken when an entry is made. -/
def State.enqueue (s : State) (tower : Nat) (e : QEnt) : State :=
  let (n, d) := (s.dome tower).stamp e.prio
  let x := { e with seq := n, made := s.tick }
  let breaches := decide ((s.queueWord e.ctx).1 < s.ringTotal e.ctx + 1)
  if d.spills e.prio && breaches && decide (e.kind ≠ 2) then s.breach tower e
  else
    let s := { s with tick := s.tick + 1 }
    if d.spills e.prio && !breaches then (s.setDome tower d).spill tower x
    else s.setDome tower { d with hw := d.hw ++ [x] }

/-- A task's record made ready and its entry placed at its priority (R335, R336, R356). -/
def State.makeReady (s : State) (t : Task) (tower quad : Nat) : State :=
  match s.recAt t.ctx t.recVa with
  | some (pa, r) =>
    let s := s.writeRec tower t.ctx t.recVa pa (recSet r 2 0 0)
    s.enqueue tower
      { ctx := t.ctx, seq := 0, cnt := 0, kind := 0, quad := quad, prio := recPrio r, recVa := t.recVa,
        launch := t.launch, spawned := t.spawned, made := 0 }
  | none => s

/-- The registration of a record's task. One that the dome has none of, as a waiting record that no spawn performed registered,
gets one of no launch (R333, R336; log 121). -/
def State.registerRec (s : State) (ctx va r brick : Nat) : Task × State :=
  match s.tasks.find? (fun t => t.recVa == va && t.ctx == ctx) with
  | some t => (t, s)
  | none =>
    let t : Task := { Task.empty with
      tid := s.nextTid, recVa := va, ctx := ctx, launch := 2 ^ 32, spawned := true, team := recTeam r
      member := recMember r, tsize := 1, bar := recBar r, frame := recFrame r, prio := recPrio r, brick := brick }
    (t, { s with tasks := s.tasks ++ [t], nextTid := s.nextTid + 1 })

/-- A decrement of a record's dependence counter (R336), and its effect on the record's state. The entry of a task that becomes
ready carries the tower and quadrant given; a suspended one that `tdec` readies goes back to those of the brick it left (R356). -/
def State.decrement (s : State) (ctx va tower quad brick : Nat) (copy : Bool) : State :=
  match s.recAt ctx va with
  | none => s
  | some (pa, r0) =>
    let r := if 0 < recDep r0 then setBits r0 127 112 (recDep r0 - 1) else r0
    let s := if r = r0 then s else s.writeRec tower ctx va pa r
    if recDep r = 0 ∧ (recState r = 1 ∨ (recState r = 4 ∧ recReason r = 1)) then
      let (t, s) := s.registerRec ctx va r brick
      if recState r = 4 ∧ copy = false then s.makeReady t (towerOf t.brick) (quadOf t.brick) else s.makeReady t tower quad
    else s

/-! ## Barriers (R345, R346) -/

/-- Virtual address of barrier i of a block. -/
def barrierVa (block i : Nat) : Nat := block + 16 + 16 * i

/-- The 128-bit word of a barrier, when its page can be read. -/
def State.barrierWord (s : State) (ctx block i : Nat) : Option Nat := s.readVaNat ctx (barrierVa block i) 16

/-- The barriers of a block (R345). -/
def State.barrierCount (s : State) (ctx block : Nat) : Nat :=
  match s.readVaNat ctx block 16 with
  | some h => bits h 8 0
  | none => 0

/-- One arrival at a barrier's word (R225, R346): `leave` for a leave. -/
def barrierArrive (w : Nat) (leave : Bool) : Nat :=
  let expected := if leave then bits w 15 0 - 1 else bits w 15 0
  let arrived := if leave then bits w 31 16 else bits w 31 16 + 1
  let w := setBits (setBits w 15 0 expected) 31 16 arrived
  if expected ≤ arrived then setBits (setBits w 127 96 (bits w 127 96 + 1)) 31 16 0 else w

/-- What an arrival makes of a barrier's word, and the generation in which it counts; none where the barrier is broken, or the block
has no such barrier (R225, R346). -/
def State.arrival (s : State) (ctx block i w : Nat) (leave : Bool) : Option (Nat × BitVec 32) :=
  if bit w 64 || decide (s.barrierCount ctx block ≤ i) then none
  else some (barrierArrive w leave, BitVec.ofNat 32 (bits w 127 96))

/-- A leave of a tower's dome at a barrier (R346). -/
def State.leaveAt (s : State) (tower ctx block i : Nat) : State :=
  match (s.barrierWord ctx block i).bind (fun w => s.arrival ctx block i w true) with
  | some (w, _) => s.writeVa tower ctx (barrierVa block i) (toBytes 16 w)
  | none => s

/-- Poison set in every barrier of a block (R346). -/
def State.poisonBarriers (s : State) (tower ctx block : Nat) : State :=
  if block = 0 then s
  else (List.range (s.barrierCount ctx block)).foldl (fun s i =>
    match s.barrierWord ctx block i with
    | some w => s.writeVa tower ctx (barrierVa block i) (toBytes 16 (setBits w 64 64 1))
    | none => s) s

/-- A leave sent to every barrier of a block (R346). -/
def State.leaveBarriers (s : State) (tower ctx block : Nat) : State :=
  if block = 0 then s
  else (List.range (s.barrierCount ctx block)).foldl (fun s i => s.leaveAt tower ctx block i) s

/-! ## Trap records and logs (R373, R376) -/

/-- A trap record packed (R373). -/
def TrapRec.pack (t : TrapRec) (pc cbi ctx : Nat) (loop pend : Bool) : BitVec 256 :=
  BitVec.ofNat 256 (t.kind % 256 + t.cause % 256 * 2 ^ 8 + t.slot % 8 * 2 ^ 16 + (if pend then 2 ^ 19 else 0) +
    (if loop then 2 ^ 20 else 0) + t.fkind % 16 * 2 ^ 24 + t.path % 16 * 2 ^ 28 + t.aux.toNat * 2 ^ 32 +
    ctx % 65536 * 2 ^ 64 + cbi % 4096 * 2 ^ 84 + pc % 2 ^ 32 * 2 ^ 96 + t.addr.toNat * 2 ^ 128 + t.info.toNat * 2 ^ 192)

/-- A record posted to a tower's trap log, or dropped and counted (R376). -/
def State.postTrap (s : State) (tower : Nat) (r : BitVec 256) : State :=
  let d := s.dome tower
  if d.trapLog.length < 1024 then s.setDome tower { d with trapLog := d.trapLog ++ [r] }
  else s.setDome tower { d with trapOv := min (2 ^ 32 - 1) (d.trapOv + 1) }

end Sys2Proof.Machine
end

