-- ==== Sys2Proof/Machine/MatrixUnit.lean ====
section
/-!
DEFINITION. The matrix unit's queue: starting, advancing and completing operations (R268 to R270, R276), their ranges
(R272, R273, R287), and B from device memory (R274, R275).
-/

namespace Sys2Proof.Machine

open Sys2Proof

/-! ## Ranges (R272, R273, R287) -/

/-- A recorded range: rows of `len` bytes `stride` apart from `off`. `result` for C and destination ranges. -/
structure Range where
  result : Bool
  space : Nat
  off : Nat
  rows : Nat
  stride : Nat
  len : Nat
  deriving DecidableEq, Repr

/-- Whether an access overlaps a range. -/
def Range.hits (r : Range) (space off n : Nat) : Bool :=
  r.space == space && (List.range r.rows).any (fun i => overlaps (r.off + r.stride * i) r.len off n)

/-- A region of an accumulator bank as a range. -/
def accRange (bank r0 c0 rows cols : Nat) : Range := ⟨true, 1, accOff bank r0 c0, rows, 1024, 4 * cols⟩

/-- The ranges of an operation that are not yet released (R272, R287). -/
def MxOp.ranges (op : MxOp) : List Range :=
  if op.code.isProduct then
    let P := Prod.ofOp op.code op.desc op.pcw op.o
    let a := if P.accA then [⟨false, 1, P.ao, P.M, 1024, 4 * P.K⟩]
      else ⟨false, 0, P.ao, 1, 0, ceilDiv (P.M * P.K * P.fa.width) 8⟩ ::
        (if P.nsa then [] else [⟨false, 2, 2 * P.ap, 1, 0, 2 * P.nq * P.M⟩])
    let b := ⟨false, 2, 2 * P.bp, 1, 0, 2 * P.nq * P.N⟩ ::
      (if P.dev then [] else [⟨false, 0, P.o, 1, 0, P.blockLen * P.nq * P.N⟩])
    (if op.aRel then [] else a) ++ (if op.bRel then [] else b) ++ [accRange P.cb P.cr P.cc P.M P.N]
  else if op.code = .drain ∨ op.code = .drainq then
    let D := Drain.ofOp op.code op.desc op.pcw
    [accRange D.cb D.r0 D.c0 D.rows D.cols, ⟨true, 0, D.eo, 1, 0, D.destLen⟩] ++
      (if D.pairs then [⟨true, 2, 2 * D.sp, 1, 0, 2 * D.nb * D.Y⟩] else [])
  else
    let (cb, r0, c0, rows, cols) := regionOf op.desc
    accRange cb r0 c0 rows cols :: (if op.code = .cacc then [accRange (1 - cb) r0 c0 rows cols] else [])

/-- Whether a brick load of n bytes makes a matrix wait: it overlaps a result range (R273). -/
def Brick.mxHoldsLoad (b : Brick) (space off n : Nat) : Bool :=
  b.mxq.any (fun op => op.ranges.any (fun r => r.result && r.hits space off n))

/-- Whether a brick store makes a matrix wait: it overlaps any unreleased range (R273). -/
def Brick.mxHoldsStore (b : Brick) (space off n : Nat) : Bool :=
  b.mxq.any (fun op => op.ranges.any (fun r => r.hits space off n))

/-- Whether a queued operation holds back a read or a write of the brick (R273, R287). -/
def Brick.mxHolds (b : Brick) (load : Bool) (space off n : Nat) : Bool :=
  if load then b.mxHoldsLoad space off n else b.mxHoldsStore space off n

/-- Whether a write from an engine or another brick waits: it overlaps an operand range (R273). -/
def Brick.mxHoldsOther (b : Brick) (space off n : Nat) : Bool :=
  b.mxq.any (fun op => op.ranges.any (fun r => !r.result && r.hits space off n))

/-- Whether an operation is exposed (R269). -/
def MxOp.exposed (op : MxOp) : Bool := bit op.pcw.toNat 20

/-- The matrix operation at the head of the queue, when nothing freezes it (R268, R451). -/
def Brick.mxHead (b : Brick) : Option MxOp :=
  match b.mxq with
  | [] => none
  | op :: _ => if op.frozen then none else some op

/-- Whether the domain is held for a stream wait of an exposed product (R274). -/
def Brick.streamHeld (b : Brick) : Bool := b.mxHead.any (fun op => op.exposed && op.waiting)

/-- Whether the lockstep domain is held (R102, R274). -/
def Brick.domainHeld (b : Brick) : Bool := b.hold.isSome || b.streamHeld

/-- The head of the queue replaced. -/
def Brick.setHead (b : Brick) (op : MxOp) : Brick := { b with mxq := op :: b.mxq.tail }

/-! ## Start and stream (R259, R268, R274) -/

/-- The product an operation performs. -/
def MxOp.prod (op : MxOp) : Prod := Prod.ofOp op.code op.desc op.pcw op.o

/-- The stores an operation reads: those its first cycle found. -/
def MxOp.locals (op : MxOp) : Locals := op.snap.getD Locals.clear

/-- Local address as R200 writes it. -/
def localAddr (space off : Nat) : Word := BitVec.ofNat 64 (space * 2 ^ 20 + off)

/-- The report of poisoned local operands (R142, R276). -/
def poisonReport (space off : Nat) : TrapRec :=
  { kind := 6, cause := 1, slot := 0, addr := localAddr space off, aux := BitVec.ofNat 32 (arrayOf space off),
    info := 0, path := 0, fkind := 0 }

/-- The first poisoned word a range of local operands holds. -/
def poisonIn (b : Brick) (r : Range) : Option (Nat × Nat) :=
  b.lpois.find? (fun p => r.hits p.1 p.2 (wordBytes p.1))

/-- The ranges of a product's A side (R272). -/
def Prod.aRanges (P : Prod) : List Range :=
  if P.accA then [⟨false, 1, P.ao, P.M, 1024, 4 * P.K⟩]
  else ⟨false, 0, P.ao, 1, 0, ceilDiv (P.M * P.K * P.fa.width) 8⟩ ::
    (if P.nsa then [] else [⟨false, 2, 2 * P.ap, 1, 0, 2 * P.nq * P.M⟩])

/-- The local bytes of B that a product reads for a column: its pairs, and of blocks in the scratchpad the heads and counted
planes (R254, R258). -/
def Prod.bRanges (P : Prod) (l : Locals) (n : Nat) : List Range :=
  ⟨false, 2, 2 * (P.bp + P.nq * n), 1, 0, 2 * P.nq⟩ ::
    (if P.dev then []
     else (List.range P.nq).flatMap (fun q => (P.readRows l [] q n).map (fun r => ⟨false, 0, P.o + P.blockOff q n + 4 * r, 1, 0, 4⟩)))

/-- Where poisoned local operands stop a product: at column 0 for A and its pairs, at the block's column for B
(R276). -/
def MxOp.localStop (op : MxOp) (b : Brick) : Option (Nat × TrapRec) :=
  if b.lpois = [] ∨ !op.code.isProduct then none
  else
    let P := op.prod
    match P.aRanges.findSome? (poisonIn b) with
    | some (sp, w) => some (0, poisonReport sp w)
    | none =>
      (List.range P.N).findSome? (fun n =>
        ((P.bRanges b.loc n).findSome? (poisonIn b)).map (fun p => (n, poisonReport p.1 p.2)))

/-- The local ranges that an operation reads (R142, R258, R261, R265). -/
def MxOp.readRanges (op : MxOp) (l : Locals) : List Range :=
  if op.code.isProduct then
    let P := op.prod
    P.aRanges ++ (List.range P.N).flatMap (P.bRanges l) ++ (if P.acc then [accRange P.cb P.cr P.cc P.M P.N] else [])
  else if op.code = .drain ∨ op.code = .drainq then
    let D := Drain.ofOp op.code op.desc op.pcw
    [accRange D.cb D.r0 D.c0 D.rows D.cols]
  else if op.code = .cclr then []
  else
    let (cb, r0, c0, rows, cols) := regionOf op.desc
    accRange cb r0 c0 rows cols :: (if op.code = .cacc then [accRange (1 - cb) r0 c0 rows cols] else [])

/-- Single inverted bits met by what an operation reads are corrected, and words with two become poisoned (R142). -/
def Brick.scrub (b : Brick) (op : MxOp) : Brick :=
  if b.ecc = [] then b
  else
    let rs := op.readRanges b.loc
    b.ecc.foldl (fun b e => match arraySpace e.array with
      | some sp => if rs.any (fun r => r.hits sp e.word (wordBytes sp)) then b.checkWord sp op.ctx e.word else b
      | none => b) b

/-- The A cells that a product loads, a row to a word: their codes are written as it begins and met as it streams, and an
uncorrectable row stops it (R142, array 0x0C, R276). -/
def Brick.loadCells (b : Brick) (op : MxOp) : Brick × Option (Nat × TrapRec) :=
  if !op.code.isProduct then (b, none)
  else
    let P := op.prod
    let b := b.plant 12 ((List.range P.M).map (fun i => (i, true)))
    match b.meet ((List.range P.M).map (fun i => (12, i))) op.ctx with
    | (b, none) => (b, none)
    | (b, some _) =>
      ({ b with ecc := b.ecc.filter (fun x => x.array != 12) },
        some (0, { poisonReport (if P.accA then 1 else 0) P.ao with aux := 12 }))

/-- The earlier of two stops, by column (R276). -/
def earlier : Option (Nat × TrapRec) → Option (Nat × TrapRec) → Option (Nat × TrapRec)
  | some a, some b => if b.1 < a.1 then some b else some a
  | some a, none => some a
  | none, b => b

/-- The head operation begun (R268, R269): the stores it reads are taken, and its first column awaits the load phase. What
stopped its stream before stands (R276). -/
def Brick.mxStart (b : Brick) : Brick :=
  match b.mxHead with
  | some op =>
    if op.snap.isSome then b
    else
      let b := b.scrub op
      let (b, bad) := b.loadCells op
      let op := { op with snap := some b.loc, elapsed := 0, waits := 0, col := 0, colAt := op.prod.loadEnd,
                          stop := earlier op.stop (earlier bad (op.localStop b)) }
      b.setHead op
  | none => b

/-- Bytes of one column of B blocks (R254). -/
def Prod.colLen (P : Prod) : Nat := P.blockLen * P.nq

/-- Whether the blocks of a column are present (R274). -/
def MxOp.present (op : MxOp) (n : Nat) : Bool := !op.prod.dev || decide (op.prod.colLen * (n + 1) ≤ op.bgot)

/-- The column at which an operation's stream ends (R276). -/
def MxOp.lastCol (op : MxOp) : Nat :=
  match op.stop with
  | some (n, _) => min n op.prod.N
  | none => op.prod.N

/-- The address of the first block of a column that came with poison in a row the product reads (R87, R258, R276). -/
def MxOp.poisonAt (op : MxOp) (n : Nat) : Option Nat :=
  if op.bpois = [] then none
  else
    let P := op.prod
    ((List.range P.nq).find? (fun q => (P.readRows op.locals op.bbuf q n).any (fun r =>
      op.bpois.any (fun p => overlaps p.1 p.2 (P.blockOff q n + 4 * r) 4)))).map (fun q => (P.o + P.blockOff q n) % 2 ^ 64)

/-- A product's stop at a column for a fault or poison of its B stream (R276). -/
def MxOp.stopAt (op : MxOp) (n : Nat) (r : TrapRec) : MxOp :=
  match op.stop with
  | some (m, r') => { op with stop := if n < m then some (n, r) else some (m, r'), waiting := false }
  | none => { op with stop := some (n, r), waiting := false }

/-- The report of poisoned B data (R87, R276). -/
def streamPoison (va : Nat) : TrapRec :=
  { kind := 6, cause := 1, slot := 0, addr := BitVec.ofNat 64 va, aux := 0, info := 0, path := 0, fkind := 0 }

/-- Columns whose stream begins after the present cycle: each starts when its time has come and its blocks are present, and
otherwise the operation waits; one whose blocks are poisoned where they are read stops the product (R259, R274, R276). -/
def MxOp.columns : Nat → MxOp → MxOp
  | 0, op => op
  | n + 1, op =>
    if op.col < op.lastCol ∧ op.elapsed = op.colAt then
      if op.present op.col then
        match op.poisonAt op.col with
        | some va => op.stopAt op.col (streamPoison va)
        | none => columns n { op with
            col := op.col + 1
            colAt := op.colAt + op.prod.colCost op.locals op.bbuf op.col
            waiting := false }
      else { op with waiting := true }
    else op

/-- T of the operation as far as it is known (R259, R276, R286). -/
def MxOp.cycles (op : MxOp) : Nat :=
  if op.code.isProduct then (if op.col < op.lastCol then op.colAt + 13 else op.colAt + 12)
  else fixedCycles op.code op.desc

/-- Ranges released at the end of a product's load and stream phases (R272). -/
def MxOp.release (op : MxOp) : MxOp :=
  if op.code.isProduct ∧ op.snap.isSome then
    { op with
      aRel := op.aRel || decide (op.prod.loadEnd ≤ op.elapsed)
      bRel := op.bRel || (decide (op.lastCol ≤ op.col) && decide (op.colAt ≤ op.elapsed)) }
  else op

/-- An operation that waits for the blocks of a column has requested them: a column that costs no cycle begins in the cycle that
requests the next (R274). -/
def MxOp.asked (op : MxOp) : MxOp := if op.waiting then { op with req := max op.req (min (op.col + 1) op.prod.N) } else op

/-- Whether the operation makes a stream wait before its next cycle (R274). -/
def MxOp.streamWait (op : MxOp) : MxOp :=
  if op.code.isProduct ∧ op.snap.isSome ∧ op.col < op.lastCol ∧ op.elapsed = op.colAt ∧ !op.present op.col then
    { op with waiting := true }
  else op

/-- One cycle of the head operation (R259, R269, R270); an unexposed one that waits for B counts the wait. An exposed one requests
column 0 in its first cycle, and each later column in the cycle in which the stream of the one before begins (R274). -/
def Brick.mxCycle (b : Brick) : Brick :=
  let b := b.mxStart
  match b.mxHead with
  | some op =>
    let next := fun (op : MxOp) => if op.code.isProduct then MxOp.columns (op.prod.N + 1) op else op
    let op := next op
    if op.waiting then b.setHead { op with waits := op.waits + 1 }.asked.release
    else b.setHead (next { op with elapsed := op.elapsed + 1, req := max op.req (min (op.col + 1) op.prod.N) }).asked.release
  | none => b

/-! ## Completion (R264, R268, R276, R285, R288) -/

/-- Dirty bits and codes of a range just written (R134, R142, R392). -/
def Brick.marked (b : Brick) (r : Range) (l : Locals) : Brick :=
  (List.range r.rows).foldl (fun b i =>
    let off := r.off + r.stride * i
    b.storeLocal r.space off (l.read r.space off r.len)) b

/-- The stores after an operation, its flags, and the ranges it wrote. -/
def MxOp.effect (op : MxOp) (loc : Locals) : Locals × Flags × List Range :=
  if op.code.isProduct then
    let P := op.prod
    let l := op.locals
    let cols := op.lastCol
    let (ac, f) := P.writeC l op.bbuf loc.ac cols
    let f := f ||| P.loadFlags l ||| flagIf (P.badScale l cols) fScvalid
    ({ loc with ac := ac }, f, if cols = 0 then [] else [accRange P.cb P.cr P.cc P.M cols])
  else if op.code = .drain ∨ op.code = .drainq then
    let D := Drain.ofOp op.code op.desc op.pcw
    let (l, f) := D.effect loc
    (l, f, ⟨true, 0, D.eo, 1, 0, D.destLen⟩ ::
      (if D.pairs then [⟨true, 2, 2 * D.sp, 1, 0, 2 * D.nb * D.Y⟩] else []))
  else
    let (cb, r0, c0, rows, cols) := regionOf op.desc
    let (ac, f) := regionEffect op.code op.desc op.pcw op.o loc.ac
    ({ loc with ac := ac }, f, [accRange cb r0 c0 rows cols])

/-- The accumulator words an operation reads as terms of its results, by bank, row and column. -/
def MxOp.readsC (op : MxOp) : Option (Nat × Nat × Nat × Nat × Nat) :=
  if op.code.isProduct then
    let P := op.prod
    if P.acc then some (P.cb, P.cr, P.cc, P.M, op.lastCol) else none
  else if op.code = .drain ∨ op.code = .drainq then
    let D := Drain.ofOp op.code op.desc op.pcw
    some (D.cb, D.r0, D.c0, D.rows, D.cols)
  else if op.code = .cclr then none
  else some (regionOf op.desc)

/-- The words a drain writes from a poisoned element (R288). -/
def Drain.poisonedBy (D : Drain) (i j : Nat) : List (Nat × Nat) :=
  let (u, x) := if D.dir = 0 then (i, j) else (j, i)
  let b := D.nb * u + x / 32
  let whole := D.q || D.lay == 1
  let run := fun (i n : Nat) =>
    let at_ := i * D.fd.width
    wordsOf 0 (D.eo + at_ / 8) ((at_ + n * D.fd.width - 1) / 8 + 1 - at_ / 8)
  let elems := if D.lay = 1 then wordsOf 0 (D.eo + 4 * D.fd.width * b) (4 * D.fd.width)
    else if whole then run (D.X * u + x / 32 * 32) (D.blockSize (x / 32))
    else run (D.X * u + x) 1
  elems.map (fun w => (0, w)) ++ (if D.q then (wordsOf 2 (2 * (D.sp + b)) 2).map (fun w => (2, w)) else [])

/-- The words left poisoned because a poisoned accumulator word was read for them (R142, R288). -/
def MxOp.poisonOut (op : MxOp) (pois : List (Nat × Nat)) : List (Nat × Nat) :=
  match op.readsC with
  | none => []
  | some (cb, r0, c0, rows, cols) =>
    let reads := fun (p : Nat × Nat) (bank : Nat) => p.1 == 1 && (accRange bank r0 c0 rows cols).hits 1 p.2 4
    pois.flatMap (fun p =>
      if reads p cb then
        if op.code = .drain ∨ op.code = .drainq then
          (Drain.ofOp op.code op.desc op.pcw).poisonedBy (p.2 % 0x40000 / 1024 - r0) (p.2 % 1024 / 4 - c0)
        else [p]
      else if op.code = .cacc ∧ reads p (1 - cb) then [(1, 0x40000 * cb + p.2 % 0x40000)]
      else [])

/-- The report an operation leaves (R276, R288). -/
def MxOp.report (op : MxOp) (pois : List (Nat × Nat)) : Option TrapRec :=
  match op.stop with
  | some (_, r) => some r
  | none =>
    match op.readsC with
    | none => none
    | some (cb, r0, c0, rows, cols) =>
      (pois.find? (fun p => p.1 == 1 && ((accRange cb r0 c0 rows cols).hits 1 p.2 4 ||
        (op.code == .cacc && (accRange (1 - cb) r0 c0 rows cols).hits 1 p.2 4)))).map
        (fun p => poisonReport p.1 p.2)

/-- The head operation completed: results written, flags recorded, `cnt.mx` lowered, `mx.s` sources updated (R266,
R268, R276). -/
def State.mxComplete (s : State) : State :=
  match s.b.mxHead with
  | none => s
  | some op =>
    let pois := s.b.lpois
    let (loc, fl, rs) := op.effect s.b.loc
    let b := rs.foldl (fun b r => b.marked r loc) { s.b with loc := loc, mxq := s.b.mxq.tail }
    let poisOut := if pois = [] then [] else op.poisonOut pois
    let b := { b with lpois := b.lpois ++ poisOut.filter (fun p => !b.lpois.contains p) }
    let T := op.elapsed + (if op.exposed then 0 else op.waits)
    let b := { b with
      lastt := min 65535 T
      lasts := if op.code.isProduct then min 65535 (op.colAt - op.prod.loadEnd) else b.lasts }
    ({ s with b := b } : State).complete op.tid .mx fl (if pois = [] then op.stop.map Prod.snd else op.report pois)

/-- Whether the head operation has done its last cycle. -/
def Brick.mxDone (b : Brick) : Bool :=
  match b.mxHead with
  | some op => op.snap.isSome && !op.waiting && decide (op.cycles ≤ op.elapsed)
  | none => false

/-! ## B from device memory (R274, R275) -/

/-- The report of a B-stream fault: address of the access, token or 0xFFFF, path 3, kind (R62, R208, R276, R371). -/
def streamReport (va tok kind : Nat) : TrapRec :=
  { kind := if kind = 0xA then 9 else 5, cause := 1, slot := 0, addr := BitVec.ofNat 64 (va % 2 ^ 52),
    aux := BitVec.ofNat 32 tok, info := 0, path := 3, fkind := kind }

/-- The report of a determinism conflict at a line (R326, R371). -/
def detReport (line : Nat) (tag : BitVec 128) : TrapRec :=
  { kind := 9, cause := 0, slot := 0, addr := BitVec.ofNat 64 line, aux := tag.extractLsb' 64 32,
    info := tag.extractLsb' 0 64, path := 0, fkind := 0 }

/-- Bytes of B that an operation may fetch: the blocks of every column it streams; an exposed one fetches once it has begun
(R274). -/
def MxOp.mayFetch (op : MxOp) : Nat := op.prod.colLen * (if op.exposed && op.snap.isNone then 0 else op.lastCol)

/-- The first operation of a queue that fetches B from device memory, with its place. One that leaves planes out waits until it
knows its pairs: until it is at the head (R258). -/
def Brick.fetching (b : Brick) : Option (Nat × MxOp) :=
  let i := b.mxq.findIdx (fun op => op.code.isProduct && op.prod.dev && decide (op.bgot < op.mayFetch) &&
    !op.frozen && op.tok.isNone && (op.snap.isSome || !(op.prod.zs || op.prod.et) || b.mxq.head? == some op))
  (b.mxq[i]?).map (fun op => (i, op))

/-- An operation of the queue replaced. -/
def Brick.setOp (b : Brick) (i : Nat) (op : MxOp) : Brick := { b with mxq := b.mxq.set i op }

/-- Virtual address of the next block an operation fetches, and its column. -/
def MxOp.nextBlock (op : MxOp) : Nat × Nat := ((op.prod.o + op.bgot) % 2 ^ 64, op.bgot / op.prod.colLen)

/-- The column of the block at an address of an operation's B. -/
def MxOp.colAtVa (op : MxOp) (va : Nat) : Nat := (va + 2 ^ 64 - op.prod.o % 2 ^ 64) % 2 ^ 64 / op.prod.colLen

/-- Whether a range of virtual addresses lies in one 4 KiB page. -/
def onePage (va n : Nat) : Bool := decide (va / 4096 = (va + n - 1) / 4096)

/-- Where a page of an operation's B lies: as its request found it, or as the brick's buffers or a walk give it (R93, R274). -/
def State.streamPa (s : State) (op : MxOp) (va : Nat) : Except (Nat × Nat × Nat × Word) Nat :=
  match op.pages.find? (fun p => p.1 == va / 4096) with
  | some p => .ok (p.2 * 4096 + va % 4096)
  | none => s.xlate (s.b.streamLook op.exposed) op.ctx va .read false

/-- A block of B with the rows still to fetch as memory has them; none where a row is another module's, is poisoned or cannot be
translated. -/
def State.peekB (s : State) (op : MxOp) (blk : Nat) : Option (Cells Byte) :=
  (List.range (op.prod.blockLen / 4)).foldl (fun r i =>
    let at_ := op.prod.blockLen * blk + 4 * i
    match r with
    | none => none
    | some m =>
      if at_ < op.bgot then some m
      else match s.streamPa op ((op.prod.o + at_) % 2 ^ 64) with
        | .ok pa => if (s.ownerNode pa).isSome || s.poisoned pa 4 then none else some (writeBytes m at_ (s.readPhys pa 4))
        | .error _ => none) (some op.bbuf)

/-- The rows of a block of B that are fetched: its heads and counted planes, where its termination point can be known (R258). -/
def State.bRows (s : State) (op : MxOp) (blk : Nat) : List Nat :=
  let P := op.prod
  let l := op.snap.getD s.b.loc
  match s.peekB op blk with
  | some m => P.readRows l m (blk % P.nq) (blk / P.nq)
  | none => ({ P with et := false } : Prod).readRows l op.bbuf (blk % P.nq) (blk / P.nq)

/-- Whether the row at an offset from b_base is fetched (R258). -/
def State.bWants (s : State) (op : MxOp) (at_ : Nat) : Bool :=
  (!op.prod.zs && !op.prod.et) || (s.bRows op (at_ / op.prod.blockLen)).contains (at_ % op.prod.blockLen / 4)

/-- The bytes ahead of an operation's fetch that it passes by (R258). -/
def State.bSkip (s : State) (op : MxOp) : Nat :=
  4 * ((List.range ((op.mayFetch - op.bgot) / 4)).takeWhile (fun i => !s.bWants op (op.bgot + 4 * i))).length

/-- The bytes that are fetched together: rows of one block and of one sector (R254, R258, R321). -/
def State.bPart (s : State) (op : MxOp) : Nat :=
  let n := min (op.prod.blockLen - op.bgot % op.prod.blockLen) (32 - op.nextBlock.1 % 32)
  4 * ((List.range (n / 4)).takeWhile (fun i => s.bWants op (op.bgot + 4 * i))).length

/-- The planes that the stream leaves out passed by (R258). -/
def State.skipB (s : State) : State :=
  match s.b.fetching with
  | none => s
  | some (i, op) =>
    let k := s.bSkip op
    if k = 0 then s
    else
      let op := { op with bgot := op.bgot + k }
      s.onB (fun b => b.setOp i { op with waiting := op.waiting && !op.present op.col })

/-- The pages of the rows that are fetched of bytes lo to hi - 1 of an operation's blocks, by an address in each (R258, R274). -/
def State.pagesOf (s : State) (op : MxOp) (lo hi : Nat) : List Nat :=
  (((List.range ((hi - lo) / 4)).filter (fun i => s.bWants op (lo + 4 * i))).map (fun i => (op.prod.o + lo + 4 * i) % 2 ^ 64)).foldl
    (fun l va => if l.any (fun a => a / 4096 == va / 4096) then l else l ++ [va]) []

/-- The first page of some bytes of an operation's B that cannot be translated: bytes lo to hi - 1 of its blocks
(R274). -/
def State.missIn (s : State) (op : MxOp) (lo hi : Nat) : Option Nat :=
  (s.pagesOf op lo hi).find? (fun a => match s.streamPa op a with
    | .ok _ => false
    | .error _ => true)

/-- The pages that a request has found, kept for the fetch of its blocks (R274). -/
def State.foundIn (s : State) (op : MxOp) (lo hi : Nat) : List (Nat × Nat) :=
  (s.pagesOf op lo hi).filterMap (fun a => match s.streamPa op a with
    | .ok pa => some (a / 4096, pa / 4096)
    | .error _ => none)

/-- The kept pages of the brick's products that an invalidation takes: what they found is looked for again (R105). -/
def Brick.dropPages (b : Brick) (drop : Nat → Nat → Bool) : Brick :=
  { b with mxq := b.mxq.map (fun op => { op with pages := op.pages.filter (fun p => !drop op.ctx p.1) }) }

/-- The lockstep domain held for a page of B, from the end of this cycle (R102, R274). -/
def Brick.holdFor (b : Brick) (va : Option Nat) : Brick :=
  { b with hold := b.hold.or (va.map (fun a => ⟨a, false, 0, none⟩)) }

/-- The blocks that the head operation has requested and not received, translated: a page that misses holds the domain
(R274, R291). -/
def State.requestB (s : State) (lo : Nat) : State :=
  match s.b.mxHead with
  | some op =>
    if op.exposed && op.code.isProduct && op.prod.dev && op.snap.isSome then
      let from_ := max op.bgot lo
      let upto := op.prod.colLen * op.req
      let fresh := (s.foundIn op from_ upto).filter (fun p => !op.pages.contains p)
      s.onB (fun b => (b.setHead { op with pages := op.pages ++ fresh }).holdFor (s.missIn op from_ upto))
    else s
  | none => s

/-- Whether a hold waits for the next block of an operation (R102, R275). -/
def Brick.holdsBlock (b : Brick) (op : MxOp) : Bool :=
  op.exposed && b.hold.any (fun h => !h.fetch && decide ((h.va + 2 ^ 64 - op.nextBlock.1) % 2 ^ 64 < op.prod.blockLen))

/-! ## A cycle of the unit (R269, R270, R274) -/

/-- One cycle of the matrix unit for an operation of the exposure that advances (R269, R270); the columns that an exposed
product requests in it are translated (R274). -/
def State.mxTick (s : State) (domain : Bool) : State :=
  match s.b.mxHead with
  | none => s
  | some op =>
    if op.exposed && !domain then s
    else
      let s := s.skipB.onB Brick.mxCycle
      if s.b.mxDone then s.mxComplete
      else if s.b.mxHead.any (fun o => decide (op.req < o.req)) then s.requestB (op.prod.colLen * op.req)
      else s

end Sys2Proof.Machine
end

