-- ==== Sys2Proof/Machine/Ops.lean ====
section
/-!
DEFINITION. Shared operations of a brick: traps and the return from a handler (R371 to R384), stalls and suspensions
(R190 to R196, R447, R449), how a task leaves its brick (R194 to R196, R376, R387), the branch unit and the loop
sequencer (R176 to R188), and the end of a cycle (R153, R156).
-/

namespace Sys2Proof.Machine

open Sys2Proof

/-- What a step answers. -/
abbrev Out := Host.Outcome State Fault Refusal

/-- A slot's effect, when its guard lets it take effect (R148). -/
def State.guarded (s : State) (gd : Guard) (f : State → Out) : Out := if s.guardOn gd then f s else .next s

/-! ## Code objects (R146, R330) -/

/-- The base of a code object: none where the entry of the context's code table is invalid or cannot be read. -/
def State.codeBase (s : State) (ctx cbi : Nat) : Option Nat :=
  match s.ctxEnt ctx with
  | none => none
  | some e =>
    match s.readVaNat ctx (bits e 152 116 * 32768 + 8 * cbi) 8 with
    | some w => if bit w 0 then some (bits w 51 6 * 64) else none
    | none => none

/-! ## Leaving a brick -/

/-- The record as the task leaves: pc, guards, g0 to g3, priority, state, reason and wake together (R330, R334). -/
def recLeave (r : Nat) (b : Brick) (pc state reason wake : Nat) : Nat :=
  let g := fun n => (vget 0 b.r.g n).toNat
  let r := setBits (setBits (setBits r 63 32 pc) 7 2 b.r.k.toNat) 15 14 b.t.prio
  let r := setBits (setBits (setBits (setBits r 319 256 (g 0)) 383 320 (g 1)) 447 384 (g 2)) 511 448 (g 3)
  recSet r state reason wake

/-- Flags of operations in flight, which are recorded when they complete (R387). -/
def pipeFlags (p : List Pend) : Flags :=
  p.foldl (fun f e => match e.w with
    | .flags g => f ||| g
    | _ => f) 0

/-- The registration of the task a brick runs, as it stands (R333, R382). -/
def Brick.capture (b : Brick) : Task :=
  { b.t with
    cnt := b.cnt, cyc := b.cyc, phase := b.phase, prio := b.t.prio,
    nflg := b.y.nflg ||| (pipeFlags b.r.pipe).zeroExtend 64
    tvec := b.y.tvec, reports := b.reports, barWait := b.barWait, brick := b.bid }

/-- The brick once its task has left without a save: lockstep results reach no register that survives, the class is
released, the spire FIFO toward it is empty, and images held for a handler are gone (R387, R403, R408). Exposed matrix
operations stay in the queue and complete before the brick takes other work. -/
def Brick.vacate (b : Brick) : Brick :=
  { b with
    running := false
    r := { b.r with pipe := [], lp := none, br := Br.zero }
    y := { b.y with inh := false, held := none }
    mxq := b.mxq.map (fun op => { op with frozen := false })
    reports := [], barWait := none, timer := 0, spTimer := 0, acqTimer := 0, stall := none, own := [], hold := none
    spq := [], spFreed := [], cls := none, grant := none, saving := none, skip := false
    iss := Issue.idle }

/-- Loads of a task that leaves without a save deliver nowhere (R192, R194, R195). -/
def Brick.dropLoads (b : Brick) (tid : Nat) : Brick :=
  { b with dev := b.dev.map (fun op => if op.tid = tid then { op with dst := .none } else op) }

/-- A replay token that held the brick's domain for the task names nothing any more (R387, R99). -/
def State.dropHold (s : State) (tid : Nat) : State :=
  { s with toks := s.toks.filter (fun t => t.who != .hold s.b.bid tid) }

/-- The brick in focus vacated by a task that leaves without a save. -/
def State.vacate (s : State) : State :=
  let tid := s.b.t.tid
  ((({ s with b := s.b.vacate } : State).mapBricks (fun b => b.dropLoads tid)).dropGrants tid).dropHold tid

/-- The record of the task in focus written as it leaves, which it does in state running (R334, R335). -/
def State.leaveRec (s : State) (pc state reason wake : Nat) : State :=
  match s.recIn s.b.t.ctx s.b.t.recVa [3] with
  | some (pa, r) => s.writeRec (towerOf s.b.bid) s.b.t.ctx s.b.t.recVa pa (recLeave r s.b pc state reason wake)
  | none => s

/-- The registration of the task in focus brought up to date (R333). -/
def State.saveReg (s : State) : State := s.onReg s.b.t.tid (fun _ => s.b.capture)

/-! ## Traps (R371 to R377) -/

/-- The trap record of the trap now taken, packed with the bundle's place (R373). -/
def Brick.packTrap (b : Brick) (t : TrapRec) : BitVec 256 :=
  t.pack b.pc.toNat b.cbi b.t.ctx b.r.lp.isSome b.r.br.xfer.isSome

/-- A trap record as `trec0` to `trec3` (R373). -/
def trecWords (r : BitVec 256) : Vector Word 4 :=
  #v[r.extractLsb' 0 64, r.extractLsb' 64 64, r.extractLsb' 128 64, r.extractLsb' 192 64]

/-- Whether `tvec` enables a trap kind; kinds 0x0D and 0x0F are never delivered (R374, R375). -/
def trapEnabled (tvec : Word) (kind : Nat) : Bool :=
  kind != 0x0D && kind != 0x0F && decide (1 ≤ kind) && decide (kind ≤ 14) && bit tvec.toNat (kind - 1)

/-- The pipeline image captured at a trap (R372). A barrier-broken trap ends the wait it was taken in (log 25). -/
def Brick.image (b : Brick) (kind : Nat) : Image :=
  { pc := b.pc, cbi := b.cbi, codeBase := b.codeBase, opd := b.r.opd, res := b.r.res, pipe := b.r.pipe,
    br := b.r.br, lp := b.r.lp, ix := b.r.ix, rrb := b.r.rrb, timer := b.timer,
    spTimer := b.spTimer, acqTimer := b.acqTimer,
    barWait := if kind = 8 then none else b.barWait,
    lastt := b.lastt, lasts := b.lasts }

/-- The trap that ends the task (R376): the record faulted, the barriers poisoned, the trap record logged, the launch
told, the brick vacated. -/
def State.endFaulted (s : State) (t : TrapRec) : State :=
  let r := s.b.packTrap t
  let tk := s.b.t
  let s := match s.recIn tk.ctx tk.recVa [3] with
    | some (pa, w) => s.writeRec (towerOf s.b.bid) tk.ctx tk.recVa pa (recSet w 8 0 0)
    | none => s
  let s := s.poisonBarriers (towerOf s.b.bid) tk.ctx tk.bar
  let s := s.postTrap (towerOf s.b.bid) r
  (s.vacate).dropTask tk.tid tk.launch 1

/-- The handler entered (R375): record and image stored, latches, indices, rotation, branch and loop state cleared, and
the pc at the handler's bundle of its code object. -/
def Brick.enterHandler (b : Brick) (t : TrapRec) (base : Nat) : Brick :=
  { b with
    y := { b.y with trec := trecWords (b.packTrap t), held := some (b.image t.kind), inh := true }
    r := { b.r with opd := Opd.zero, res := Res.zero, pipe := [], br := Br.zero, lp := none,
                    ix := Vector.replicate 6 0, rrb := 0 }
    mxq := b.mxq.map (fun op => if op.exposed then { op with frozen := true } else op)
    pc := b.y.tvec.extractLsb' 32 32
    cbi := fld b.y.tvec 31 20
    codeBase := base
    timer := 0, spTimer := 0, acqTimer := 0, stall := none, own := [], barWait := none, grant := none }

/-- Taking a trap at the bundle in issue: no move of it has taken effect (R372). It is delivered when its kind is
enabled and the task is not in its handler, and otherwise ends the task (R375, R376). A handler whose code-table entry
is invalid cannot be entered (log 23). -/
def State.takeTrap (s : State) (t : TrapRec) : State :=
  let s := (s.onB (fun b => { b with r := { b.r with opd := b.iss.opd0 }, iss := Issue.idle })).dropGrants s.b.t.tid
  if !s.b.y.inh && trapEnabled s.b.y.tvec t.kind then
    match s.codeBase s.b.t.ctx (fld s.b.y.tvec 31 20) with
    | some base => s.onB (fun b => b.enterHandler t base)
    | none => s.endFaulted t
  else s.endFaulted t

/-- A trap found at issue, with its rank among those of one bundle (R450), by the slot now examined. -/
def State.raise (s : State) (rank : Nat) (t : TrapRec) : State :=
  let slot := s.b.iss.slot
  (s.takeTrap { t with slot := slot }).onIss (fun i => { i with ev := .trapped rank slot t.cause })

/-- A trap record with nothing but its kind and cause. -/
def plainTrap (kind cause : Nat) : TrapRec :=
  { kind := kind, cause := cause, slot := 0, addr := 0, aux := 0, info := 0, path := 0, fkind := 0 }

/-- The illegal-operation trap with a cause (R371); cause 0x2 here is the check of R159 on a trigger's value. -/
def State.illegal (s : State) (cause : Nat) : State := s.raise 0 (plainTrap 3 cause)

/-- Illegal-operation cause 0x2 for an operation's own limit, which is met after the checks of R159 (R159, R450). -/
def State.beyond (s : State) : State := s.raise 7 (plainTrap 3 2)

/-- The alignment trap: address supplied, alignment required (R200, R371). -/
def State.misaligned (s : State) (addr : Word) (align : Nat) : State :=
  s.raise 1 { plainTrap 4 0 with addr := addr, aux := BitVec.ofNat 32 align }

/-- The over-draw trap (R402). -/
def State.overdraw (s : State) (cls : Nat) : State :=
  s.raise 2 { plainTrap 0x0B 0 with aux := BitVec.ofNat 32 cls }

/-- The poisoned-data trap of a local read (R142, R371). -/
def State.poisonedLocal (s : State) (space off : Nat) : State :=
  s.raise 3 { poisonReport space off with cause := 2 }

/-- The machine-check trap (R142, R371). -/
def State.machineCheck (s : State) (addr aux : Nat) (synd : BitVec 8) : State :=
  s.raise 3 { plainTrap 0x0D 1 with addr := BitVec.ofNat 64 addr, aux := BitVec.ofNat 32 aux,
                                    info := synd.zeroExtend 64 }

/-- Whether the task runs in deterministic mode (R150). -/
def State.isDet (s : State) : Bool := s.b.t.det.isSome

/-- The context's class (R380). -/
def State.cls (s : State) : Nat := s.ctxClass s.b.t.ctx

/-! ## The return from a handler (R384, R451) -/

/-- Whether every operation the handler triggered has written its result, but for matrix operations queued behind a
frozen one (R384). -/
def Brick.tretReady (b : Brick) : Bool :=
  b.r.pipe.isEmpty && (b.mxq.any MxOp.frozen || !b.mxq.any MxOp.exposed)

/-- The held image restored (R384): what the handler's last bundle put in flight keeps only what it writes to
registers. -/
def Brick.tret (b : Brick) (skip : Bool) : Brick :=
  match b.y.held with
  | none => b
  | some i =>
    let keep := b.r.pipe.filter (fun e => match e.w with
      | .res _ _ => false
      | .div _ _ _ => false
      | _ => true)
    { b with
      y := { b.y with held := none, inh := false }
      r := { b.r with opd := i.opd, res := i.res, pipe := i.pipe ++ keep, br := i.br, lp := i.lp, ix := i.ix,
                      rrb := i.rrb }
      mxq := b.mxq.map (fun op => { op with frozen := false })
      pc := i.pc, cbi := i.cbi, codeBase := i.codeBase, timer := i.timer, barWait := i.barWait
      lastt := i.lastt, lasts := i.lasts
      spTimer := i.spTimer, acqTimer := i.acqTimer, stall := none, own := [], skip := skip }

/-! ## Stalls (R155, R190, R224, R271, R447) -/

/-- The bundle stalls until what it wants comes about, with a suspension limit. `cont` is the continuation as it reads
now. -/
def State.stallWant (s : State) (reason : Reason) (wake : Nat) (mx : Bool) (cont : BitVec 32) (want : Want) : State :=
  s.onIss (fun i => { i with ev := .stalled ⟨reason, wake, mx, cont, want⟩ })

/-- The bundle stalls on a condition with a suspension limit that its reason and wake name. -/
def State.stallFor (s : State) (reason : Reason) (wake : Nat) (mx : Bool) (cont : BitVec 32) : State :=
  s.stallWant reason wake mx cont .none

/-- The continuation of a stall that no `sy` operation makes: `sy.o` before the bundle (log 24). -/
def State.contBefore (s : State) : BitVec 32 := s.b.iss.opd0.syo.extractLsb' 0 32

/-- The continuation of a stalled `sy` operation: `sy.o` with the bundle's own write (R192, R224). -/
def State.contNow (s : State) : BitVec 32 := (s.opd .syo).extractLsb' 0 32

/-- A stall with a limit of its own (R221, R401, R411, R384). -/
def State.stallOwn (s : State) (what arg : Nat) : State := s.onIss (fun i => { i with ev := .stalledOwn what arg })

/-- A matrix wait (R271); in a handler whose held image holds a queued matrix operation it is illegal-operation cause
0xC (R451). -/
def State.matrixWait (s : State) (why : Nat) (want : Want) : State :=
  if s.b.y.inh && s.b.mxq.any MxOp.frozen then s.illegal 0xC
  else s.stallWant .matrixWait why true s.contBefore want

/-- An operation goes on unless a condition stalls it; a bundle whose slots have all passed never stalls (R158,
R447). -/
def State.unless (s : State) (bad : Bool) (stop : State) (k : State → Out) : Out :=
  if bad && !s.b.iss.go then .next stop else k s

/-- Codes of the counters (R191). -/
def ctrCode : Ctr → Nat
  | .ld => 0 | .st => 1 | .cp => 2 | .mx => 3

/-- An operation that a counter tracks: n increments at the end of the cycle, or a stall where the counter would pass
65,535 (R190). -/
def State.counted (s : State) (c : Ctr) (n : Nat) (k : State → Out) : Out :=
  s.unless (decide (65535 < s.b.cnt.get c + n)) (s.stallFor .counterFull (ctrCode c) false s.contBefore)
    (fun s => k ((List.range n).foldl (fun s _ => s.defer (.cnt c)) s))

/-- The hulls of the range scoreboard that a local range overlaps (R124). -/
def Brick.hullsHit (b : Brick) (space off n : Nat) : List Hull :=
  b.score.filter (fun h => h.space == space && overlaps h.lo (h.hi + 1 - h.lo) off n)

/-- Whether a local range overlaps a hull in the range scoreboard (R124). -/
def Brick.hullHit (b : Brick) (space off n : Nat) : Bool := !(b.hullsHit space off n).isEmpty

/-- The waits of a brick access of a local range: for the hulls it overlaps, then for the matrix unit's ranges (R124,
R273). -/
def State.rangeFree (s : State) (load : Bool) (space off n : Nat) (k : State → Out) : Out :=
  s.unless (s.b.hullHit space off n)
    (s.stallWant .scoreFull 1 false s.contBefore (.hulls ((s.b.hullsHit space off n).map Hull.seq))) (fun s =>
    s.unless (s.b.mxHolds load space off n) (s.matrixWait 2 (.range load space off n)) k)

/-- A brick read of a local range: it waits for hulls and result ranges, and a poisoned word traps (R124, R142,
R273). -/
def State.localRead (s : State) (space off n : Nat) (k : State → Out) : Out :=
  s.rangeFree true space off n (fun s =>
    match s.b.checkRead space off n s.b.t.ctx with
    | (b, none) => k (s.onB (fun _ => b))
    | (b, some w) => .next ((s.onB (fun _ => b)).poisonedLocal space w))

/-- A brick write of a local range waits for hulls and unreleased ranges (R124, R273). -/
def State.localWrite (s : State) (space off n : Nat) (k : State → Out) : Out := s.rangeFree false space off n k

/-- An operation of a power class: over-draw while a lower class is held; the highest class triggered is noted for the window
(R402, R404). -/
def State.powered (s : State) (cls : Nat) (k : State → Out) : Out :=
  let k := fun (s : State) => k (s.onB (fun b => { b with hiCls := some (max cls (b.hiCls.getD 0)) }))
  match s.b.cls with
  | some c => s.unless (decide (c < cls)) (s.overdraw c) k
  | none => k s

/-! ## Placing an access (R190, R204) -/

/-- The launch, team, member and phase of the task in focus in deterministic mode (R322, R324). -/
def State.detTuple (s : State) : Option (Nat × Nat × Nat × Nat) :=
  s.b.t.det.map (fun l => (l, s.b.t.team, s.b.t.member, s.b.phase))

/-- An access with nothing but its kind, address and length. -/
def DevOp.basic (kind : DevKind) (va len : Nat) : DevOp :=
  { id := 0, kind := kind, va := va, len := len, data := 0, bytes := 0, dst := .none, acq := false, rel := false,
    scope := 0, ord := 0, tid := 0, ctx := 0, det := none, launch := 0, fill := false, sect := 0, acc := 0, home := 0, kept := none, routed := 0, turn := 0, stage := .issued }

/-- An access placed at the end of the brick's list, for the task in focus. -/
def State.place (s : State) (op : DevOp) : State :=
  let op := { op with
    id := s.b.nextId, tid := s.b.t.tid, ctx := s.b.t.ctx, det := s.detTuple, launch := s.b.t.launch, home := s.b.bid }
  s.onB (fun b => { b with dev := b.dev ++ [op], nextId := b.nextId + 1 })

/-! ## Ends of a run (R194 to R196, R332) -/

/-- `exit` after its bundle: the task leaves, and the exit is reported once its release has been performed (R194). -/
def State.exitTask (s : State) : State :=
  let e : Exit := ⟨s.b.capture, s.b.bid, s.b.pc, s.b.cbi, s.b.r.lp.isSome, s.b.r.br.xfer.isSome⟩
  let s := s.saveReg
  ({ s with exits := s.exits ++ [e] } : State).vacate

/-- The release marker, at system scope, that a departing task leaves in its store path (R309). -/
def State.placeRelease (s : State) : State := s.place { DevOp.basic .marker 0 0 with rel := true, scope := 4 }

/-- The task off its brick with a record state, and ready at once where that state is ready (R195, R196, R335); a record that is
not running stays as it is. -/
def State.departTo (s : State) (cont : Nat) (state : Nat) (reason : Reason) (wake : Nat) : State :=
  let runs := (s.recIn s.b.t.ctx s.b.t.recVa [3]).isSome
  let s := s.placeRelease
  let tk := s.b.capture
  let bid := s.b.bid
  let s := s.onB (fun b => { b with t := { b.t with pin := reason == .wakeWait } })
  let s := (s.leaveRec cont state reason.code wake).saveReg
  let s := s.vacate
  if state = 2 ∧ runs then s.makeReady tk (towerOf bid) (quadOf bid) else s

/-- `yield` after its bundle (R195). -/
def State.yieldTask (s : State) (cont : BitVec 32) : State := s.departTo cont.toNat 2 .none 0

/-- `susp` after its bundle: ready at once when the dependence counter reads zero (R196). -/
def State.suspTask (s : State) (cont : BitVec 32) : State :=
  match s.recAt s.b.t.ctx s.b.t.recVa with
  | some (_, r) =>
    if recDep r = 0 then s.departTo cont.toNat 2 .none 0 else s.departTo cont.toNat 4 .dependence 0
  | none => s.departTo cont.toNat 4 .dependence 0

/-! ## Branches and loops (R176 to R188) -/

/-- Loop indices at a pass: level i of the iteration in stage 0 (R183). -/
def loopIndex (trips : List Nat) (total pass i : Nat) : Nat :=
  let t := min pass (total - 1)
  t / (trips.take i).prod % trips.getD i 1

/-- Indices written at the start of a pass (R183). -/
def setIndices (l : LoopSt) (ix : Vector Word 6) : Vector Word 6 :=
  (List.range l.levels).foldl (fun v i => vset v i (BitVec.ofNat 64 (loopIndex l.trips l.total l.pass i))) ix

/-- Bound guards written at the start of a pass (R183, R185). -/
def setBound (l : LoopSt) (k : BitVec 6) : BitVec 6 :=
  (List.range l.stages).foldl (fun k i => if bit l.bind.toNat i then setGuard k i (l.live i) else k) k

/-- A pass begun (R183). -/
def Brick.beginPass (b : Brick) (l : LoopSt) : Brick :=
  { b with
    pc := BitVec.ofNat 32 l.base
    r := { b.r with lp := some l, ix := setIndices l b.r.ix, k := setBound l b.r.k } }

/-- The pc after a bundle of a loop's body: the next of the pass, the next pass with the rotation advanced, or the
bundle after the body (R183, R186). -/
def Brick.loopNext (b : Brick) (l : LoopSt) : Brick :=
  if l.idx + 1 < l.ii then
    { b with pc := b.pc + 1, r := { b.r with lp := some { l with idx := l.idx + 1 } } }
  else if l.pass + 1 < l.total + l.stages - 1 then
    { b with r := { b.r with rrb := b.r.rrb + 1 } }.beginPass { l with pass := l.pass + 1, idx := 0 }
  else { b with pc := BitVec.ofNat 32 (l.base + l.ii), r := { b.r with lp := none } }

/-- The pc after a bundle that issued with no transfer and no loop of its own: a pending transfer counts one delay
bundle (R178, R183). -/
def Brick.stepPc (b : Brick) : Brick :=
  match b.r.lp with
  | some l => b.loopNext l
  | none =>
    match b.r.br.xfer with
    | some (t, n) =>
      if n ≤ 1 then { b with pc := t, r := { b.r with br := { b.r.br with xfer := none } } }
      else { b with pc := b.pc + 1, r := { b.r with br := { b.r.br with xfer := some (t, n - 1) } } }
    | none => { b with pc := b.pc + 1 }

/-- The pc after the bundle that issued (R178, R183). -/
def Brick.nextPc (b : Brick) (i : Issue) : Brick :=
  match i.jump with
  | some t => { b with pc := b.pc + 1, r := { b.r with br := { b.r.br with xfer := some (t, 3) } } }
  | none =>
    match i.loop with
    | some (some l, _) =>
      { b with r := { b.r with ix := (List.range 6).foldl (fun v j => if l.levels ≤ j then vset v j 0 else v) b.r.ix } }.beginPass l
    | some (none, n) => { b with pc := BitVec.ofNat 32 n }
    | none => b.stepPc

/-! ## The end of a cycle (R153, R154, R156) -/

/-- Whether a deferred write is a system register's, which is made before the flags of the cycle (R58). -/
def Write.isSys : Write → Bool
  | .sys _ _ => true
  | _ => false

/-- Whether a deferred write is that of `nflg`. -/
def Write.isFlags : Write → Bool
  | .sys num _ => num == 0
  | _ => false

/-- `nflg` written by the bundle, before the flags of anything that completes in the cycle are recorded (R58). -/
def Brick.writeFlags (b : Brick) (wr : List Write) : Brick := (wr.filter Write.isFlags).foldl Brick.write b

/-- What ends a domain cycle for the lockstep units: system-register writes, then the operations whose last cycle it
is, then the moves' writes (R58, R154, R156). The register words written are protected anew (R142). -/
def Brick.endCycle (b : Brick) (wr : List Write) : Brick :=
  let b := b.plant 9 (wr.flatMap Write.words ++ (b.r.pipe.filter (fun e => decide (e.left ≤ 1))).flatMap (fun e => e.w.words))
  let b := (wr.filter Write.isSys).foldl Brick.write b
  let b := { b with r := { b.r with pipe := tickPipe b.r.pipe } }.landDue
  (wr.filter (fun w => !w.isSys)).foldl Brick.write b

/-- One clock cycle gone by for the brick in focus, which takes the module's clock where it fell behind (log 2); fabric
time goes on at 20/21 ns a cycle (R365, R438). -/
def State.tickClock (s : State) : State :=
  let s := s.onB (fun b => { b with clk := max (b.clk + 1) s.clk })
  let c := max s.clk s.b.clk
  { s with clk := c, ftime := (s.ftime + (c * 20 / 21 - s.clk * 20 / 21)) % 2 ^ 64, tick := s.tick + 1 }

end Sys2Proof.Machine
end

