-- ==== Sys2Proof/Machine/Address.lean ====
section
/-!
DEFINITION. The address unit (R174, R175).
-/

namespace Sys2Proof.Machine

open Sys2Proof

/-- An address operation: `ag.r` and `ag.n` of the moved value and `ag.o`, with L = 1 (R174). -/
def State.ag (s : State) (gd : Guard) (x : Src) (f : Word → Word → Word × Word) : Out :=
  s.guarded gd (fun s =>
    let p := f (s.src x) (s.opd .ago)
    .next ((s.launchOp 1 (.res .agr p.1)).launchOp 1 (.res .agn p.2)))

/-- The updated base of `ring` (R175). -/
def ringNext (a b : Word) : Word :=
  let M := BitVec.ofNat 64 (2 ^ fld b 63 58 - 1)
  (a &&& ~~~M) ||| ((a + sext b.toNat 32) &&& M)

/-- The low k bits of a cleared (R175). -/
def alignDown (a b : Word) : Word := a &&& ~~~(BitVec.ofNat 64 (2 ^ fld b 5 0 - 1))

/-- `add` (R175). -/
def execAgAdd (gd : Guard) (x : Src) (s : State) : Out := s.ag gd x (fun a b => (a + b, a))

/-- `idx` (R175). -/
def execAgIdx (gd : Guard) (x : Src) (s : State) : Out :=
  s.ag gd x (fun a b => (a + sext b.toNat 32 * BitVec.ofNat 64 (2 ^ fld b 34 32), a))

/-- `post` (R175). -/
def execAgPost (gd : Guard) (x : Src) (s : State) : Out := s.ag gd x (fun a b => (a, a + b))

/-- `pre` (R175). -/
def execAgPre (gd : Guard) (x : Src) (s : State) : Out := s.ag gd x (fun a b => (a + b, a + b))

/-- `ring` (R175). -/
def execAgRing (gd : Guard) (x : Src) (s : State) : Out := s.ag gd x (fun a b => (a, ringNext a b))

/-- `align` (R175). -/
def execAgAlign (gd : Guard) (x : Src) (s : State) : Out :=
  s.ag gd x (fun a b => (alignDown a b, alignDown a b + BitVec.ofNat 64 (2 ^ fld b 5 0)))

/-- `slot` (R175). -/
def execAgSlot (gd : Guard) (x : Src) (s : State) : Out :=
  s.ag gd x (fun a b => (BitVec.ofNat 64 (4096 * (a.toNat % 256) + b.toNat % 4096),
    BitVec.ofNat 64 ((a.toNat + 1) % 256)))

/-- `acc` (R175). -/
def execAgAcc (gd : Guard) (x : Src) (s : State) : Out :=
  s.ag gd x (fun a b =>
    (BitVec.ofNat 64 (0x40000 * fld b 8 8 + 1024 * (a.toNat % 256) + 4 * fld b 7 0), a + 1))

end Sys2Proof.Machine
end

