-- ==== Sys2Proof/Machine/Branch.lean ====
section
/-!
DEFINITION. The branch unit and `br.loop` (R176 to R188).
-/

namespace Sys2Proof.Machine

open Sys2Proof

/-- Illegal-operation cause of a transfer or loop where none may stand: 0x3 in a delay bundle, 0x4 in a loop's body
(R180, R187). -/
def State.transferBar (s : State) : Option Nat :=
  if s.b.r.br.xfer.isSome then some 3 else if s.b.r.lp.isSome then some 4 else none

/-- A transfer that may stand here, under its guard. -/
def State.transfer (s : State) (gd : Guard) (f : State → Out) : Out :=
  s.guarded gd (fun s =>
    match s.transferBar with
    | some c => .next (s.illegal c)
    | none => f s)

/-- Branch state written at the end of the cycle, where the bundle's own transfers have read the old one (R177). DEDUCED: a bundle holds
one `br` trigger at most, since a second trigger of a unit traps (R159, cause 0x7), so nothing else reads it there; R177's sentence on one
bundle and the section's example with `br.tgt` and `br.clt` in bundle 20 say otherwise, and the model follows R159 (log 131). -/
def State.setBr (s : State) (f : Br → Br) : State := s.onR (fun r => { r with br := f r.br })

/-- A comparison into `bc` (R177). -/
def State.compare (s : State) (gd : Guard) (x : Src) (p : Word → Word → Bool) : Out :=
  s.guarded gd (fun s =>
    let c := p (s.src x) (s.opd .bro)
    .next (s.setBr (fun b => { b with bc := c })))

/-- `tgt` (R177). -/
def execBrTgt (gd : Guard) (x : Src) (s : State) : Out :=
  s.guarded gd (fun s =>
    if fld (s.src x) 63 32 ≠ 0 then .next (s.illegal 2)
    else .next (s.setBr (fun b => { b with bt := (s.src x).extractLsb' 0 32 })))

/-- `ceq` (R177). -/
def execBrCeq (gd : Guard) (x : Src) (s : State) : Out := s.compare gd x (fun a b => a == b)

/-- `cne` (R177). -/
def execBrCne (gd : Guard) (x : Src) (s : State) : Out := s.compare gd x (fun a b => a != b)

/-- `clt` (R177). -/
def execBrClt (gd : Guard) (x : Src) (s : State) : Out := s.compare gd x (fun a b => decide (a.toInt < b.toInt))

/-- `cge` (R177). -/
def execBrCge (gd : Guard) (x : Src) (s : State) : Out := s.compare gd x (fun a b => decide (b.toInt ≤ a.toInt))

/-- `cltu` (R177). -/
def execBrCltu (gd : Guard) (x : Src) (s : State) : Out := s.compare gd x (fun a b => decide (a.toNat < b.toNat))

/-- `cgeu` (R177). -/
def execBrCgeu (gd : Guard) (x : Src) (s : State) : Out := s.compare gd x (fun a b => decide (b.toNat ≤ a.toNat))

/-- `jmp` (R177, R178). -/
def execBrJmp (gd : Guard) (_x : Src) (s : State) : Out :=
  s.transfer gd (fun s => .next (s.onIss (fun i => { i with jump := some s.b.r.br.bt })))

/-- `jt` (R177, R178). -/
def execBrJt (gd : Guard) (_x : Src) (s : State) : Out :=
  s.transfer gd (fun s =>
    if s.b.r.br.bc then .next (s.onIss (fun i => { i with jump := some s.b.r.br.bt })) else .next s)

/-- `call`: the link is the bundle after the delay (R177, R179). -/
def execBrCall (gd : Guard) (_x : Src) (s : State) : Out :=
  s.transfer gd (fun s =>
    .next ((s.onIss (fun i => { i with jump := some s.b.r.br.bt })).launchOp 1
      (.res .brl ((s.b.pc + 4).zeroExtend 64))))

/-- `ret` (R177, R179). -/
def execBrRet (gd : Guard) (x : Src) (s : State) : Out :=
  s.guarded gd (fun s =>
    if fld (s.src x) 63 32 ≠ 0 then .next (s.illegal 2)
    else match s.transferBar with
      | some c => .next (s.illegal c)
      | none => .next (s.onIss (fun i => { i with jump := some ((s.src x).extractLsb' 0 32) })))

/-- Whether a loop descriptor breaks R182. -/
def loopBad (d : Word) : Bool :=
  decide (fld d 63 17 ≠ 0) || decide (5 < fld d 16 14) || decide (5 < fld d 7 5) ||
  decide (fld d 13 8 / 2 ^ (fld d 7 5 + 1) ≠ 0)

/-- `loop` (R182, R183, R187). -/
def execBrLoop (gd : Guard) (x : Src) (s : State) : Out :=
  s.guarded gd (fun s =>
    let d := s.src x
    if loopBad d then .next (s.illegal 2)
    else match s.transferBar with
      | some c => .next (s.illegal c)
      | none =>
        let levels := fld d 16 14 + 1
        let trips := (List.range levels).map (fun i => (s.readG (8 + i)).toNat)
        let N := trips.prod
        let ii := fld d 4 0 + 1
        let base := s.b.pc.toNat + 1
        if trips.any (fun t => decide (2 ^ 32 ≤ t)) || decide (2 ^ 48 ≤ N) then .next (s.illegal 5)
        else if N = 0 then .next (s.onIss (fun i => { i with loop := some (none, base + ii) }))
        else
          let l : LoopSt := { base := base, ii := ii, stages := fld d 7 5 + 1, bind := d.extractLsb' 8 6,
                              levels := levels, trips := trips, total := N, pass := 0, idx := 0, lbuf := [] }
          .next (s.onIss (fun i => { i with loop := some (some l, base) })))

end Sys2Proof.Machine
end

