-- ==== Sys2Proof/Machine/Command.lean ====
section
/-!
DEFINITION. Engine commands (R113 to R117): their fields, the addresses of their nests, and their hulls.
-/

namespace Sys2Proof.Machine

open Sys2Proof

/-! ## Fields (R113) -/

/-- Bits [hi:lo] of a command. -/
def Cmd.f (c : Cmd) (hi lo : Nat) : Nat := bits c.raw.toNat hi lo
/-- Operation. -/
def Cmd.op (c : Cmd) : Nat := c.f 3 0
/-- Source space. -/
def Cmd.ss (c : Cmd) : Nat := c.f 6 4
/-- Destination space. -/
def Cmd.ds (c : Cmd) : Nat := c.f 9 7
/-- Layout transform. -/
def Cmd.xform (c : Cmd) : Nat := c.f 11 10
/-- Format code. -/
def Cmd.fmtCode (c : Cmd) : Nat := c.f 15 12
/-- Format. -/
def Cmd.fmt (c : Cmd) : Fmt := (Fmt.ofCode c.fmtCode).getD .int8
/-- No scales carried. -/
def Cmd.nos (c : Cmd) : Bool := bit c.raw.toNat 16
/-- Completion action. -/
def Cmd.act (c : Cmd) : Nat := c.f 19 17
/-- Source base. -/
def Cmd.src (c : Cmd) : Nat := c.f 94 43
/-- Destination base. -/
def Cmd.dst (c : Cmd) : Nat := c.f 146 95
/-- aux. -/
def Cmd.aux (c : Cmd) : Nat := c.f 198 147
/-- aux2. -/
def Cmd.aux2 (c : Cmd) : Nat := c.f 250 199
/-- Target address. -/
def Cmd.target (c : Cmd) : Nat := c.f 296 251 * 64

/-- Trip count of level l, 0 innermost (R113, R115). -/
def Cmd.trips (c : Cmd) (l : Nat) : Nat := c.f (297 + 43 * l + 10) (297 + 43 * l) + 1

/-- Stride of level l in bytes, on the source side or the destination side (R113). -/
def Cmd.stride (c : Cmd) (dst : Bool) (l : Nat) : Int :=
  let b := 297 + 43 * l
  if dst then sextInt (c.f (b + 42) (b + 27)) 16 * (2 ^ c.f 27 24 : Nat)
  else sextInt (c.f (b + 26) (b + 11)) 16 * (2 ^ c.f 23 20 : Nat)

/-- Bytes of a block of 32 elements on either side (R43, R115). -/
def Cmd.blk (c : Cmd) : Nat := 4 * c.fmt.width

/-- Units of a run: bytes, or blocks with a transform (R113). -/
def Cmd.run (c : Cmd) : Nat := c.f 42 28 + 1

/-- Bytes of a unit. -/
def Cmd.unit (c : Cmd) : Nat := if c.xform = 0 then 1 else c.blk

/-- Runs of the nest (R115). -/
def Cmd.runs (c : Cmd) : Nat := (List.range 5).foldl (fun n l => n * c.trips l) 1

/-- Offset of run k on a side (R115). -/
def Cmd.runOff (c : Cmd) (dst : Bool) (k : Nat) : Int :=
  ((List.range 5).foldl (fun (r : Int × Nat) l =>
    (r.1 + (r.2 % c.trips l : Nat) * c.stride dst l, r.2 / c.trips l)) (0, k)).1

/-- Lowest and highest byte of a side's nest, relative to its base (R116). -/
def Cmd.extent (c : Cmd) (dst : Bool) : Int × Int :=
  (List.range 5).foldl (fun (r : Int × Int) l =>
    let d := c.stride dst l * (c.trips l - 1 : Nat)
    (r.1 + min 0 d, r.2 + max 0 d)) (0, (c.run * c.unit - 1 : Nat))

/-! ## Local sides (R114, R117) -/

/-- Whether a space code names a local store. -/
def isLocal (sp : Nat) : Bool := decide (2 ≤ sp) && decide (sp ≤ 4)

/-- Brick of a local address. -/
def addrBrick (a : Nat) : Nat := bits a 29 20
/-- Offset of a local address. -/
def addrOff (a : Nat) : Nat := bits a 19 0

/-- A hull of local bytes: brick, space, lowest and highest offset. -/
structure LHull where
  brick : Nat
  space : Nat
  lo : Int
  hi : Int
  deriving DecidableEq, Repr

/-- The side whose layout is plane-major: the destination of xform 1, the source of xform 2 (R117). -/
def Cmd.planeDst (c : Cmd) : Bool := c.xform == 1

/-- The local hull of a side. A gather's source follows its indices, and its hull is the whole store (log 27). -/
def Cmd.sideHull (c : Cmd) (dst : Bool) : List LHull :=
  let sp := if dst then c.ds else c.ss
  let a := if dst then c.dst else c.src
  if !isLocal sp then []
  else if !dst && c.op == 1 then [⟨addrBrick a, sp - 2, 0, spaceSize (sp - 2) - 1⟩]
  else
    let (lo, hi) := c.extent dst
    [⟨addrBrick a, sp - 2, addrOff a + lo, addrOff a + hi⟩]

/-- The hull of the pairs of a local plane-major side (R117). -/
def Cmd.pairHull (c : Cmd) : List LHull :=
  let sp := if c.planeDst then c.ds else c.ss
  let a := if c.planeDst then c.dst else c.src
  if c.xform = 0 ∨ !isLocal sp then []
  else
    let (lo, hi) := c.extent c.planeDst
    let w : Int := c.blk
    [⟨addrBrick a, 2, addrOff c.aux2 + 2 * (lo / w), addrOff c.aux2 + 2 * ((hi + 1) / w) - 1⟩]

/-- The hull of the scales of a local element-major side (R117). -/
def Cmd.scaleHull (c : Cmd) : List LHull :=
  let sp := if c.planeDst then c.ss else c.ds
  if c.xform = 0 ∨ !isLocal sp ∨ c.nos then []
  else
    let (lo, hi) := c.extent (!c.planeDst)
    let w : Int := c.blk
    [⟨addrBrick c.aux, sp - 2, addrOff c.aux + lo / w, addrOff c.aux + (hi + 1) / w - 1⟩]

/-- Every local hull of a command (R116, R124): at most four. -/
def Cmd.hulls (c : Cmd) : List LHull := c.sideHull false ++ c.sideHull true ++ c.pairHull ++ c.scaleHull

/-- Scoreboard number of a command. -/
def Cmd.scoreSeq (c : Cmd) : Nat := 2 * c.seq

/-- The entries a command of a brick makes in that brick's range scoreboard (R124). -/
def Cmd.scoreOf (c : Cmd) : List Hull :=
  (c.hulls.filter (fun h => h.brick == c.brick)).map (fun h => ⟨h.space, h.lo.toNat, h.hi.toNat, c.scoreSeq⟩)

end Sys2Proof.Machine
end

