-- ==== Sys2Proof/Machine/LoadStore.lean ====
section
/-!
DEFINITION. The load-store unit (R197 to R215, R221): local loads and stores, device loads and stores, atomics, chained
loads and the tag table. A device access is placed in the brick's list of accesses; the slice events perform it.
-/

namespace Sys2Proof.Machine

open Sys2Proof

/-! ## Checks (R198 to R200, R226) -/

/-- Cause 0x2 where a check of the trigger's value or descriptor fails (R159, R199). -/
def State.valid (s : State) (bad : Bool) (k : State → Out) : Out := if bad then .next (s.illegal 2) else k s

/-- Cause 0x2 where a limit of the operation's own fails (R159, R450). -/
def State.limit (s : State) (bad : Bool) (k : State → Out) : Out := if bad then .next s.beyond else k s

/-- Cause 0x6 for an operation that deterministic mode refuses (R226, R326). -/
def State.refuseDet (s : State) (k : State → Out) : Out := if s.isDet then .next (s.illegal 6) else k s

/-- The alignment check (R200). -/
def State.aligned (s : State) (a : Word) (align : Nat) (k : State → Out) : Out :=
  if a.toNat % align ≠ 0 then .next (s.misaligned a align) else k s

/-- Reserved bits of the device descriptor (R199). -/
def descBad (d : Word) : Bool := decide (fld d 63 20 ≠ 0)

/-- A v register index in the descriptor (R199). -/
def vregBad (d : Word) : Bool := bit d.toNat 5

/-- A reserved scope code (R198, R199). -/
def scopeBad (d : Word) : Bool := decide (4 < fld d 19 17)

/-- Lanes that the descriptor selects (R199, R202). -/
def State.descLanes (s : State) (d : Word) : Word := if bit d.toNat 9 then s.readM (fld d 8 6) else -1

/-! ## The wait of deterministic mode (R325) -/

/-- The tokens that keep a bundle of the task back: of its handler while it is in one. -/
def State.detTokens (s : State) : List Token :=
  s.toks.filter (fun t => match t.who with
    | .det tid _ handler => tid == s.b.t.tid && handler == s.b.y.inh
    | _ => false)

/-- A fault met by the checks: kind 0x0 keeps the bundle from issuing under a token, and any other traps it. A full
fault queue keeps it back too (R99, R325). -/
def State.detFault (s : State) (va path kind rc level : Nat) (pte : Word) : State :=
  let tower := s.faultTower s.b.dataLook s.b.t.ctx va kind (towerOf s.b.bid)
  let wait := fun (s : State) (tok : Nat) => s.stallFor .detCheck tok false s.contBefore
  match s.detTokens.find? (fun t => t.va == va) with
  | some t => wait s t.tok
  | none =>
    if !s.faultRoom tower then wait s 0xFFFF
    else if kind = 0 then
      let (tok, s) := s.park (.det s.b.t.tid path s.b.y.inh) va
      wait (s.postFault tower (faultRecord s.clk pte.toNat tok s.b.bid s.b.t.ctx rc level kind path va)) tok
    else
      (s.postFault tower (faultRecord s.clk pte.toNat 0xFFFF s.b.bid s.b.t.ctx rc level kind path va)).raise 4
        { plainTrap 5 4 with addr := BitVec.ofNat 64 (va % 2 ^ 52), aux := 0xFFFF, path := path, fkind := kind }

/-- The checks of deterministic mode before an access issues: its page translated, its lines checked and marked
(R324, R325). -/
def State.detGate (s : State) (va n : Nat) (use : Use) (rd wr : Bool) (path : Nat) (k : State → Out) : Out :=
  if !s.isDet then k s
  else
    match s.xlate s.b.dataLook s.b.t.ctx va use false with
    | .error (kind, rc, level, pte) => .next (s.detFault va path kind rc level pte)
    | .ok pa =>
      match s.detCheck pa n s.detTuple rd wr with
      | .error (line, tag) => .next (s.raise 4 (detReport line tag))
      | .ok s => k s

/-! ## The replay queue (R100, R101) -/

/-- Whether an access enters the replay queue: a store, an atomic, or a task operation that writes (R100, R348). -/
def DevKind.isWrite : DevKind → Bool
  | .store => true
  | .amo _ _ _ _ _ => true
  | .tspawn => true
  | .tdec => true
  | .tinc _ => true
  | .tkill _ => true
  | _ => false

/-- Whether an access is parked. -/
def DevOp.isParked (op : DevOp) : Bool :=
  match op.stage with
  | .parked _ => true
  | _ => false

/-- Stores and atomics in the replay queue: the parked ones, and those to a page with a parked one (R100). -/
def Brick.replay (b : Brick) : List DevOp :=
  let parked := b.dev.filter (fun op => op.kind.isWrite && op.isParked)
  b.dev.filter (fun op => op.kind.isWrite && (op.isParked ||
    (op.stage == .issued && parked.any (fun p => p.ctx == op.ctx && p.va / 4096 == op.va / 4096 && decide (p.id < op.id)))))

/-- Stores and atomics that have an entry of the replay queue or will need one: those in it, and those issued whose page
is not present now or has such a one before it (R100, R101). -/
def State.replayNeeds (s : State) (b : Brick) : List DevOp :=
  let absent := fun (op : DevOp) => match s.xlate b.dataLook op.ctx op.va .write false with
    | .error (0, _, _, _) => true
    | _ => false
  let first := b.dev.filter (fun op => op.kind.isWrite && (op.isParked || (op.stage == .issued && absent op)))
  b.dev.filter (fun op => op.kind.isWrite && (op.isParked || op.stage == .issued) &&
    first.any (fun p => p.ctx == op.ctx && p.va / 4096 == op.va / 4096 && decide (p.id ≤ op.id)))

/-- A store or atomic that would need an entry of a full replay queue stalls (R101). -/
def State.replayRoom (s : State) (va : Nat) (k : State → Out) : Out :=
  let q := s.replayNeeds s.b
  let needs := fun (s : State) =>
    q.any (fun p => p.ctx == s.b.t.ctx && p.va / 4096 == va / 4096) ||
    (match s.xlate s.b.dataLook s.b.t.ctx va .write false with
      | .error (0, _, _, _) => true
      | _ => false)
  s.unless (decide (16 ≤ q.length) && needs s) (s.stallFor .replayFull 0 false s.contBefore) k

/-! ## Local loads and stores (R200, R202) -/

/-- A local access of n bytes under its guard, with the checks of R200. -/
def State.local (s : State) (gd : Guard) (x : Src) (n : Nat) (vec : Bool) (f : Nat → Nat → State → Out) : Out :=
  s.guarded gd (fun s =>
    let a := s.src x
    let d := s.opd .lsa
    s.valid ((vec && (descBad d || vregBad d)) || decide (fld a 63 22 ≠ 0) || decide (fld a 21 20 = 3)) (fun s =>
      s.limit (!inSpace (fld a 21 20) (fld a 19 0) n) (fun s => s.aligned a n (f (fld a 21 20) (fld a 19 0)))))

/-- Bytes as a result, sign- or zero-extended. -/
def extend (signed : Bool) (n v : Nat) : Word := if signed then sext v (8 * n) else zext v (8 * n)

/-- `sld` (R202). -/
def State.sld (s : State) (gd : Guard) (x : Src) (n : Nat) (signed : Bool) : Out :=
  s.local gd x n false (fun sp off s => s.localRead sp off n (fun s =>
    .next (s.launchOp 4 (.res .lsr (extend signed n (s.b.loc.readNat sp off n))))))

/-- `sst` (R202). -/
def State.sst (s : State) (gd : Guard) (x : Src) (n : Nat) : Out :=
  s.local gd x n false (fun sp off s => s.localWrite sp off n (fun s =>
    .next (s.onB (fun b => b.packet sp off (toBytes n (s.opd .lsd).toNat) b.bid true))))

/-- The lanes of a 256-byte access checked for errors: the brick afterwards, and the first poisoned word (R142). -/
def Brick.checkLanes (b : Brick) (space off : Nat) (sel : Word) (ctx : Nat) : Brick × Option Nat :=
  if b.ecc = [] ∧ b.lpois = [] then (b, none)
  else
    (List.range 64).foldl (fun r j =>
      if laneSel sel j then
        let (b, w) := r.1.checkRead space (off + 4 * j) 4 ctx
        (b, r.2.or w)
      else r) (b, none)

/-- The waits of a brick read of a local range, without the check of its words (R124, R273). -/
def State.localFree (s : State) (space off n : Nat) (k : State → Out) : Out :=
  s.rangeFree true space off n k

/-- `svld` (R202). -/
def execLsSvld (gd : Guard) (x : Src) (s : State) : Out :=
  s.local gd x 256 true (fun sp off s => s.localFree sp off 256 (fun s =>
    let d := s.opd .lsa
    let sel := s.descLanes d
    match s.b.checkLanes sp off sel s.b.t.ctx with
    | (b, some w) => .next ((s.onB (fun _ => b)).poisonedLocal sp w)
    | (b, none) =>
      .next ((s.onB (fun _ => b)).launchOp 4
        (.vec (physV s.b.r.rrb (fld d 5 0)) sel (BitVec.ofNat 2048 (s.b.loc.readNat sp off 256))))))

/-- One word of two lanes of a local vector store: both lanes at once where both are selected (R142, R202). -/
def Brick.storePair (b : Brick) (sp off : Nat) (sel : Word) (v : Vec) (i : Nat) : Brick :=
  let x := fun (j n : Nat) => b.packet sp (off + 4 * j) (toBytes n (v.toNat / 2 ^ (32 * j))) b.bid true
  match laneSel sel (2 * i), laneSel sel (2 * i + 1) with
  | true, true => x (2 * i) 8
  | true, false => x (2 * i) 4
  | false, true => x (2 * i + 1) 4
  | false, false => b

/-- `svst` (R202). -/
def execLsSvst (gd : Guard) (x : Src) (s : State) : Out :=
  s.local gd x 256 true (fun sp off s => s.localWrite sp off 256 (fun s =>
    let d := s.opd .lsa
    let sel := s.descLanes d
    let v := s.readV (fld d 5 0)
    .next (s.onB (fun b => (List.range 32).foldl (fun b i => b.storePair sp off sel v i) b))))

/-! ## Device loads (R204 to R206) -/

/-- A device load: descriptor checks, alignment, counter, deterministic checks, and the access placed (R199, R200,
R204). -/
def State.devLoad (s : State) (gd : Guard) (x : Src) (n : Nat) (bad : Word → Bool) (acq : Bool) (kind : DevKind)
    (dst : State → Word → Dest) : Out :=
  s.guarded gd (fun s =>
    let a := s.src x
    let d := s.opd .lsa
    s.valid (descBad d || bad d) (fun s =>
      (if acq then s.refuseDet else fun k => k s) (fun s =>
        s.aligned a n (fun s => s.counted .ld 1 (fun s => s.detGate a.toNat n .read true false 0 (fun s =>
          .next (s.place { DevOp.basic kind a.toNat n with dst := dst s d, acq := acq, scope := fld d 19 17
                                                           fill := !acq })))))))

/-- The physical g register that a descriptor names (R186, R204). -/
def State.destG (s : State) (d : Word) : Dest := .g (physG s.b.r.rrb (fld d 5 0))

/-- A scalar device load (R201, R204). -/
def State.ld (s : State) (gd : Guard) (x : Src) (n : Nat) (signed : Bool) : Out :=
  s.devLoad gd x n (fun _ => false) false (.load signed) State.destG

/-- `ld.q` (R201, R204). -/
def execLsLdQ (gd : Guard) (x : Src) (s : State) : Out :=
  s.devLoad gd x 16 (fun d => bit d.toNat 0) false (.load false)
    (fun s d => .gq (physG s.b.r.rrb (fld d 5 0)) (physG s.b.r.rrb (fld d 5 0 + 1)))

/-- `vld` (R201, R202, R204). -/
def execLsVld (gd : Guard) (x : Src) (s : State) : Out :=
  s.devLoad gd x 256 vregBad false (.load false)
    (fun s d => .v (physV s.b.r.rrb (fld d 5 0)) (s.descLanes d))

/-- `ld.w.acq` (R206). -/
def execLsLdWAcq (gd : Guard) (x : Src) (s : State) : Out :=
  s.devLoad gd x 4 scopeBad true (.load true) State.destG

/-- `ld.d.acq` (R206). -/
def execLsLdDAcq (gd : Guard) (x : Src) (s : State) : Out :=
  s.devLoad gd x 8 scopeBad true (.load false) State.destG

/-! ## Device stores (R204, R205, R207) -/

/-- Byte mask of the low n bytes. -/
def lowBytes (n : Nat) : BitVec 256 := BitVec.ofNat 256 (2 ^ n - 1)

/-- Byte mask of selected lanes. -/
def laneBytes (sel : Word) : BitVec 256 :=
  BitVec.ofNat 256 (pack 4 (fun j => if laneSel sel j then 15 else 0) 64)

/-- A device store: checks, alignment, replay room, counter, deterministic checks, and the access placed. -/
def State.devStore (s : State) (gd : Guard) (x : Src) (n : Nat) (bad : Word → Bool) (rel : Bool)
    (data : State → Word → Nat × BitVec 256) : Out :=
  s.guarded gd (fun s =>
    let a := s.src x
    let d := s.opd .lsa
    s.valid (bad d) (fun s =>
      (if rel then s.refuseDet else fun k => k s) (fun s =>
        s.aligned a n (fun s => s.replayRoom a.toNat (fun s => s.counted .st 1 (fun s =>
          s.detGate a.toNat n .write false true 1 (fun s =>
            .next (s.place { DevOp.basic .store a.toNat n with data := (data s d).1, bytes := (data s d).2, rel := rel
                                                               scope := fld d 19 17 }))))))))

/-- A scalar device store of the low bytes of `ls.d`. -/
def State.st (s : State) (gd : Guard) (x : Src) (n : Nat) : Out :=
  s.devStore gd x n (fun _ => false) false (fun s _ => ((s.opd .lsd).toNat % 2 ^ (8 * n), lowBytes n))

/-- `st.q` (R201). -/
def execLsStQ (gd : Guard) (x : Src) (s : State) : Out :=
  s.devStore gd x 16 (fun _ => false) false
    (fun s _ => ((s.opd .lsd).toNat + 2 ^ 64 * (s.opd .lsx).toNat, lowBytes 16))

/-- `vst` (R201, R202). -/
def execLsVst (gd : Guard) (x : Src) (s : State) : Out :=
  s.devStore gd x 256 (fun d => descBad d || vregBad d) false
    (fun s d => ((s.readV (fld d 5 0)).toNat, laneBytes (s.descLanes d)))

/-- A release store (R207). -/
def State.stRel (s : State) (gd : Guard) (x : Src) (n : Nat) : Out :=
  s.devStore gd x n (fun d => descBad d || scopeBad d) true
    (fun s _ => ((s.opd .lsd).toNat % 2 ^ (8 * n), lowBytes n))

/-- `st.w.rel` (R207). -/
def execLsStWRel (gd : Guard) (x : Src) (s : State) : Out := s.stRel gd x 4

/-- `st.d.rel` (R207). -/
def execLsStDRel (gd : Guard) (x : Src) (s : State) : Out := s.stRel gd x 8

/-- `rst.d`: a store into another brick's local stores (R203, R326). -/
def execLsRstD (gd : Guard) (x : Src) (s : State) : Out :=
  s.guarded gd (fun s =>
    let a := s.src x
    let brick := fld a 39 30
    let sp := fld a 21 20
    let off := fld a 19 0
    s.valid (decide (fld a 63 40 ≠ 0) || decide (fld a 29 22 ≠ 0) || decide (sp = 3)) (fun s =>
      s.limit (!s.inService brick || !inSpace sp off 8) (fun s =>
        s.refuseDet (fun s => s.aligned a 8 (fun s => s.counted .st 1 (fun s =>
          .next (s.place { DevOp.basic (.rst brick sp off) 0 8 with data := (s.opd .lsd).toNat, bytes := lowBytes 8 })))))))

/-! ## Atomics (R209, R210) -/

/-- Plain loads, which may fill the snapshot cache. -/
def DevKind.isDevLoad : DevKind → Bool
  | .load _ => true
  | _ => false

/-- Whether two ranges touch one line. -/
def sameLine (a n b m : Nat) : Bool := decide (a / 64 ≤ (b + m - 1) / 64) && decide (b / 64 ≤ (a + n - 1) / 64)

/-- Whether a load under way has read, or has been sent to read, one of some physical lines: where it has been read it names its
bytes in `data`, and of one read in part the place in its page is known (R310, R321). -/
def DevOp.readsLine (e : DevOp) (ls : List Nat) : Bool :=
  match e.stage with
  | .performed _ _ => (linesOf e.data e.len).any ls.contains
  | .remote _ => (linesOf e.data e.len).any ls.contains
  | _ => decide (e.sect ≠ 0) && (linesOf (e.va % 4096) e.len).any (fun l => ls.any (fun x => x % 4096 == l))

/-- Fills under way of some lines no longer enter the snapshot cache: of those that a range of virtual addresses touches, and of
those lines under any other address (R140, R310). -/
def Brick.cancelFills (b : Brick) (ctx : Nat) (ls : List Nat) (va n : Nat) : Brick :=
  { b with dev := b.dev.map (fun e =>
      if e.ctx == ctx && e.kind.isDevLoad && decide (0 < e.len) && (sameLine e.va e.len va n || e.readsLine ls) then { e with fill := false } else e) }

/-- Lines of a context dropped from a brick's snapshot cache, and fills of them under way cancelled. -/
def Brick.dropLines (b : Brick) (ctx : Nat) (ls : List Nat) (va n : Nat) : Brick :=
  { b with snap := b.snap.filter (fun l => !(l.ctx == ctx && ls.contains l.line)) }.cancelFills ctx ls va n

/-- The lines that hold an atomic's bytes out of the snapshot cache as it issues, fills of them under way included (R295). -/
def State.dropAtomic (s : State) (va n : Nat) : State :=
  let ls := match s.look s.b.dataLook s.b.t.ctx va with
    | .leaf pte pva _ => linesOf (leafPa pte pva va) n
    | .fault _ _ _ _ => []
  s.onB (fun b => b.dropLines b.t.ctx ls va n)

/-- An atomic: checks, alignment, replay room, counter, deterministic checks, and the access placed (R199, R209). -/
def State.amo (s : State) (gd : Guard) (x : Src) (op : AmoOp) (comb : Bool) : Out :=
  s.guarded gd (fun s =>
    let a := s.src x
    let d := s.opd .lsa
    let ord := fld d 16 14
    let n := 4 + 4 * fld d 13 13
    s.valid (descBad d || decide (4 < ord) || (decide (ord ≠ 0) && scopeBad d) || (op == .fadd && bit d.toNat 13))
      (fun s =>
      (if decide (ord ≠ 0) || (op == .fadd && comb) then s.refuseDet else fun k => k s) (fun s =>
        s.aligned a n (fun s => s.replayRoom a.toNat (fun s => s.counted .st 1 (fun s =>
          s.detGate a.toNat n .write true true 1 (fun s =>
            let nr := bit d.toNat 12
            .next ((s.dropAtomic a.toNat n).place { DevOp.basic (.amo op comb (fld d 11 10) nr ((s.opd .lsx).toNat % 2 ^ (8 * n))) a.toNat n with
              data := (s.opd .lsd).toNat % 2 ^ (8 * n), dst := if nr then .none else s.destG d
              acq := ord == 1 || ord == 3 || ord == 4, rel := ord == 2 || ord == 3 || ord == 4
              ord := ord, scope := fld d 19 17 }))))))))

/-! ## Chained loads (R211 to R214) -/

/-- Whether the header of a chain block has a reserved bit set, or counts outside their limits (R211). -/
def chainBad (h : Nat) : Bool :=
  decide (bits h 255 176 ≠ 0) || decide (bits h 171 170 ≠ 0) || bit h 167 || decide (bits h 159 128 ≠ 0) ||
  decide (bits h 63 52 ≠ 0) || decide (bits h 163 160 = 0) || decide (8 < bits h 163 160) ||
  decide (bits h 163 160 ≤ bits h 166 164)

/-- Mask and offset of step i in the block's step bytes (R211). -/
def chainStep (steps i : Nat) : Nat × Nat := (elem steps 64 (2 * i), elem steps 64 (2 * i + 1))

/-- The value a step computes from what it loads (R212). -/
def chainValue (steps i v : Nat) : Nat := ((v &&& (chainStep steps i).1) + (chainStep steps i).2) % 2 ^ 64

/-- The checks of deterministic mode for every step of a chain, while the chain would go on (R212, R325). -/
def State.chainGate (s : State) (steps n : Nat) (k : State → Out) : Nat → Nat → Nat → Out
  | 0, _, _ => k s
  | fuel + 1, i, ad =>
    if n ≤ i ∨ ad % 8 ≠ 0 then k s
    else s.detGate ad 8 .write true false 8 (fun s =>
      let v := match s.xlate s.b.dataLook s.b.t.ctx ad .write false with
        | .ok pa => ofBytes (s.readPhys pa 8)
        | .error _ => 0
      let t := chainValue steps i v
      if 2 ^ 52 ≤ t then k s else s.chainGate steps n k fuel (i + 1) t)

/-- Scoreboard number of the block of a brick's chain. -/
def chainSeq (n id : Nat) : Nat := 2 * (1024 * id + n) + 1

/-- `chld` (R211, R303). -/
def execLsChld (gd : Guard) (x : Src) (s : State) : Out :=
  s.guarded gd (fun s =>
    let a := s.src x
    let off := fld a 19 0
    let d := s.opd .lsa
    s.valid (decide (fld a 63 20 ≠ 0) || descBad d) (fun s => s.limit (!inSpace 0 off 32) (fun s => s.localRead 0 off 32 (fun s =>
      let h := s.b.loc.readNat 0 off 32
      let n := bits h 163 160
      let len := 32 + 16 * n
      s.limit (chainBad h || !inSpace 0 off len) (fun s => s.aligned a 32 (fun s => s.counted .ld 1 (fun s =>
        s.localRead 0 off len (fun s =>
          let steps := s.b.loc.readNat 0 (off + 32) (16 * n)
          let first := bits h 166 164
          let ad := bits h 51 0
          let issue := fun (s : State) =>
            let id := s.b.nextId
            Host.Outcome.next ((s.place { DevOp.basic (.chain off n first (BitVec.ofNat 64 (bits h 127 64))) ad 8 with
              data := steps, dst := s.destG d }).onB (fun b =>
                { b with score := b.score ++ [⟨0, off, off + len - 1, chainSeq s.b.bid id⟩] }))
          if s.isDet then s.chainGate steps n issue 8 first ad else issue s))))))))

/-! ## Tag table and arming comparators (R215, R221) -/

/-- A read of tag entries, whose uncorrectable error ends the task (R142). -/
def State.readTags (s : State) (entries : List Nat) (k : State → Out) : Out :=
  match s.b.checkTags entries s.b.t.ctx with
  | (b, none) => k (s.onB (fun _ => b))
  | (b, some e) => .next ((s.onB (fun _ => b)).machineCheck (8 * e.word) 8 (syndromeOf 8 e.bits))

/-- `tlk` (R135, R215). -/
def execLsTlk (gd : Guard) (x : Src) (s : State) : Out :=
  s.guarded gd (fun s =>
    let a := s.src x
    s.valid (decide (fld a 63 40 ≠ 0)) (fun s => s.readTags (List.range 256) (fun s =>
      let (slot, hint, y) := s.b.y.lookup (fld a 39 0)
      .next ((((s.onB (fun b => b.setTags y.tag)).onY (fun z => { z with thand := y.thand })).launchOp 2 (.res .lsr slot)).launchOp 2 (.res .lsh hint)))))

/-- `tget` (R215). -/
def execLsTget (gd : Guard) (x : Src) (s : State) : Out :=
  s.guarded gd (fun s =>
    let a := s.src x
    s.valid (decide (256 < a.toNat)) (fun s =>
      if a.toNat = 256 then .next (s.launchOp 2 (.res .lsr (s.b.y.thand.zeroExtend 64)))
      else s.readTags [a.toNat] (fun s => .next (s.launchOp 2 (.res .lsr (vget 0 s.b.y.tag a.toNat))))))

/-- `tset`; of a slot in a range that the matrix unit still reads it waits (R215, R273). -/
def execLsTset (gd : Guard) (x : Src) (s : State) : Out :=
  s.guarded gd (fun s =>
    let a := s.src x
    let d := s.opd .lsd
    s.valid (decide (256 < a.toNat)) (fun s => s.limit (decide (a.toNat < 256) && decide (fld d 15 4 ≠ 0)) (fun s =>
      if a.toNat = 256 then .next (s.onY (fun y => { y with thand := d.extractLsb' 0 8 }))
      else s.unless (s.b.mxHoldsStore 0 (4096 * a.toNat) 4096) (s.matrixWait 2 (.range false 0 (4096 * a.toNat) 4096)) (fun s =>
        .next (s.onB (fun b => b.setTag a.toNat d))))))

/-- `larm` (R221). -/
def execLsLarm (gd : Guard) (x : Src) (s : State) : Out :=
  s.guarded gd (fun s =>
    let a := s.src x
    s.valid (decide (fld a 63 26 ≠ 0) || bit a.toNat 22 || decide (fld a 21 20 = 3)) (fun s =>
      if s.cls ≠ 2 then .next (s.illegal 7)
      else .next (s.onY (fun y => { y with arm := vset y.arm (fld a 25 24) (a.extractLsb' 0 26) }))))

/-! ## One meaning for each operation of the map (R201) -/


/-- `sld.b` (R202). -/
def execLsSldB (gd : Guard) (x : Src) (s : State) : Out := s.sld gd x 1 true

/-- `sld.bu` (R202). -/
def execLsSldBu (gd : Guard) (x : Src) (s : State) : Out := s.sld gd x 1 false

/-- `sld.h` (R202). -/
def execLsSldH (gd : Guard) (x : Src) (s : State) : Out := s.sld gd x 2 true

/-- `sld.hu` (R202). -/
def execLsSldHu (gd : Guard) (x : Src) (s : State) : Out := s.sld gd x 2 false

/-- `sld.w` (R202). -/
def execLsSldW (gd : Guard) (x : Src) (s : State) : Out := s.sld gd x 4 true

/-- `sld.wu` (R202). -/
def execLsSldWu (gd : Guard) (x : Src) (s : State) : Out := s.sld gd x 4 false

/-- `sld.d` (R202). -/
def execLsSldD (gd : Guard) (x : Src) (s : State) : Out := s.sld gd x 8 false

/-- `sst.b` (R202). -/
def execLsSstB (gd : Guard) (x : Src) (s : State) : Out := s.sst gd x 1

/-- `sst.h` (R202). -/
def execLsSstH (gd : Guard) (x : Src) (s : State) : Out := s.sst gd x 2

/-- `sst.w` (R202). -/
def execLsSstW (gd : Guard) (x : Src) (s : State) : Out := s.sst gd x 4

/-- `sst.d` (R202). -/
def execLsSstD (gd : Guard) (x : Src) (s : State) : Out := s.sst gd x 8

/-- `ld.b` (R204). -/
def execLsLdB (gd : Guard) (x : Src) (s : State) : Out := s.ld gd x 1 true

/-- `ld.bu` (R204). -/
def execLsLdBu (gd : Guard) (x : Src) (s : State) : Out := s.ld gd x 1 false

/-- `ld.h` (R204). -/
def execLsLdH (gd : Guard) (x : Src) (s : State) : Out := s.ld gd x 2 true

/-- `ld.hu` (R204). -/
def execLsLdHu (gd : Guard) (x : Src) (s : State) : Out := s.ld gd x 2 false

/-- `ld.w` (R204). -/
def execLsLdW (gd : Guard) (x : Src) (s : State) : Out := s.ld gd x 4 true

/-- `ld.wu` (R204). -/
def execLsLdWu (gd : Guard) (x : Src) (s : State) : Out := s.ld gd x 4 false

/-- `ld.d` (R204). -/
def execLsLdD (gd : Guard) (x : Src) (s : State) : Out := s.ld gd x 8 false

/-- `st.b` (R204). -/
def execLsStB (gd : Guard) (x : Src) (s : State) : Out := s.st gd x 1

/-- `st.h` (R204). -/
def execLsStH (gd : Guard) (x : Src) (s : State) : Out := s.st gd x 2

/-- `st.w` (R204). -/
def execLsStW (gd : Guard) (x : Src) (s : State) : Out := s.st gd x 4

/-- `st.d` (R204). -/
def execLsStD (gd : Guard) (x : Src) (s : State) : Out := s.st gd x 8

/-- `amo.add` (R209). -/
def execLsAmoAdd (gd : Guard) (x : Src) (s : State) : Out := s.amo gd x .add false

/-- `amo.and` (R209). -/
def execLsAmoAnd (gd : Guard) (x : Src) (s : State) : Out := s.amo gd x .and false

/-- `amo.or` (R209). -/
def execLsAmoOr (gd : Guard) (x : Src) (s : State) : Out := s.amo gd x .or false

/-- `amo.xor` (R209). -/
def execLsAmoXor (gd : Guard) (x : Src) (s : State) : Out := s.amo gd x .xor false

/-- `amo.min` (R209). -/
def execLsAmoMin (gd : Guard) (x : Src) (s : State) : Out := s.amo gd x .min false

/-- `amo.max` (R209). -/
def execLsAmoMax (gd : Guard) (x : Src) (s : State) : Out := s.amo gd x .max false

/-- `amo.minu` (R209). -/
def execLsAmoMinu (gd : Guard) (x : Src) (s : State) : Out := s.amo gd x .minu false

/-- `amo.maxu` (R209). -/
def execLsAmoMaxu (gd : Guard) (x : Src) (s : State) : Out := s.amo gd x .maxu false

/-- `amo.swap` (R209). -/
def execLsAmoSwap (gd : Guard) (x : Src) (s : State) : Out := s.amo gd x .swap false

/-- `amo.cas` (R209). -/
def execLsAmoCas (gd : Guard) (x : Src) (s : State) : Out := s.amo gd x .cas false

/-- `amo.fadd` (R209). -/
def execLsAmoFadd (gd : Guard) (x : Src) (s : State) : Out := s.amo gd x .fadd false

/-- `amo.add.c` (R209, R210). -/
def execLsAmoAddC (gd : Guard) (x : Src) (s : State) : Out := s.amo gd x .add true

/-- `amo.and.c` (R209, R210). -/
def execLsAmoAndC (gd : Guard) (x : Src) (s : State) : Out := s.amo gd x .and true

/-- `amo.or.c` (R209, R210). -/
def execLsAmoOrC (gd : Guard) (x : Src) (s : State) : Out := s.amo gd x .or true

/-- `amo.xor.c` (R209, R210). -/
def execLsAmoXorC (gd : Guard) (x : Src) (s : State) : Out := s.amo gd x .xor true

/-- `amo.min.c` (R209, R210). -/
def execLsAmoMinC (gd : Guard) (x : Src) (s : State) : Out := s.amo gd x .min true

/-- `amo.max.c` (R209, R210). -/
def execLsAmoMaxC (gd : Guard) (x : Src) (s : State) : Out := s.amo gd x .max true

/-- `amo.minu.c` (R209, R210). -/
def execLsAmoMinuC (gd : Guard) (x : Src) (s : State) : Out := s.amo gd x .minu true

/-- `amo.maxu.c` (R209, R210). -/
def execLsAmoMaxuC (gd : Guard) (x : Src) (s : State) : Out := s.amo gd x .maxu true

/-- `amo.swap.c` (R209, R210). -/
def execLsAmoSwapC (gd : Guard) (x : Src) (s : State) : Out := s.amo gd x .swap true

/-- `amo.fadd.comb` (R209, R210). -/
def execLsAmoFaddComb (gd : Guard) (x : Src) (s : State) : Out := s.amo gd x .fadd true

end Sys2Proof.Machine
end

