-- ==== Sys2Proof/Machine/Push.lean ====
section
/-!
DEFINITION. The push buffer's operations (R216 to R218, R124).
-/

namespace Sys2Proof.Machine

open Sys2Proof

/-- Whether a push descriptor has a reserved bit or engine code (R159, R217). -/
def pushBad (a : Word) : Bool := decide (fld a 63 34 ≠ 0) || decide (fld a 30 26 ≠ 0) || decide (33 < fld a 25 20)

/-- Whether a push descriptor breaks a limit of R217; `many` for `pushn`, whose count may be above one. -/
def pushBeyond (a : Word) (many : Bool) : Bool :=
  decide (fld a 19 0 % 64 ≠ 0) || !inSpace 0 (fld a 19 0) (64 * (fld a 33 32 + 1)) || (!many && decide (fld a 33 32 ≠ 0))

/-- The command at a scratchpad offset, patched as its descriptor asks (R216, R217). -/
def State.command (s : State) (a : Word) (i : Nat) : Cmd :=
  let raw := s.b.loc.readNat 0 (fld a 19 0 + 64 * i) 64
  let raw := if bit a.toNat 31 then setBits raw 94 43 ((bits raw 94 43 + (s.opd .qpa).toNat) % 2 ^ 52) else raw
  { raw := BitVec.ofNat 512 raw, eng := fld a 25 20, brick := s.b.bid, tid := s.b.t.tid, ctx := s.b.t.ctx,
    firm := false, det := s.detTuple, seq := s.cmdSeq + i }

/-- `qp.f` (R218). -/
def Brick.pushWord (b : Brick) (full : Bool) : Word :=
  BitVec.ofNat 64 (8 - b.push.length + (if full then 128 else 0))

/-- Commands entered in the push buffer, with their hulls in the scoreboard (R124, R216). -/
def State.enterPush (s : State) (cs : List Cmd) : State :=
  { s.onB (fun b => { b with push := b.push ++ cs, score := b.score ++ cs.flatMap Cmd.scoreOf }) with
    cmdSeq := s.cmdSeq + cs.length }

/-- A push of n commands: the waits of R124 on its bytes and for scoreboard entries, the counter, then the copy
(R216). -/
def State.pushCmds (s : State) (a : Word) (n : Nat) : Out :=
  s.counted .cp n (fun s => s.localRead 0 (fld a 19 0) (64 * n) (fun s =>
    let cs := (List.range n).map (s.command a)
    let need := (cs.flatMap Cmd.scoreOf).length
    s.unless (decide (0 < need) && decide (max 4 Config.scoreEntries < s.b.score.length + need))
      (s.stallWant .scoreFull 0 false s.contBefore (.entries need)) (fun s =>
        let s := s.enterPush cs
        .next (s.launchOp 1 (.res .qpf (s.b.pushWord false))))))

/-- A push that leaves the buffer alone where too few entries are free (R218). -/
def State.pushTry (s : State) (gd : Guard) (x : Src) (many : Bool) : Out :=
  s.guarded gd (fun s =>
    let a := s.src x
    let n := fld a 33 32 + 1
    s.valid (pushBad a) (fun s => s.limit (pushBeyond a many) (fun s =>
      if 8 < s.b.push.length + n then .next (s.launchOp 1 (.res .qpf (s.b.pushWord true))) else s.pushCmds a n)))

/-- `push`. -/
def execQpPush (gd : Guard) (x : Src) (s : State) : Out := s.pushTry gd x false

/-- `pushn`. -/
def execQpPushn (gd : Guard) (x : Src) (s : State) : Out := s.pushTry gd x true

/-- `pushw`: stalls until an entry is free (R218, R224). -/
def execQpPushw (gd : Guard) (x : Src) (s : State) : Out :=
  s.guarded gd (fun s =>
    let a := s.src x
    s.valid (pushBad a) (fun s => s.limit (pushBeyond a false) (fun s =>
      s.unless (decide (8 ≤ s.b.push.length)) (s.stallFor .pushFull 0 false s.contBefore) (fun s => s.pushCmds a 1))))

/-- `free` (R218). -/
def execQpFree (gd : Guard) (x : Src) (s : State) : Out :=
  s.guarded gd (fun s =>
    s.valid (decide (s.src x ≠ 0)) (fun s => .next (s.launchOp 1 (.res .qpf (s.b.pushWord false)))))

end Sys2Proof.Machine
end

