-- ==== Sys2Proof/Machine/Queues.lean ====
section
/-!
DEFINITION. The tower's ready queues as the dome reads them (R355, R357, R358), teams (R343, R344), and the start of a
domain's gating (R396, R397).
-/

namespace Sys2Proof.Machine

open Sys2Proof

/-! ## Age and choice (R355, R357) -/

/-- Whether an entry is older than another, by stamps within a window of 2^31 (R355). -/
def QEnt.older (a b : QEnt) : Bool :=
  let d := (b.seq + 2 ^ 32 - a.seq % 2 ^ 32) % 2 ^ 32
  decide (0 < d) && decide (d < 2 ^ 31)

/-- The oldest entry of a list. -/
def oldest : List QEnt → Option QEnt
  | [] => none
  | e :: rest => match oldest rest with
    | some o => some (if o.older e then o else e)
    | none => some e

/-- The oldest task entry of a priority for a brick of a quadrant: of its quadrant first (R357). -/
def Dome.taskEntry (d : Dome) (prio quad : Nat) : Option QEnt :=
  let es := d.hw.filter (fun e => e.kind == 0 && e.prio == prio)
  (oldest (es.filter (fun e => e.quad == quad))).or (oldest es)

/-- The team entry that holds the tower's reservation: the oldest of the highest priority that has one (R359). -/
def Dome.teamEntry (d : Dome) : Option QEnt :=
  [3, 2, 1, 0].findSome? (fun p => oldest (d.hw.filter (fun e => e.kind != 0 && e.prio == p)))

/-- A tower's hardware entries without one. -/
def State.dropEntry (s : State) (tower : Nat) (e : QEnt) : State :=
  s.setDome tower { s.dome tower with hw := (s.dome tower).hw.erase e }

/-- Entries returned to a tower's hardware queues with their own stamps (R358). -/
def State.returnEntries (s : State) (tower : Nat) (es : List QEnt) : State :=
  s.setDome tower { s.dome tower with hw := (s.dome tower).hw ++ es }

/-- A brick's local entries that satisfy a test, recalled (R358). -/
def State.recall (s : State) (n : Nat) (p : QEnt → Bool) : State :=
  let b := s.brick n
  (s.setBrick n { b with localQ := b.localQ.filter (fun e => !p e) }).returnEntries (towerOf n) (b.localQ.filter p)

/-- Everything a brick was to run given back: its local entries, and an entry assigned to it that has not been dispatched
(R358, R396). A reservation is released with it. -/
def State.unassign (s : State) (n : Nat) : State :=
  let s := s.recall n (fun _ => true)
  let b := s.brick n
  let s := s.setBrick n { b with assigned := none, reserved := none }
  match b.assigned with
  | some e => if e.kind = 0 then s.returnEntries (towerOf n) [e] else s
  | none => s

/-! ## Teams (R343, R344) -/

/-- Whether two tasks belong to one team: a task made ready by `tspawn` is a team of one (R351, R353). -/
def Task.teamWith (t u : Task) : Bool :=
  t.tid == u.tid || (t.launch == u.launch && t.team == u.team && !t.spawned && !u.spawned)

/-- Pre-emption requested of every running brick that satisfies a test (R385). -/
def State.requestPreempt (s : State) (p : Brick → Bool) : State :=
  s.mapBricks (fun b => if b.running && p b then { b with preq := true } else b)

/-- Every running member of a task's team asked to leave (R344). -/
def State.swapOut (s : State) (t : Task) : State := s.requestPreempt (fun b => t.teamWith b.t)

/-! ## Gating (R396, R397) -/

/-- A voltage domain. -/
def State.domain (s : State) (d : Nat) : Domain := vget ⟨0, [], 0, 0⟩ s.doms d

/-- The state with a voltage domain replaced. -/
def State.setDomain (s : State) (d : Nat) (x : Domain) : State := { s with doms := vset s.doms d x }

/-- Bricks of a domain that have left their reset state. -/
def State.domainBricks (s : State) (d : Nat) : List Brick := s.allBricks.filter (fun b => domainOf b.bid == d)

/-- The saved member that a brick has been given and has not restored yet. -/
def State.givenTo (s : State) (b : Brick) : Option Saved :=
  b.assigned.bind (fun e => if e.kind = 2 then
    s.images.find? (fun x => x.task.ctx == e.ctx && x.task.recVa == e.recVa) else none)

/-- The team of a saved member taken back from the bricks it was given, members that run there already swapped out: a team is
never partly resident (R344). `home` marks it gate-held (R396; log 109). -/
def State.pullBack (s : State) (x : Saved) (home : Bool) : State :=
  let mine := fun (y : Saved) => x.task.teamWith y.task
  let s := s.mapBricks (fun b => if (s.givenTo b).any mine then { b with assigned := none, cls := none, grant := none } else b)
  let s := (s.images.filter mine).foldl (fun s y => s.dropGrants y.task.tid) s
  ({ s with images := s.images.map (fun y => if mine y then { y with home := y.home || home } else y) } : State).swapOut x.task

/-- Steps 1 and 2 of a gate request: the domain gating, its local queues recalled, and every team with a member running
there, or on the way there, swapped out whole (R396). -/
def State.beginGate (s : State) (d : Nat) : State :=
  let s := s.setDomain d { s.domain d with state := 1 }
  let bs := s.domainBricks d
  let s := (bs.filterMap s.givenTo).foldl (fun s x => s.pullBack x true) s
  let s := bs.foldl (fun s b => s.unassign b.bid) s
  (bs.filter Brick.running).foldl (fun s b =>
    let s := s.swapOut b.t
    { s with images := s.images.map (fun x => if x.task.teamWith b.t then { x with home := true } else x) }) s

/-- One request taken: true asks for gating (R397). A gate request waits for a halted brick (R439). -/
def State.takeRequest (s : State) (d : Nat) (gate : Bool) : State :=
  let x := s.domain d
  if gate then
    if x.state = 0 then
      (if (s.domainBricks d).any Brick.halted then s.setDomain d { x with reqs := x.reqs ++ [true] } else s.beginGate d)
    else if x.state = 3 then s.setDomain d { x with reqs := x.reqs ++ [true] }
    else s
  else if x.state = 2 then s.setDomain d { x with state := 3, returns := s.clk + 21000 }
  else s

/-- A request of a domain, behind any that waits (R397). -/
def State.request (s : State) (d : Nat) (gate : Bool) : State :=
  let x := s.domain d
  if x.reqs = [] then s.takeRequest d gate else s.setDomain d { x with reqs := x.reqs ++ [gate] }

/-- Requests that waited, in order (R397, R439). -/
def State.drainRequests (s : State) (d : Nat) : State :=
  let rs := (s.domain d).reqs
  rs.foldl (fun s g => s.request d g) (s.setDomain d { s.domain d with reqs := [] })

end Sys2Proof.Machine
end

