-- ==== Sys2Proof/Machine/Spire.lean ====
section
/-!
DEFINITION. The spire's operations (R408 to R412).
-/

namespace Sys2Proof.Machine

open Sys2Proof

/-- The state of a brick's voltage domain (R395). -/
def State.domState (s : State) (bid : Nat) : Nat := (vget ⟨0, [], 0, 0⟩ s.doms (domainOf bid)).state

/-- The partner of the brick in focus. -/
def State.partner (s : State) : Brick := s.brick (partnerOf s.b.bid)

/-- Whether the partner takes entries at all (R409). -/
def State.partnerOpen (s : State) : Bool :=
  let p := s.partner
  p.running && p.t.ctx == s.b.t.ctx && p.saving.isNone && decide (s.domState p.bid = 0)

/-- The sender's free count (R408, R409). -/
def State.spFree (s : State) : Nat :=
  let p := s.partner
  if s.partnerOpen then 8 - p.spq.length - (p.spFreed.filter (fun c => decide (s.b.clk < c))).length else 0

/-- Entries the brick can receive (R408). -/
def Brick.spAvail (b : Brick) : Nat := (b.spq.takeWhile (fun e => decide (e.ready ≤ b.clk))).length

/-- `sp.n` after an operation (R410). -/
def State.spDone (s : State) (moved : Bool) : State :=
  s.launchOp 1 (.res .spn (BitVec.ofNat 64 (s.spFree + 16 * s.b.spAvail + (if moved then 256 else 0))))

/-- An entry placed in the FIFO toward the partner (R408, R411). -/
def State.spSend (s : State) (x : Vec) : State :=
  let p := s.partner
  s.setBrick (partnerOf s.b.bid) { p with spq := p.spq ++ [⟨x, s.b.clk + 2⟩] }

/-- The head entry received into a register at the end of the cycle (R411). -/
def State.spRecv (s : State) (v : Nat) : State :=
  match s.b.spq with
  | [] => s
  | e :: rest =>
    (s.onB (fun b => { b with spq := rest, spFreed := b.spFreed ++ [b.clk + 2] })).defer (.v (physV s.b.r.rrb v) e.data)

/-- A transfer: its register, whether deterministic mode refuses it, its condition, and its effect. `wait` stalls where
the condition fails, and otherwise nothing moves (R410 to R412). -/
def State.spOp (s : State) (gd : Guard) (x : Src) (wait : Bool) (can : State → Bool) (f : State → Nat → State) : Out :=
  s.guarded gd (fun s =>
    let a := s.src x
    s.valid (decide (31 < a.toNat)) (fun s =>
      (if wait then fun k => k s else s.refuseDet) (fun s =>
        if can s then .next ((f s a.toNat).spDone true)
        else if wait then s.unless true (s.stallOwn 0 s.b.iss.slot) .next
        else .next (s.spDone false))))

/-- `send`. -/
def execSpSend (gd : Guard) (x : Src) (s : State) : Out :=
  s.spOp gd x true (fun s => decide (0 < s.spFree)) (fun s v => s.spSend (s.readV v))

/-- `sendn`. -/
def execSpSendn (gd : Guard) (x : Src) (s : State) : Out :=
  s.spOp gd x false (fun s => decide (0 < s.spFree)) (fun s v => s.spSend (s.readV v))

/-- `recv`. -/
def execSpRecv (gd : Guard) (x : Src) (s : State) : Out :=
  s.spOp gd x true (fun s => decide (0 < s.b.spAvail)) State.spRecv

/-- `recvn`. -/
def execSpRecvn (gd : Guard) (x : Src) (s : State) : Out :=
  s.spOp gd x false (fun s => decide (0 < s.b.spAvail)) State.spRecv

/-- `cnt`. -/
def execSpCnt (gd : Guard) (x : Src) (s : State) : Out :=
  s.guarded gd (fun s => s.valid (decide (s.src x ≠ 0)) (fun s => s.refuseDet (fun s => .next (s.spDone false))))

end Sys2Proof.Machine
end

