-- ==== Sys2Proof/Machine/Access.lean ====
section
/-!
DEFINITION. Device accesses in flight, as the slices perform them: their order (R100, R205 to R207, R303, R309 to R314),
translation and faults (R96 to R101, R208), and the snapshot cache (R140).
-/

namespace Sys2Proof.Machine

open Sys2Proof

/-! ## Accesses of a brick -/

/-- An access by its number. -/
def Brick.op? (b : Brick) (id : Nat) : Option DevOp := b.dev.find? (fun op => op.id == id)

/-- An access replaced. -/
def Brick.putOp (b : Brick) (op : DevOp) : Brick := { b with dev := b.dev.map (fun e => if e.id = op.id then op else e) }

/-- An access removed. -/
def Brick.delOp (b : Brick) (id : Nat) : Brick := { b with dev := b.dev.filter (fun e => e.id != id) }

/-- An access of brick n replaced. -/
def State.putOp (s : State) (n : Nat) (op : DevOp) : State := s.setBrick n ((s.brick n).putOp op)

/-- An access of brick n removed. -/
def State.delOp (s : State) (n id : Nat) : State := s.setBrick n ((s.brick n).delOp id)

/-- A function of the brick in focus applied with brick n in focus. -/
def State.withFocus (s : State) (n : Nat) (f : State → State) : State :=
  let m := s.b.bid
  (f (s.focus n)).focus m

/-- Whether an access has been performed or has failed. -/
def DevOp.done (op : DevOp) : Bool :=
  match op.stage with
  | .performed _ _ => true
  | .failed _ => true
  | _ => false

/-- Whether an access failed and its report is not yet recorded (R208). -/
def DevOp.hasFailed (op : DevOp) : Bool :=
  match op.stage with
  | .failed _ => true
  | _ => false

/-- Whether an access is on its way to another module (R434). -/
def DevOp.isRemote (op : DevOp) : Bool :=
  match op.stage with
  | .remote _ => true
  | _ => false

/-- Loads, whose counter is `cnt.ld` (R201, R347). -/
def DevKind.isLoad : DevKind → Bool
  | .load _ => true
  | .tread => true
  | .chain _ _ _ _ => true
  | .bstream => true
  | _ => false

/-- Whether an access is a chain, which is ordered with others only as R303 and R308 state. -/
def DevKind.isChain : DevKind → Bool
  | .chain _ _ _ _ => true
  | _ => false

/-- The counter that tracks an access. -/
def DevKind.ctr (k : DevKind) : Ctr := if k.isLoad then .ld else .st

/-- A store into another brick's local stores, which lies in another space than device accesses (R205). -/
def DevKind.isRst : DevKind → Bool
  | .rst _ _ _ => true
  | _ => false

/-- Whether an access reads or writes the bytes of another in device memory (R205). -/
def DevOp.overlaps (a b : DevOp) : Bool :=
  a.ctx == b.ctx && !a.kind.isRst && !b.kind.isRst && decide (0 < a.len) && decide (0 < b.len) && Machine.overlaps a.va a.len b.va b.len

/-- The task's accesses issued before one. -/
def Brick.before (b : Brick) (op : DevOp) : List DevOp := b.dev.filter (fun e => e.tid == op.tid && decide (e.id < op.id))

/-- Whether an earlier access no longer holds a release back: a load once delivered, another once performed; below
system scope a line of another module need not be waited for (R207, R314). -/
def DevOp.releases (op e : DevOp) : Bool :=
  if e.kind.isLoad then false
  else e.done || (e.isRemote && decide (op.scope < 4))

/-- A release's own condition (R207, R100): every earlier access of its task is past, and the replay queue holds nothing
earlier. -/
def Brick.relMet (b : Brick) (op : DevOp) : Bool :=
  (b.before op).all op.releases && b.replay.all (fun e => decide (op.id ≤ e.id))

/-- Whether the orderings of R100, R205 to R207 and R303 let an access be performed now. -/
def Brick.ordered (b : Brick) (op : DevOp) : Bool :=
  let es := b.before op
  let write := !op.kind.isLoad
  es.all (fun e => !e.acq) &&
  (!write || es.all (fun e => !e.rel || e.done)) &&
  es.all (fun e => !e.overlaps op || e.done || e.kind.isChain || op.kind.isChain) &&
  (match op.kind with
    | .chain _ _ _ _ => es.all (fun e => e.kind.isLoad || e.done)
    | _ => true) &&
  (!op.kind.isWrite || b.dev.all (fun e => !(decide (e.id < op.id) && e.kind.isWrite && e.isParked && e.ctx == op.ctx &&
    e.va / 4096 == op.va / 4096))) &&
  (op.kind.isWrite || b.replay.all (fun e => !(decide (e.id < op.id) && e.overlaps op))) &&
  (!op.rel || b.relMet op)

/-! ## Tokens -/

/-- A replay token. -/
def State.token (s : State) (tok : Nat) : Option Token := s.toks.find? (fun t => t.tok == tok)

/-- A token dropped. -/
def State.dropToken (s : State) (tok : Nat) : State := { s with toks := s.toks.filter (fun t => t.tok != tok) }

/-- Whether an access may go to its slice: it waits for nothing, or its token has been retried (R99). -/
def State.free (s : State) (op : DevOp) : Bool :=
  match op.stage with
  | .issued => true
  | .parked t => (s.token t).any Token.released
  | _ => false

/-- Where the leaf of an access's page puts it, as a lookaside buffer or a walk gives it. -/
def State.placeOf (s : State) (b : Brick) (op : DevOp) : Option Nat :=
  match s.look b.dataLook op.ctx op.va with
  | .leaf pte pva _ => some (leafPa pte pva op.va)
  | .fault _ _ _ _ => none

/-- Whether two accesses reach the same bytes under different virtual addresses (R205, R310; log 116). -/
def State.aliases (s : State) (b : Brick) (x y : DevOp) : Bool :=
  !x.kind.isRst && !y.kind.isRst && decide (0 < x.len) && decide (0 < y.len) && decide (x.va ≠ y.va) &&
  (match s.placeOf b x, s.placeOf b y with
    | some p, some q => Machine.overlaps p x.len q y.len
    | _, _ => false)

/-- Whether no earlier access of the task to the same bytes is still to be performed, whatever addresses name them (R205). -/
def State.unaliased (s : State) (b : Brick) (op : DevOp) : Bool :=
  (b.before op).all (fun e => e.done || e.kind.isChain || op.kind.isChain || !s.aliases b e op)

/-- Whether an access of a brick can be performed now. -/
def State.ready (s : State) (b : Brick) (op : DevOp) : Bool := s.free op && b.ordered op && s.unaliased b op

/-! ## Faults (R96, R208) -/

/-- What an access's translation looks in: one released by a retry walks from level 3 (R93, R99). -/
def State.opLook (s : State) (n : Nat) (op : DevOp) : Look :=
  if op.isParked then ⟨[], none⟩ else (s.brick n).dataLook

/-- The access path of a kind of access (R98). -/
def DevKind.path : DevKind → Nat
  | .load _ => 0
  | .tread => 0
  | .chain _ _ _ _ => 8
  | .bstream => 3
  | _ => 1

/-- The report of a fault, with the device virtual address of the access (R62, R208, R371). -/
def faultReport (ctr : Ctr) (va tok path kind : Nat) : Report :=
  ⟨ctr, { plainTrap 5 1 with addr := BitVec.ofNat 64 (va % 2 ^ 52), aux := BitVec.ofNat 32 tok, path := path, fkind := kind }⟩

/-- The report of poisoned data (R87, R371). -/
def poisonedReport (ctr : Ctr) (va : Nat) : Report := ⟨ctr, { plainTrap 6 1 with addr := BitVec.ofNat 64 va }⟩

/-- An access that fails with a report. -/
def DevOp.fail (op : DevOp) (r : Report) : DevOp := { op with stage := .failed r }

/-- An access whose translation, by a look, faulted at an address, in a tower: parked on kind 0x0, otherwise failed; it stays where it
is while the fault queue is full, and a store or atomic while the replay queue is (R96, R99 to R101, R208). -/
def State.opFault (s : State) (l : Look) (n : Nat) (op : DevOp) (va tower : Nat) (f : Nat × Nat × Nat × Word) : State :=
  let (kind, rc, level, pte) := f
  let w := s.faultTower l op.ctx va kind tower
  let path := op.kind.path
  if !s.faultRoom w then s
  else if kind = 0 ∧ op.kind.isWrite ∧ !op.isParked ∧ 16 ≤ (s.brick n).replay.length then s
  else
    let s := match op.stage with
      | .parked t => s.dropToken t
      | _ => s
    if kind = 0 then
      let (tok, s) := s.park (.dev n op.id) va
      (s.postFault w (faultRecord s.clk pte.toNat tok n op.ctx rc level kind path va)).putOp n { op with stage := .parked tok }
    else
      (s.postFault w (faultRecord s.clk pte.toNat 0xFFFF n op.ctx rc level kind path va)).putOp n
        (op.fail (faultReport op.kind.ctr va 0xFFFF path kind))

/-! ## The snapshot cache (R140, R206) -/

/-- A line with bytes replaced from an offset. -/
def patchLine (line : BitVec 512) (off : Nat) (bs : List Byte) : BitVec 512 :=
  BitVec.ofNat 512 (ofBytes ((toBytes 64 line.toNat).take off ++ bs ++ (toBytes 64 line.toNat).drop (off + bs.length)))

/-- Lines that a brick's own access reaches out of its snapshot cache, fills of them under way included. -/
def State.dropLinesOf (s : State) (n ctx pa len va : Nat) : State :=
  s.setBrick n ((s.brick n).dropLines ctx (linesOf pa len) va len)

/-- A brick's own store to a line of another module, in the lines its snapshot holds (R140). -/
def State.patchSnap (s : State) (n ctx pa len data : Nat) (mask : BitVec 256) : State :=
  let b := s.brick n
  let put := fun (l : SnapLine) => (List.range len).foldl (fun d i =>
    if mask.getLsbD i && decide (l.line ≤ pa + i) && decide (pa + i < l.line + 64) then
      patchLine d (pa + i - l.line) [BitVec.ofNat 8 (data / 2 ^ (8 * i))] else d) l.data
  s.setBrick n { b with snap := b.snap.map (fun (l : SnapLine) =>
    if l.ctx == ctx && (linesOf pa len).contains l.line then { l with data := put l } else l) }

/-- The lines of a range as the slices hold them, written into the lines the snapshot holds (R140). -/
def State.refreshSnap (s : State) (n : Nat) (ctx pa len : Nat) : State :=
  let ls := linesOf pa len
  let b := s.brick n
  if b.snap.any (fun l => l.ctx == ctx && ls.contains l.line) then
    let b' : Brick := { b with snap := b.snap.map (fun (l : SnapLine) =>
      if l.ctx == ctx && ls.contains l.line then
        (let lo := max pa l.line
         let hi := min (pa + len) (l.line + 64)
         { l with data := patchLine l.data (lo - l.line) (s.readPhys lo (hi - lo)) })
      else l) }
    s.setBrick n (b'.plant 5 ((snapWords ctx pa len).filter (fun w =>
      b.snap.any (fun l => l.ctx == ctx && decide (l.line = w.1 % 2 ^ 49 / 8 * 64)))))
  else s

end Sys2Proof.Machine
end

