-- ==== Sys2Proof/Machine/Slice.lean ====
section
/-!
DEFINITION. The slices: loads, stores, atomics and task operations performed at the line they name (R67, R86, R87, R209,
R292 to R295, R334 to R336, R346 to R352), and the write queue (R292, R293).
-/

namespace Sys2Proof.Machine

open Sys2Proof

/-! ## What an atomic computes, and combined requests (R209, R210, R297, R298) -/

/-- FP32 sum of two codes. -/
def faddCode (mode a b : Nat) : Nat × Flags :=
  let (x, f) := addNum (Fmt.fp32.read a) (Fmt.fp32.read b)
  let (y, g) := round .fp32 mode x
  (y, f ||| g)

/-- The value an atomic leaves, when it writes one, and its flags (R209). -/
def amoNew (op : AmoOp) (mode w cmp old d : Nat) : Option Nat × Flags :=
  let m := 2 ^ (8 * w)
  let so := sextInt old (8 * w)
  let sd := sextInt d (8 * w)
  match op with
  | .add => (some ((old + d) % m), 0)
  | .and => (some (old &&& d), 0)
  | .or => (some (old ||| d), 0)
  | .xor => (some (old ^^^ d), 0)
  | .min => (some (if sd < so then d else old), 0)
  | .max => (some (if so < sd then d else old), 0)
  | .minu => (some (min old d), 0)
  | .maxu => (some (max old d), 0)
  | .swap => (some d, 0)
  | .cas => (if old = cmp then some d else none, 0)
  | .fadd => ((faddCode mode old d).map some id)

/-- What a pair's follower receives when the pair is presented with v, and the flags that makes (R298). -/
def followerValue (op : AmoOp) (mode w v dl : Nat) : Nat × Flags :=
  match op with
  | .swap => (dl, 0)
  | _ =>
    let (x, f) := amoNew op mode w 0 v dl
    (x.getD v, f)

/-- The combined operand of a pair, and the flags that makes (R298). -/
def pairOperand (op : AmoOp) (mode w dl df : Nat) : Nat × Flags :=
  match op with
  | .swap => (df, 0)
  | _ =>
    let (x, f) := amoNew op mode w 0 dl df
    (x.getD df, f)

/-- The operand of a tree of combined requests (R297, R298). -/
def Tree.operand (op : AmoOp) (mode w : Nat) : Tree → Nat
  | .leaf _ _ d => d
  | .pair l f => (pairOperand op mode w (l.operand op mode w) (f.operand op mode w)).1

/-- The requests of a tree in linearised order (R300). -/
def Tree.leaves : Tree → List (Nat × Nat)
  | .leaf b i _ => [(b, i)]
  | .pair l f => l.leaves ++ f.leaves

/-- The leader of a tree. -/
def Tree.leader : Tree → Nat × Nat
  | .leaf b i _ => (b, i)
  | .pair l _ => l.leader

/-- Number of requests of a tree. -/
def Tree.size : Tree → Nat
  | .leaf _ _ _ => 1
  | .pair l f => l.size + f.size

/-- The tree that travels under a request's name: the largest split record it leads (R297). -/
def State.treeOf (s : State) (n : Nat) (op : DevOp) : Tree :=
  (s.routers.filter (fun e => !e.waiting && e.reply.isNone && e.tree.leader == (n, op.id))).foldl
    (fun t e => if t.size < e.tree.size then e.tree else t) (.leaf n op.id op.data)

/-! ## The fabric's way out (R434, R436) -/

/-- The first working link toward a node (R434). -/
def State.linkTo (s : State) (node : Nat) : Option Nat :=
  match s.node with
  | some n => (n.routes.getD node []).find? (fun l => (vget ⟨false, 4, false, 0, 0, [], 0, 0⟩ s.links l).up)
  | none => none

/-- The tower whose dome a fabric link belongs to (R24). -/
def linkTower (link : Nat) : Nat := link / 18

/-- A link. -/
def State.link (s : State) (l : Nat) : Link := vget ⟨false, 4, false, 0, 0, [], 0, 0⟩ s.links l

/-- The state with a link replaced. -/
def State.setLink (s : State) (l : Nat) (k : Link) : State := { s with links := vset s.links l k }

/-- A flit closed by its CRC-32C (R433). -/
def sealFlit (bs : List Byte) : Bytes := bs ++ toBytes 4 (crc32c bs)

/-- A flit with a link's sequence number in bits [47:32] of its header (R433). -/
def stampFlit (bs : Bytes) (lseq : Nat) : Bytes := sealFlit (bs.take 4 ++ toBytes 2 lseq ++ (bs.drop 6).take 246)

/-- A flit put on a link: numbered, kept until acknowledged, and sent while the 256 KiB retransmit buffer has room
(R433). -/
def State.putFlit (s : State) (l node : Nat) (bs : Bytes) : State :=
  let k := s.link l
  let bs := stampFlit bs k.lseq
  { s.setLink l { k with lseq := (k.lseq + 1) % 65536, unacked := k.unacked ++ [(node, bs)] } with
    out := if k.unacked.length < 1024 then s.out ++ [(4 + l, bs)] else s.out }

/-- The flits of a packet before they are numbered: header, payload and CRC (R433). -/
def flitsOf (dst src cls stream : Nat) (bad : Bool) (payload : Bytes) : List Bytes :=
  let n := max 1 (ceilDiv payload.length 240)
  (List.range n).map (fun i =>
    let part := (payload.drop (240 * i)).take 240
    let h := dst % 1024 * 2 ^ 86 + src % 1024 * 2 ^ 76 + cls % 16 * 2 ^ 72 + bad.toNat * 2 ^ 71 +
      (if i = 0 then 2 ^ 70 else 0) + (if i + 1 = n then 2 ^ 69 else 0) + part.length * 2 ^ 48 + stream % 2 ^ 32
    sealFlit (toBytes 12 h ++ part ++ List.replicate (240 - part.length) 0))

/-- The payload of a packet: a chain's 32 + 16·n bytes as R214 lays them out, n in bits [90:87]; of any other class a free
function of what the packet carries (log 19). -/
def payloadOf (cls : Nat) (fields : List Nat) : Bytes :=
  match cls, fields with
  | 6, [x] => toBytes (32 + 16 * bits x 90 87) x
  | _, _ => Config.packetBytes cls fields

/-- A packet put on a link. Its flits are R433's; the stream number is free (log 19). -/
def State.putPacket (s : State) (l node cls : Nat) (bad : Bool) (fields : List Nat) : State :=
  let src := (s.node.map Node.id).getD 0
  (flitsOf node src cls (Config.streamOf cls fields).toNat bad (payloadOf cls fields)).foldl
    (fun s f => s.putFlit l node f) s

/-- A packet of a class put on the way to a node; none where no working link remains (R433, R434, R436). -/
def State.sendNode (s : State) (node cls : Nat) (bad : Bool) (fields : List Nat) : Option State :=
  (s.linkTo node).map (fun l => s.putPacket l node cls bad fields)

/-- An access performed with a value. -/
def DevOp.perform (op : DevOp) (val : Nat) (f : Flags) : DevOp := { op with stage := .performed val f }

/-- The brick number under which a tree names a request of another module, by its number among the visits (R296; log 16). -/
def visitor : Nat := 1024

/-- A visiting atomic ends: its reply goes back with the old value and flags, or a status and kind (R294, R299, R434). -/
def State.endVisit (s : State) (id old : Nat) (fl : Flags) (status kind : Nat) : State :=
  match s.visits.find? (fun v => v.id == id) with
  | some v =>
    let s := { s with visits := s.visits.filter (fun x => x.id != id) }
    (s.sendNode v.req.src 5 false [v.req.source, v.req.tag, old, fl.toNat, status, kind]).getD s
  | none => s

/-- The reply to a tree: to the one request itself, or to the outermost split record, for which its leader now waits; one
that a visiting request leads passes at once (R299). -/
def State.replyTree : State → Tree → Nat → Flags → State
  | s, .leaf n id _, v, f =>
    if n = visitor then s.endVisit id v f 0 0
    else match (s.brick n).op? id with
      | some op => s.putOp n (op.perform v f)
      | none => s
  | s, .pair l r, v, f =>
    let (n, id) := l.leader
    if n = visitor then
      match s.routers.find? (fun e => decide (e.tree = .pair l r) && !e.waiting) with
      | some e =>
        let w := if e.key.w8 then 8 else 4
        let dl := l.operand e.key.op e.key.mode w
        let (_, z) := pairOperand e.key.op e.key.mode w dl (r.operand e.key.op e.key.mode w)
        let (x, g) := followerValue e.key.op e.key.mode w v dl
        (({ s with routers := s.routers.erase e } : State).replyTree l v (f ||| z ||| g)).replyTree r x 0
      | none => s
    else
      let s := match (s.brick n).op? id with
        | some op => s.putOp n { op with stage := .queued }
        | none => s
      { s with routers := s.routers.map (fun e => if e.tree = .pair l r ∧ !e.waiting then { e with reply := some (v, f) } else e) }

/-- A fault or poison status copied to every member of a tree, whose split records pass; a visiting member's goes back as a
status and kind (R299). -/
def State.failTree (s : State) (t : Tree) (status kind : Nat) (r : DevOp → Report) : State :=
  let ls := t.leaves
  let s := ls.foldl (fun s p =>
    if p.1 = visitor then s.endVisit p.2 0 0 status kind
    else match (s.brick p.1).op? p.2 with
      | some op => s.putOp p.1 (op.fail (r op))
      | none => s) s
  { s with routers := s.routers.filter (fun e => !(ls.contains e.tree.leader && !e.waiting)) }

/-- The lines of an atomic dropped from its brick's snapshot, and from those of the bricks combined behind it (R295). -/
def State.dropTree (s : State) (t : Tree) (ctx : Nat) (lines : List Nat) (va n : Nat) : State :=
  (t.leaves.filter (fun p => p.1 != visitor)).foldl (fun s p => s.setBrick p.1 ((s.brick p.1).dropLines ctx lines va n)) s

/-- The class of the fabric packet of an access (R433). -/
def DevKind.fabricClass : DevKind → Nat
  | .load _ => 1
  | .tread => 1
  | .bstream => 1
  | .store => 0
  | .chain _ _ _ _ => 6
  | .amo _ comb _ _ _ => if comb then 4 else 3
  | _ => 3

/-- The check word of a chain packet: over every byte but the check field (R214). -/
def chainCheck (p : List Byte) : Nat := crc32c (p.take 4 ++ p.drop 8)

/-- A chain packet (R214). -/
def chainPacket (node ctx brick reg n tag i va : Nat) (val : Word) (steps : Nat) : Bytes :=
  let h := tag % 2 ^ 16 * 2 ^ 64 + n % 16 * 2 ^ 87 + i % 8 * 2 ^ 91 + reg % 64 * 2 ^ 94 + brick % 1024 * 2 ^ 100 +
    node % 1024 * 2 ^ 110 + ctx % 65536 * 2 ^ 120 + va % 2 ^ 52 * 2 ^ 140 + val.toNat * 2 ^ 192
  let p := toBytes 32 h ++ toBytes (16 * n) steps
  p.take 4 ++ toBytes 4 (chainCheck p) ++ p.drop 8

/-- The key id under which an access's leaf lets it reach its line (R76, R89). -/
def State.keyOf (s : State) (l : Look) (ctx va : Nat) : Nat :=
  match s.look l ctx va with
  | .leaf pte _ _ => leafKey pte
  | .fault _ _ _ _ => 0

/-- Stored bytes as their check word covers them (R81, R82). -/
def storedBytes (n data : Nat) (mask : BitVec 256) : List Byte :=
  ((List.range n).filter (fun i => mask.getLsbD i)).map (fun i => BitVec.ofNat 8 (data / 2 ^ (8 * i)))

/-- The data that the packet of an access carries from an offset of it: bytes of a store, or the operand of an atomic with those
combined behind it (R297). -/
def State.sentData (s : State) (n : Nat) (op : DevOp) (off : Nat) : Nat :=
  match op.kind with
  | .amo code _ mode _ _ => (s.treeOf n op).operand code mode op.len
  | _ => op.data / 2 ^ (8 * off)

/-- What the packet of an access carries of `len` bytes of it from virtual address `va`, at physical address `pa`: a chain's is
R214's, of any other the fields it needs, the key id among them; a plain load asks for whole lines, from which the snapshot cache may
fill (R80, R140; log 19). -/
def State.packetFields (s : State) (n : Nat) (op : DevOp) (va len pa : Nat) : List Nat :=
  match op.kind with
  | .chain _ m i val =>
    let reg := match op.dst with
      | .g r => r
      | _ => 0
    [ofBytes (chainPacket ((s.node.map Node.id).getD 0) op.ctx n reg m op.id i op.va val op.data)]
  | _ =>
    let (at_, k) := if op.fill && decide (len = op.len) then (pa / 64 * 64, (linesOf pa len).length * 64) else (pa, len)
    [n, op.id, op.ctx, at_, k, s.sentData n op (va - op.va), (op.bytes >>> (va - op.va)).toNat, s.keyOf (s.opLook n op) op.ctx va, va,
      op.kind.path, op.ord, op.scope]

/-- The bytes of a packet that a check word covers on its way out (R82, R214). -/
def State.sentBytes (s : State) (n : Nat) (op : DevOp) (va len pa : Nat) : List Byte :=
  match op.kind with
  | .store => storedBytes len (s.sentData n op (va - op.va)) (op.bytes >>> (va - op.va))
  | .amo _ _ _ _ _ => toBytes op.len (s.sentData n op 0)
  | .chain _ _ _ _ => (s.packetFields n op va len pa).flatMap (payloadOf 6 [·])
  | _ => []

/-- A packet on its way to another module, compared at the routers and at the link toward it: whether its word disagreed, so that its
data go on poisoned (R24, R84, R86). -/
def State.egressCheck (s : State) (n ctx line node : Nat) (bs : List Byte) : State × Bool :=
  if bs = [] then (s, false)
  else match s.mismatch [1, 2] ctx line (towerOf n) bs with
    | some (_, s) => (s, true)
    | none =>
      match s.mismatch [0xB] ctx line (((s.linkTo node).map linkTower).getD 0) bs with
      | some (_, s) => (s, true)
      | none => (s, false)

/-- An access sent, or `len` bytes of it from a virtual address, to the module that owns its line, or failed where that module
cannot be reached (R84, R321, R434, R436). -/
def State.opRemote (s : State) (n : Nat) (op : DevOp) (va len pa node : Nat) : State :=
  let (s, bad) := s.egressCheck n op.ctx (pa / 64 * 64) node (s.sentBytes n op va len pa)
  match s.sendNode node op.kind.fabricClass bad (s.packetFields n op va len pa) with
  | some s =>
    let s := if op.kind == .store then
        (let s := s.patchSnap n op.ctx pa len (op.data / 2 ^ (8 * (va - op.va))) (op.bytes >>> (va - op.va))
         s.setBrick n ((s.brick n).cancelFills op.ctx (linesOf pa len) va len))
      else s
    s.putOp n { op with
      stage := .remote node, turn := (va - op.va) / 32, data := if op.kind.isLoad && !op.kind.isChain then pa + op.va - va else op.data }
  | none =>
    let r := fun (o : DevOp) => faultReport o.kind.ctr o.va 0xFFFF o.kind.path 0xB
    match op.kind with
    | .amo _ _ _ _ _ => s.failTree (s.treeOf n op) 1 0xB r
    | _ => s.putOp n (op.fail (r op))

/-! ## Translating an access -/

/-- Some bytes of an access taken to their physical address: faults have their effect, a line of another module is asked
for over the fabric, and the lines are served by their slices (R67, R94, R204, R292). -/
def State.reach (s : State) (n : Nat) (op : DevOp) (va len : Nat) (use : Use) (k : Nat → State → State) : State :=
  let look := s.opLook n op
  match s.xlate look op.ctx va use false with
  | .error f => s.opFault look n op va (towerOf n) f
  | .ok pa =>
    let s := match op.stage with
      | .parked t => s.dropToken t
      | _ => s
    match s.ownerNode pa with
    | some node => s.opRemote n op va len pa node
    | none => k pa (s.sliced look (towerOf n) op.ctx va pa len (use == .write))

/-- An access that found poison (R87, R294). -/
def DevOp.poisoned (op : DevOp) : DevOp := op.fail (poisonedReport op.kind.ctr op.va)

/-! ## Loads (R67, R87, R206, R352) -/

/-- The report of a malformed record (R335, R371). -/
def recordReport (ctr : Ctr) (va path : Nat) : Report :=
  ⟨ctr, { plainTrap 5 3 with addr := BitVec.ofNat 64 va, aux := 0xFFFF, path := path }⟩

/-- A load performed at its slice: the whole lines are kept, from which the snapshot cache may fill (R140). -/
def State.loadAt (s : State) (n : Nat) (op : DevOp) (pa : Nat) : State :=
  let base := pa / 64 * 64
  let len := (linesOf pa op.len).length * 64
  match s.mismatch [1, 2, 3] op.ctx base (paTower pa) (s.readPhys base 64) with
  | some (p, s) => (s.hurt p base).putOp n op.poisoned
  | none =>
    if s.poisoned pa op.len then s.putOp n op.poisoned
    else
      let b := (s.brick n).dropLines op.ctx (linesOf pa op.len) op.va op.len
      (s.setBrick n b).putOp n { op.perform (ofBytes (s.readPhys base len)) 0 with data := pa }

/-! ### The sectors of a 256-byte access (R321) -/

/-- Whether an access is performed sector by sector: a `vld` or a `vst`. -/
def DevOp.wide (op : DevOp) : Bool := decide (32 < op.len)

/-- The sectors of an access not yet performed. -/
def DevOp.sectorsLeft (op : DevOp) : List Nat := (List.range (op.len / 32)).filter (fun i => !bit op.sect i)

/-- The sector performed next: sectors are performed in no fixed order (R321; log 26). -/
def State.nextSector (s : State) (op : DevOp) : Nat :=
  match op.sectorsLeft with
  | [] => 0
  | [i] => i
  | l => l.getD (Config.sectorPick s.tick % l.length) 0

/-- An access with one more sector performed: the access itself once it is the last. -/
def DevOp.sectorDone (op : DevOp) (i : Nat) (acc : Nat) : DevOp :=
  { op with sect := setBits op.sect i i 1, acc := acc, stage := .issued }

/-- Sector i of a load read at its slice (R87, R321). -/
def State.loadSector (s : State) (n : Nat) (op : DevOp) (i pa : Nat) : State :=
  let s := { s with tick := s.tick + 1 }
  let line := pa / 64 * 64
  match s.mismatch [1, 2, 3] op.ctx line (paTower pa) (s.readPhys pa 32) with
  | some (p, s) => (s.hurt p line).putOp n op.poisoned
  | none =>
    if s.poisoned pa 32 then s.putOp n op.poisoned
    else
      let op := op.sectorDone i (op.acc + ofBytes (s.readPhys pa 32) * 2 ^ (256 * i))
      if op.sectorsLeft = [] then
        let base := pa - 32 * i
        let b := (s.brick n).dropLines op.ctx (linesOf base op.len) op.va op.len
        (s.setBrick n b).putOp n { op.perform op.acc 0 with data := base }
      else s.putOp n op

/-- A record's word read (R352). -/
def State.treadAt (s : State) (n : Nat) (op : DevOp) (pa : Nat) : State :=
  let line := pa / 64 * 64
  match s.mismatch [1, 2, 3] op.ctx line (paTower pa) (s.readPhys line 64) with
  | some (p, s) => (s.hurt p line).putOp n op.poisoned
  | none =>
    if s.poisoned pa 8 then s.putOp n op.poisoned
    else if recMalformed (ofBytes (s.readPhys line 64)) then s.putOp n (op.fail (recordReport .ld op.va 0))
    else (s.dropLinesOf n op.ctx pa op.len op.va).putOp n { op.perform (ofBytes (s.readPhys pa 8)) 0 with data := pa }

/-- A load, or one sector of it, or a record read performed (R321). -/
def State.performLoad (s : State) (n : Nat) (op : DevOp) : State :=
  match op.kind with
  | .load _ =>
    if op.wide then
      let i := s.nextSector op
      s.reach n op (op.va + 32 * i) 32 .read (fun pa s => s.loadSector n op i pa)
    else s.reach n op op.va op.len .read (fun pa s => s.loadAt n op pa)
  | .tread => s.reach n op op.va op.len .read (fun pa s => s.treadAt n op pa)
  | _ => s

/-! ## Stores (R82, R86, R87, R292) -/

/-- Bytes merged under a mask. -/
def mergeBytes (old : List Byte) (data : Nat) (mask : BitVec 256) : List Byte :=
  (List.range old.length).map (fun i =>
    if mask.getLsbD i then BitVec.ofNat 8 (data / 2 ^ (8 * i)) else old.getD i 0)

/-- Bytes of a mask written at a physical address; a line written whole with good data loses its poison (R87). -/
def State.writeMasked (s : State) (pa n data : Nat) (mask : BitVec 256) : State :=
  let full := fun l => (List.range 64).all (fun i => decide (pa ≤ l + i) && mask.getLsbD (l + i - pa))
  let whole := (wholeLines pa n).filter full
  { s with
    mem := writeBytes s.mem pa (mergeBytes (s.readPhys pa n) data mask)
    img := if s.img = [] then [] else s.img.filter (fun x => !(linesOf pa n).contains x.1)
    pois := if s.pois = [] then [] else s.pois.filter (fun l => !whole.contains l) }

/-- A store performed at its slice. A packet whose word disagrees is discarded, and its line poisoned (R86). -/
def State.storeAt (s : State) (n : Nat) (op : DevOp) (pa : Nat) : State :=
  let line := pa / 64 * 64
  match s.mismatch [1, 2, 3] op.ctx line (paTower pa) (storedBytes op.len op.data op.bytes) with
  | some (_, s) => (s.poison line).putOp n (op.perform 0 0)
  | none =>
    let s := (s.writeMasked pa op.len op.data op.bytes).refreshSnap n op.ctx pa op.len
    (s.setBrick n ((s.brick n).cancelFills op.ctx (linesOf pa op.len) op.va op.len)).putOp n (op.perform 0 0)

/-- Whether sectors 2j and 2j + 1 of a store have both been written whole with good data, which clears their line's poison
(R87). -/
def DevOp.lineWhole (op : DevOp) (i : Nat) : Bool :=
  let j := i / 2 * 2
  bit op.sect j && bit op.sect (j + 1) && !bit op.acc j && !bit op.acc (j + 1) &&
  (List.range 64).all (fun k => op.bytes.getLsbD (32 * j + k))

/-- Sector i of a store written at its slice (R86, R87, R321). -/
def State.storeSector (s : State) (n : Nat) (op : DevOp) (i pa : Nat) : State :=
  let s := { s with tick := s.tick + 1 }
  let line := pa / 64 * 64
  let data := op.data / 2 ^ (256 * i)
  let mask := op.bytes >>> (32 * i)
  let finish := fun (s : State) (op : DevOp) => s.putOp n (if op.sectorsLeft = [] then op.perform 0 0 else op)
  match s.mismatch [1, 2, 3] op.ctx line (paTower pa) (storedBytes 32 data mask) with
  | some (_, s) => finish (s.poison line) (op.sectorDone i (setBits op.acc i i 1))
  | none =>
    let op := op.sectorDone i op.acc
    let s := (s.writeMasked pa 32 data (mask &&& lowBytes 32)).refreshSnap n op.ctx pa 32
    let s := if op.lineWhole i then { s with pois := s.pois.filter (fun l => l != line) } else s
    finish (s.setBrick n ((s.brick n).cancelFills op.ctx [line] (op.va + 32 * i) 32)) op

/-- The sector of a store that is performed now: of a line that has come, one of that line. -/
def State.storeTurn (s : State) (op : DevOp) (only : Option Nat) : Nat :=
  match only with
  | some i => i
  | none => s.nextSector op

/-- A store, or one sector of it, performed (R321). A marker whose conditions are met leaves the store path (R223). -/
def State.performStore (s : State) (n : Nat) (op : DevOp) (only : Option Nat) : State :=
  match op.kind with
  | .store =>
    if op.wide then
      let i := s.storeTurn op only
      s.reach n op (op.va + 32 * i) 32 .write (fun pa s => s.storeSector n op i pa)
    else s.reach n op op.va op.len .write (fun pa s => s.storeAt n op pa)
  | .marker => s.delOp n op.id
  | _ => s

/-! ## Atomics at their slice (R209, R294, R295) -/

/-- An atomic performed at its slice, with those combined behind it (R209, R294, R295, R300). -/
def State.amoAt (s : State) (n : Nat) (op : DevOp) (pa : Nat) : State :=
  match op.kind with
  | .amo code _ mode _ cmp =>
    let t := s.treeOf n op
    let line := pa / 64 * 64
    match s.mismatch [1, 2, 3] op.ctx line (paTower pa) (toBytes op.len op.data) with
    | some (_, s) => (s.poison line).failTree t 2 0 (fun o => poisonedReport .st o.va)
    | none =>
      if s.poisoned pa op.len then s.failTree t 2 0 (fun o => poisonedReport .st o.va)
      else
        let old := ofBytes (s.readPhys pa op.len)
        let (new, f) := amoNew code mode op.len cmp old (t.operand code mode op.len)
        let s := match new with
          | some x => s.writePhys pa (toBytes op.len x)
          | none => s
        (s.dropTree t op.ctx [line] op.va op.len).replyTree t old f
  | _ => s

/-! ## Task operations (R334 to R336, R348 to R351) -/

/-- Entries that dispatch a record, in hardware, in rings and in local queues, removed (R351, R370). -/
def State.dropRecord (s : State) (ctx va : Nat) : State :=
  let keep := fun (e : QEnt) => !(e.ctx == ctx && e.recVa == va && e.kind == 0)
  let f := fun (d : Dome) => d.strike (fun e => !keep e)
  let s := s.mapBricks (fun b => { b with
    localQ := b.localQ.filter keep
    assigned := match b.assigned with
      | some e => if keep e then some e else none
      | none => none })
  { s with dome0 := f s.dome0, dome1 := f s.dome1 }

/-- The held product of a brick whose task was killed stops at once, and its report is discarded (R387, R449). -/
def Brick.stopHeld (b : Brick) : Brick :=
  match b.mxq with
  | op :: rest =>
    if op.exposed && (op.waiting || b.hold.any (fun h => !h.fetch)) && op.code.isProduct then
      let n := match b.hold with
        | some h => if h.fetch then op.nextBlock.2 else op.colAtVa h.va
        | none => op.nextBlock.2
      { b with hold := none, mxq := op.stopAt n (plainTrap 0 0) :: rest }
    else { b with hold := none }
  | [] => { b with hold := none }

/-- A killed task's registration gone, and the task off its brick (R351, R387). -/
def State.stopTask (s : State) (t : Task) : State :=
  let s := match s.brickRunning t.tid with
    | some b => s.withFocus b.bid (fun s => (s.onB Brick.stopHeld).vacate)
    | none => s
  s.dropTask t.tid t.launch 2

/-- One target of a kill, in one step, by a tower's dome (R351). -/
def State.killOne (s : State) (tower ctx va : Nat) : State :=
  match s.recAt ctx va with
  | none => s
  | some (pa, r) =>
    if recMalformed r || decide (6 ≤ recState r) then s
    else
      let s := s.writeRec tower ctx va pa (recSet r 7 0 0)
      let s := s.poisonBarriers tower ctx (recBar r)
      let s := s.dropRecord ctx va
      match s.tasks.find? (fun t => t.recVa == va && t.ctx == ctx) with
      | some t => s.stopTask t
      | none => s

/-- The launch of a context that created a record, by the place of its records (R340). -/
def State.creator (s : State) (ctx va : Nat) : Option Launch :=
  s.launches.find? (fun l => l.ctx == ctx && decide (l.rbase ≤ va) && decide (va < l.rbase + 64 * (l.teamsMade * l.tsize)) &&
    decide ((va - l.rbase) % 64 = 0))

/-- Records of the members of a launch-created record's team, whose own task may have ended; a record that `tspawn` made ready is a
team of one (R340, R351). -/
def State.teamRecords (s : State) (ctx va : Nat) : List Nat :=
  if s.tasks.any (fun t => t.recVa == va && t.ctx == ctx && t.spawned) then [va]
  else match s.creator ctx va with
    | some l =>
      let t := (va - l.rbase) / 64 / l.tsize
      (List.range l.tsize).map (fun j => l.rbase + 64 * (t * l.tsize + j))
    | none => [va]

/-- A kill of a record or of its team (R351). -/
def State.kill (s : State) (tower ctx va : Nat) (team : Bool) : State :=
  (if team then s.teamRecords ctx va else [va]).foldl (fun s r => s.killOne tower ctx r) s

/-- Registrations of a tower's dome (R360). -/
def State.registered (s : State) (tower : Nat) : Nat := (s.tasks.filter (fun t => towerOf t.brick == tower)).length

/-- A spawn performed on a record (R335, R349): registered with the issuer's launch, waiting or ready. -/
def State.spawn (s : State) (n ctx launch va pa r : Nat) : State :=
  if recState r ≠ 0 then s
  else
    let t : Task := { Task.empty with
      tid := s.nextTid, recVa := va, ctx := ctx, launch := launch, spawned := true, team := recTeam r
      member := recMember r, tsize := 1, bar := recBar r, frame := recFrame r, prio := recPrio r, brick := n }
    let s := { s with tasks := s.tasks ++ [t], nextTid := s.nextTid + 1 }
    let s := s.onLaunch launch (fun l => { l with live := l.live + 1 })
    if recDep r = 0 then s.makeReady t (towerOf n) (quadOf n)
    else s.writePhys pa (toBytes 64 (recSet r 1 0 0))

/-- A task operation performed on its record's line (R334, R348). -/
def State.recordAt (s : State) (n : Nat) (op : DevOp) (pa : Nat) : State :=
  let r := ofBytes (s.readPhys pa 64)
  let s := s.dropLinesOf n op.ctx pa 64 op.va
  match s.mismatch [1, 2, 3] op.ctx pa (paTower pa) (s.readPhys pa 64) with
  | some (_, s) => (s.poison pa).putOp n op.poisoned
  | none =>
  if s.poisoned pa 64 then s.putOp n op.poisoned
  else if recMalformed r then s.putOp n (op.fail (recordReport .st op.va 1))
  else
    match op.kind with
    | .tspawn =>
      if recState r = 0 ∧ 65536 ≤ s.registered (towerOf n) then s
      else (s.spawn n op.ctx op.launch op.va pa r).putOp n (op.perform 0 0)
    | .tdec => (s.decrement op.ctx op.va (towerOf n) (quadOf n) n false).putOp n (op.perform 0 0)
    | .tinc k =>
      (s.writePhys pa (toBytes 64 (setBits r 127 112 (min 65535 (recDep r + k))))).putOp n (op.perform 0 0)
    | .tkill team => (s.kill (towerOf n) op.ctx op.va team).putOp n (op.perform 0 0)
    | _ => s

/-- An atomic performed; a fault of a combined one that does not park is every member's (R294, R299). -/
def State.performAmo (s : State) (n : Nat) (op : DevOp) : State :=
  let go := s.reach n op op.va op.len .write (fun pa s => s.amoAt n op pa)
  match s.treeOf n op, s.xlate (s.opLook n op) op.ctx op.va .write false with
  | .pair l f, .error (kind, rc, level, pte) =>
    if kind = 0 then go
    else
      let w := s.faultTower (s.opLook n op) op.ctx op.va kind (towerOf n)
      if s.faultRoom w then
        let s := match op.stage with
          | .parked t => s.dropToken t
          | _ => s
        (s.postFault w (faultRecord s.clk pte.toNat 0xFFFF n op.ctx rc level kind 1 op.va)).failTree (.pair l f) 1 kind
          (fun o => faultReport .st o.va 0xFFFF 1 kind)
      else s
  | _, _ => go

/-- An atomic or task operation performed. -/
def State.performAtomic (s : State) (n : Nat) (op : DevOp) : State :=
  match op.kind with
  | .amo _ _ _ _ _ => s.performAmo n op
  | .tspawn => s.reach n op op.va op.len .write (fun pa s => s.recordAt n op pa)
  | .tdec => s.reach n op op.va op.len .write (fun pa s => s.recordAt n op pa)
  | .tinc _ => s.reach n op op.va op.len .write (fun pa s => s.recordAt n op pa)
  | .tkill _ => s.reach n op op.va op.len .write (fun pa s => s.recordAt n op pa)
  | _ => s

/-! ## The write queue (R292, R293) -/

/-- Whether a line waits in its slice's write queue. -/
def State.lineWaits (s : State) (line : Nat) : Bool := s.wq.any (fun e => e.line == line)

/-- Kinds of access that SLICE_ATOMIC performs. -/
def DevKind.atomic : DevKind → Bool
  | .amo _ _ _ _ _ => true
  | .tspawn => true
  | .tdec => true
  | .tinc _ => true
  | .tkill _ => true
  | _ => false

/-- Where an access's lines are, when it can be translated. -/
def State.opLines (s : State) (n : Nat) (op : DevOp) : List Nat :=
  match s.xlate (s.opLook n op) op.ctx op.va .read false with
  | .ok pa =>
    if op.wide then (linesOf pa op.len).filter (fun l => op.sectorsLeft.any (fun i => decide ((pa + 32 * i) / 64 * 64 = l)))
    else linesOf pa op.len
  | .error _ => []

/-- The waiting line that an access must queue behind. -/
def State.waitsFor (s : State) (n : Nat) (op : DevOp) : Option Nat := (s.opLines n op).find? s.lineWaits

/-- The requests that a slice's write queue has room for: 32 lines (R292). -/
def State.queueRoom (s : State) (line : Nat) : Bool :=
  decide ((s.wq.filter (fun e => sliceOf e.line == sliceOf line)).length < 32)

/-- A request put in a line's write-queue entry, behind those that wait there. -/
def State.enqueueWrite (s : State) (n : Nat) (op : DevOp) (line : Nat) : State :=
  let s := s.putOp n { op with stage := .queued }
  if s.lineWaits line then
    { s with wq := s.wq.map (fun e => if e.line = line then { e with reqs := e.reqs ++ [(n, op.id)] } else e) }
  else { s with wq := s.wq ++ [⟨line, [(n, op.id)]⟩] }

/-- A store or atomic at its slice (R67, R292, R293): it waits for its line while others wait for it, or while the slice does
not hold it; a line that the slice held and that has left since (`held` false) is written back first. With every entry of the
slice in use it waits at the slice's input. -/
def State.atSlice (s : State) (n : Nat) (op : DevOp) (held : Bool) (perform : State → State) : State :=
  match s.waitsFor n op with
  | some line => s.enqueueWrite n op line
  | none =>
    match (s.opLines n op).find? (fun l => !held || !s.holds l) with
    | some line => if s.queueRoom line then (s.evict line).enqueueWrite n op line else s
    | none => if (s.opLines n op).all s.queueRoom then perform s else s

/-- The sectors of a store that lie in a line (R321). -/
def State.sectorsIn (s : State) (n : Nat) (op : DevOp) (line : Nat) : List Nat :=
  match s.xlate (s.opLook n op) op.ctx op.va .read false with
  | .ok pa => op.sectorsLeft.filter (fun i => decide ((pa + 32 * i) / 64 * 64 = line))
  | .error _ => []

/-- A request that waited for a line performed. -/
def State.performQueued (s : State) (line n id : Nat) : State :=
  match (s.brick n).op? id with
  | some op =>
    let op := { op with stage := .issued }
    let s := s.putOp n op
    if op.kind.atomic then s.performAtomic n op
    else if op.wide then
      (s.sectorsIn n op line).foldl (fun s i => match (s.brick n).op? id with
        | some op => s.performStore n op (some i)
        | none => s) s
    else s.performStore n op none
  | none => s

/-- A line that comes from the stack: it is held, and the requests that wait for it are performed in order (R293). -/
def State.lineCame (s : State) (line : Nat) : State :=
  match s.wq.find? (fun e => e.line == line) with
  | some e =>
    let s := ({ s with wq := s.wq.filter (fun x => x.line != line) } : State).allocate line false
    e.reqs.foldl (fun s p => s.performQueued line p.1 p.2) s
  | none => s

/-- The requests that wait for the lines of a range performed, for an access of an engine, a port or another module that
comes behind them (R67, R292). -/
def State.settle (s : State) (pa n : Nat) : State :=
  if s.wq = [] then s else (linesOf pa n).foldl (fun s l => s.lineCame l) s

/-- The requests that wait for any line performed, for an event of a dome or of a context engine that reaches many lines
(R67, R292; log 122). -/
def State.settleAll (s : State) : State := s.wq.foldl (fun s e => s.lineCame e.line) s

/-- The requests that wait for the lines of a range under a context performed (R67, R292). -/
def State.settleVa (s : State) (ctx va n : Nat) : State :=
  if s.wq = [] then s
  else match s.paOf ctx va .read with
    | some pa => s.settle pa n
    | none => s

/-- Where the entries that an address's walk reads lie (R88). -/
def State.walkEntries (s : State) (ctx va : Nat) : List Nat :=
  match s.ctxEnt ctx with
  | some e =>
    if decide (va < 2 ^ 52) && physOk (rootOf e) then
      ((rootOf e :: (s.nodesOf ctx va).map (fun n => bits n.leaf.toNat 51 12 * 4096)).zipIdx).map (fun p =>
        p.1 + 8 * (if p.2 = 0 then va / 2 ^ 39 % 8192 else va / 2 ^ levelShift (3 - p.2) % 512))
    else []
  | none => []

/-- A walk as the slices see it: each entry comes from its line behind the requests that wait there, and the line is held from then
on (R67, R88). An access that its buffers translate walks nothing. -/
def State.seeWalk (s : State) (l : Look) (ctx va : Nat) : State :=
  if (tlbFind l.ents ctx va).isSome then s
  else
    let s := if s.wq = [] then s
      else (List.range 4).foldl (fun s _ => (s.walkEntries ctx va).foldl (fun s a => s.settle a 8) s) s
    (s.walkEntries ctx va).foldl (fun s a => s.touch a 8 false false) s

/-- What a brick's task has in memory that its dome writes as it leaves: its record and its barriers' block, behind the requests
that wait for those lines (R67, R334, R346). -/
def State.settleTask (s : State) : State :=
  if s.wq = [] then s
  else
    let s := s.settleVa s.b.t.ctx s.b.t.recVa 64
    if s.b.t.bar = 0 then s
    else (List.range 65).foldl (fun s i => s.settleVa s.b.t.ctx (s.b.t.bar + 64 * i) 64) s

/-- SLICE_READ (R67, R206, R352). -/
def execSliceRead (id : Nat) (s : State) : Out :=
  match s.b.op? id with
  | some op =>
    .next (if s.ready s.b op && (s.waitsFor s.b.bid op).isNone then (s.seeWalk (s.opLook s.b.bid op) op.ctx op.va).performLoad s.b.bid op
      else s)
  | none => .next s

/-- SLICE_WRITE (R292): a marker is met; a store is performed, or waits for a line not held. -/
def execSliceWrite (id : Nat) (held : Bool) (s : State) : Out :=
  match s.b.op? id with
  | some op =>
    .next (if s.ready s.b op then
      match op.kind with
      | .marker => s.delOp s.b.bid id
      | .store => (s.seeWalk (s.opLook s.b.bid op) op.ctx op.va).atSlice s.b.bid op held (fun s => s.performStore s.b.bid op none)
      | _ => s
    else s)
  | none => .next s

end Sys2Proof.Machine
end

