-- ==== Sys2Proof/Machine/Context.lean ====
section
/-!
DEFINITION. The context engine: image slots, headers and granules (R388, R389, R392), segments and their coding (R390,
R391), what a save writes and what a restore reads back (R392 to R394).
-/

namespace Sys2Proof.Machine

open Sys2Proof

/-! ## The coder (R391) -/

/-- A list of bytes as 8-byte words. -/
def wordsIn (bs : List Byte) : List Nat := (List.range (bs.length / 8)).map (fun i => ofBytes ((bs.drop (8 * i)).take 8))

/-- Length of the run of words equal to the first. -/
def runLength (w : Nat) : List Nat → Nat
  | [] => 0
  | x :: rest => if x = w then runLength w rest + 1 else 0

/-- Bytes of an item: its head, then what follows it. -/
def itemBytes (type count : Nat) (words : List Nat) : List Byte :=
  toBytes 2 (type * 16384 + (count - 1)) ++ words.flatMap (toBytes 8)

/-- The literal item of the words gathered so far. -/
def flushLit (lit : List Nat) : List Byte := if lit = [] then [] else itemBytes 0 lit.length lit

/-- The items of a list of words: zero items for two or more zero words, repeat items for three or more equal words, the
rest in literals. -/
def codeWords : Nat → List Nat → List Nat → List Byte
  | 0, lit, _ => flushLit lit
  | _ + 1, lit, [] => flushLit lit
  | fuel + 1, lit, w :: rest =>
    let n := runLength w (w :: rest)
    if w = 0 ∧ 2 ≤ n then flushLit lit ++ itemBytes 1 n [] ++ codeWords fuel [] ((w :: rest).drop n)
    else if 3 ≤ n then flushLit lit ++ itemBytes 2 n [w] ++ codeWords fuel [] ((w :: rest).drop n)
    else codeWords fuel (lit ++ [w]) rest

/-- The coded body of raw bytes, padded to a multiple of 16 (R390). -/
def codeBody (raw : List Byte) : List Byte :=
  let bs := codeWords (raw.length / 8 + 1) [] (wordsIn raw)
  bs ++ List.replicate ((16 - bs.length % 16) % 16) 0

/-- The words that a padded coded body stands for: its items make exactly a number of them, and only the zero padding follows; none
where that fails (R390, R391). -/
def decodeWords : Nat → Nat → List Byte → Option (List Nat)
  | 0, _, _ => none
  | fuel + 1, left, bs =>
    if left = 0 then (if decide (bs.length < 16) && bs.all (· == 0) then some [] else none)
    else
      let head := ofBytes (bs.take 2)
      let n := head % 16384 + 1
      let rest := bs.drop 2
      let type := head / 16384
      if bs.length < 2 ∨ left < n ∨ type = 3 then none
      else if type = 0 then
        (if rest.length < 8 * n then none
         else (decodeWords fuel (left - n) (rest.drop (8 * n))).map (fun l => wordsIn (rest.take (8 * n)) ++ l))
      else if type = 1 then (decodeWords fuel (left - n) rest).map (fun l => List.replicate n 0 ++ l)
      else if rest.length < 8 then none
      else (decodeWords fuel (left - n) (rest.drop 8)).map (fun l => List.replicate n (ofBytes (rest.take 8)) ++ l)

/-- The raw bytes of a coded body of 4,096 bytes. -/
def decodeBody (bs : List Byte) : Option (List Byte) :=
  (decodeWords (bs.length + 1) 512 bs).map (fun l => l.flatMap (toBytes 8))

/-! ## Segments (R388, R390) -/

/-- Region and offset of a granule (R388, R390). -/
def granulePlace (i : Nat) : Nat × Nat :=
  if i < 4 then (0, 4096 * i)
  else if i < 260 then (1, 4096 * (i - 4))
  else if i < 388 then (2, 4096 * (i - 260))
  else if i < 404 then (3, 4096 * (i - 388))
  else (4, 0)

/-- A segment header without its crc (R390). -/
def segHeader (i gen clen : Nat) : Nat :=
  let (region, off) := granulePlace i
  off + region * 2 ^ 20 + 4096 * 2 ^ 29 + clen * 2 ^ 46 + gen * 2 ^ 64

/-- The bytes of a granule's segment (R390). -/
def segBytes (i gen : Nat) (raw : List Byte) : List Byte :=
  let body := codeBody raw
  let h := segHeader i gen body.length
  toBytes 16 (h + crc32c (toBytes 16 h ++ body) * 2 ^ 96) ++ body

/-- The raw bytes of a stored segment; none where R393 fails it. Its place in the slot says which granule it is. -/
def segRaw (gen : Nat) (bs : List Byte) : Option (List Byte) :=
  let h := ofBytes (bs.take 16)
  let clen := bits h 63 46
  let body := (bs.drop 16).take clen
  let bare := setBits h 127 96 0
  if bits h 28 24 ≠ 0 ∨ bits h 45 29 ≠ 4096 ∨ body.length ≠ clen ∨ gen < bits h 95 64 ∨
      bits h 127 96 ≠ crc32c (toBytes 16 bare ++ body) then none
  else decodeBody body

/-! ## The image's bytes (R388, R389) -/

/-- Bytes of a list of words. -/
def wordBytesOf (l : List Word) : List Byte := l.flatMap (fun w => toBytes 8 w.toNat)

/-- The pipeline image's bytes, whose format the manual leaves to the device (R389; log 12). -/
def pipeBytes (tid : Nat) : List Byte := toBytes 4096 (Config.pipelineImage tid)

/-- The 16 KiB of the core granules (R389): `tstate` says whether a throttle notice is pending (R380). -/
def coreBytes (b : Brick) (notice : Bool) : List Byte :=
  let y := b.y
  let head :=
    wordBytesOf b.r.g.toList ++ b.r.v.toList.flatMap (fun v => toBytes 256 v.toNat) ++ wordBytesOf b.r.m.toList ++
    wordBytesOf y.tag.toList ++ wordBytesOf [y.nflg, y.tvec, BitVec.ofNat 64 (y.inh.toNat + 2 * notice.toNat)] ++ wordBytesOf y.trec.toList ++
    wordBytesOf y.wcmp.toList ++ wordBytesOf [BitVec.ofNat 64 (1 + 2 * b.r.k.toNat), BitVec.ofNat 64 y.thand.toNat, BitVec.ofNat 64 b.cyc] ++
    wordBytesOf (y.wakeQ ++ List.replicate (16 - y.wakeQ.length) 0) ++ wordBytesOf [BitVec.ofNat 64 y.wakeQ.length] ++
    y.arm.toList.flatMap (fun a => toBytes 8 a.toNat)
  head ++ List.replicate (0x3000 - head.length) 0 ++ pipeBytes b.t.tid

/-- The spire granule: the entries addressed to the brick, oldest first (R388). -/
def spireBytes (b : Brick) : List Byte :=
  let bs := b.spq.flatMap (fun e => toBytes 256 e.data.toNat)
  bs ++ List.replicate (4096 - bs.length) 0

/-- The raw bytes of granule i. -/
def granuleBytes (b : Brick) (notice : Bool) (i : Nat) : List Byte :=
  if i < 4 then ((coreBytes b notice).drop (4096 * i)).take 4096
  else if i < 404 then (let (region, off) := granulePlace i; b.loc.read (region - 1) off 4096)
  else spireBytes b

/-! ## Image slots (R388) -/

/-- Base and slot count of a context's save area (R428). -/
def State.saveArea (s : State) (ctx : Nat) : Nat × Nat :=
  match s.ctxEnt ctx with
  | some e => (bits e 183 153 * 2 ^ 21, bits e 199 184)
  | none => (0, 0)

/-- Address of a slot of a context's save area (R388). -/
def State.slotVa (s : State) (ctx slot : Nat) : Nat := (s.saveArea ctx).1 + 0x1A0000 * slot

/-- A slot for a task: the one it has, or the lowest that no task of its context has (R388). -/
def State.slotFor (s : State) (t : Task) : Option Nat :=
  match t.slot with
  | some n => some n
  | none => (List.range (min (s.saveArea t.ctx).2 (s.tasks.length + 1))).find? (fun n =>
      !s.tasks.any (fun u => u.ctx == t.ctx && u.slot == some n))

/-- Bytes written under a context by a tower's context engine, page by page. -/
def State.writeVaAll (s : State) (tower ctx : Nat) : Nat → Nat → List Byte → State
  | 0, _, _ => s
  | fuel + 1, va, bs =>
    if bs = [] then s
    else
      let k := min bs.length (4096 - va % 4096)
      (s.writeVa tower ctx va (bs.take k)).writeVaAll tower ctx fuel (va + k) (bs.drop k)

/-- Bytes read under a context by a tower's context engine, as the slices see the reads (R67, R84, R108). -/
def State.seeVaAll (s : State) (tower ctx : Nat) : Nat → Nat → Nat → State
  | 0, _, _ => s
  | fuel + 1, va, n =>
    if n = 0 then s
    else
      let k := min n (64 - va % 64)
      (s.domeSee tower ctx va k).seeVaAll tower ctx fuel (va + k) (n - k)

/-- Bytes read under a context, page by page; none where a page cannot be read. -/
def State.readVaAll (s : State) (ctx : Nat) : Nat → Nat → Nat → Option (List Byte)
  | 0, _, _ => some []
  | fuel + 1, va, n =>
    if n = 0 then some []
    else
      let k := min n (4096 - va % 4096)
      match s.readVa ctx va k, s.readVaAll ctx fuel (va + k) (n - k) with
      | some a, some b => some (a ++ b)
      | _, _ => none

/-- An image header without its crc: generation, owner, brick and present bits (R388). -/
def imageHeader (gen ctx brick : Nat) (present : Nat) : Nat :=
  brick + ctx % 65536 * 2 ^ 16 + gen * 2 ^ 32 + present * 2 ^ 512

/-- The 128 bytes of an image header. -/
def headerBytes (gen ctx brick present : Nat) : List Byte :=
  let h := imageHeader gen ctx brick present
  toBytes 128 (h + crc32c (toBytes 128 h) * 2 ^ 96)

/-- The present bits of the header that stands in a slot. -/
def State.presentBits (s : State) (ctx slot : Nat) : Nat := ((s.readVaNat ctx (s.slotVa ctx slot + 64) 64)).getD 0

/-- A granule's segment written in its place of a slot. -/
def State.putSegment (s : State) (tower ctx slot gen i : Nat) (raw : List Byte) : State :=
  s.writeVaAll tower ctx 4 (s.slotVa ctx slot + 128 + 4128 * i) (segBytes i gen raw)

/-- The granules a save writes: core and spire, and those whose dirty bit is set (R392). -/
def savedGranules (b : Brick) : List Nat :=
  (List.range 405).filter (fun i => decide (i < 4) || decide (i = 404) || b.dirty.contains i)

/-- A save's writes to the slot: segments first, the header last (R392). In a slot that the task did not have nothing is present
yet. -/
def State.writeImage (s : State) (b : Brick) (ctx slot gen : Nat) (fresh : Bool) : State :=
  let gs := savedGranules b
  let w := towerOf b.bid
  let old := if fresh then 0 else s.presentBits ctx slot
  let s := gs.foldl (fun s i => s.putSegment w ctx slot gen i (granuleBytes b (s.notices.contains ctx) i)) s
  let present := gs.foldl (fun p i => p ||| 2 ^ i) old
  s.writeVa w ctx (s.slotVa ctx slot) (headerBytes gen ctx b.bid present)

/-! ## Reading an image back (R393) -/

/-- Whether some bytes under a context are poisoned, page by page (R87). -/
def State.vaPoisoned (s : State) (ctx : Nat) : Nat → Nat → Nat → Bool
  | 0, _, _ => false
  | fuel + 1, va, n =>
    if n = 0 then false
    else
      let k := min n (4096 - va % 4096)
      (s.paOf ctx va .read).any (fun pa => s.poisoned pa k) || s.vaPoisoned ctx fuel (va + k) (n - k)

/-- The core granules, of which an absent one reads as zero (R388). -/
def coreOf (gs : List (Nat × List Byte)) : List Byte :=
  (List.range 4).flatMap (fun i => ((gs.find? (fun p => p.1 == i)).map Prod.snd).getD (List.replicate 4096 0))

/-- The i-th 8-byte word of the core granules. -/
def coreWord (core : List Byte) (off : Nat) : Word := BitVec.ofNat 64 (ofBytes ((core.drop off).take 8))

/-- Whether a reserved field of the core granules' registers is set, which all lie in granule 2 (R5, R57, R133, R136, R137, R221,
R374, R380, R389). -/
def coreReserved (core : List Byte) : Bool :=
  let w := coreWord core
  let any := fun (base n hi lo : Nat) => (List.range n).any (fun i => decide (fld (w (base + 8 * i)) hi lo ≠ 0))
  any 0x2240 256 15 4 || any 0x2A40 1 63 7 || any 0x2A48 1 19 14 || any 0x2A48 1 12 12 || any 0x2A50 1 63 2 || any 0x2A78 8 19 16 ||
  any 0x2AB8 1 63 7 || any 0x2AC0 1 63 8 || any 0x2AD0 16 47 40 || any 0x2AD0 16 19 16 || any 0x2AD0 16 7 3 || any 0x2B50 1 63 5 ||
  any 0x2B58 4 63 26 || ((core.drop 0x2B78).take 0x488).any (· != 0)

/-- Why a restore fails, with the address of the failing part; or the granules that are present. Its generation is the one its
header names (R393). Poisoned bytes fail it as a wrong CRC does (log 35). -/
def State.readImage (s : State) (ctx slot : Nat) : Except Nat (List (Nat × List Byte)) :=
  let base := s.slotVa ctx slot
  match s.readVaNat ctx base 128 with
  | none => .error base
  | some h =>
    if bits h 127 96 ≠ crc32c (toBytes 128 (setBits h 127 96 0)) ∨ bits h 15 10 ≠ 0 ∨ bits h 95 64 ≠ 0 ∨ bits h 511 128 ≠ 0 ∨
        bits h 1023 917 ≠ 0 ∨ s.vaPoisoned ctx 2 base 128 then .error base
    else
      (List.range 405).foldl (fun r i =>
        match r with
        | .error a => .error a
        | .ok l =>
          if bit h (512 + i) then
            let at_ := base + 128 + 4128 * i
            match (if s.vaPoisoned ctx 4 at_ 4128 then none else s.readVaAll ctx 4 at_ 4128).bind (segRaw (bits h 63 32)) with
            | some raw => if decide (i = 2) && coreReserved (List.replicate 8192 0 ++ raw) then .error at_ else .ok (l ++ [(i, raw)])
            | none => .error at_
          else .ok l) (.ok [])

/-- A local store as its present granules give it; absent ones are zero. -/
def storeFrom (gs : List (Nat × List Byte)) (region : Nat) : Cells Byte :=
  gs.foldl (fun m p =>
    let (r, off) := granulePlace p.1
    if r = region then writeBytes m off p.2 else m) []

/-- A brick with what an image's bytes hold (R389, R393). The pipeline image stands in the state itself (log 12). -/
def Brick.loadImage (b : Brick) (gs : List (Nat × List Byte)) : Brick :=
  let core := coreOf gs
  let w := coreWord core
  { b with
    r := { b.r with
      g := Vector.ofFn (fun (i : Fin 64) => w (8 * i))
      v := Vector.ofFn (fun (i : Fin 32) => BitVec.ofNat 2048 (ofBytes ((core.drop (0x200 + 256 * i)).take 256)))
      m := Vector.ofFn (fun (i : Fin 8) => w (0x2200 + 8 * i))
      k := BitVec.ofNat 6 ((w 0x2AB8).toNat / 2) }
    y := { b.y with
      tag := Vector.ofFn (fun (i : Fin 256) => w (0x2240 + 8 * i))
      nflg := w 0x2A40
      tvec := w 0x2A48
      trec := Vector.ofFn (fun (i : Fin 4) => w (0x2A58 + 8 * i))
      wcmp := Vector.ofFn (fun (i : Fin 8) => w (0x2A78 + 8 * i))
      thand := BitVec.ofNat 8 (w 0x2AC0).toNat
      wakeQ := (List.range (min 16 (w 0x2B50).toNat)).map (fun i => w (0x2AD0 + 8 * i))
      arm := Vector.ofFn (fun (i : Fin 4) => BitVec.ofNat 26 (w (0x2B58 + 8 * i)).toNat) }
    loc := ⟨storeFrom gs 1, storeFrom gs 2, storeFrom gs 3⟩
    spq := (List.range b.spq.length).map (fun i =>
      ⟨BitVec.ofNat 2048 (ofBytes ((((gs.filter (fun p => p.1 == 404)).flatMap Prod.snd).drop (256 * i)).take 256)), 0⟩) }

/-! ## Writes that meet a saved task (R394) -/

/-- Bytes written into a saved image's stores, matched against its wake comparators (R394). -/
def Brick.imageWrite (b : Brick) (space off : Nat) (bs : List Byte) (source : Nat) : Brick :=
  let b := b.storeLocal space off bs
  { b with y := b.y.wakeAll space off bs.length source }

/-- The segments of a saved image brought up to its data under the same generation, with their present bits (R394). -/
def State.syncImage (s : State) (tid : Nat) : State :=
  match s.images.find? (fun x => x.task.tid == tid) with
  | none => s
  | some x =>
    let img := x.image
    let s := s.onImage tid (fun b => { b with dirty := [] })
    match x.task.slot with
    | none => s
    | some slot =>
      let ctx := x.task.ctx
      let gen := x.task.gen.toNat
      let w := towerOf img.bid
      let gs := List.range 4 ++ img.dirty
      let s := gs.foldl (fun s i => s.putSegment w ctx slot gen i (granuleBytes img (s.notices.contains ctx) i)) s
      let present := gs.foldl (fun p i => p ||| 2 ^ i) (s.presentBits ctx slot)
      s.writeVa w ctx (s.slotVa ctx slot) (headerBytes gen ctx img.bid present)

/-- A write applied to a saved image (R394). -/
def State.imageStore (s : State) (tid space off : Nat) (bs : List Byte) (source : Nat) : State :=
  (s.onImage tid (fun b => b.imageWrite space off bs source)).syncImage tid

/-- SAVED_IMAGE_WRITE (R394): a write meant for a saved task's stores. -/
def execSavedImageWrite (tid space off : Nat) (data : Bytes) (s : State) : Out :=
  .next (match s.images.find? (fun x => x.task.tid == tid) with
    | some x => if data = [] || decide (64 < off % 64 + data.length) || !inSpace space off data.length || decide (2 < space) then s
      else s.settleAll.imageStore tid space off data x.image.bid
    | none => s)

end Sys2Proof.Machine
end

