-- ==== Sys2Proof/Machine/Fetch.lean ====
section
/-!
DEFINITION. Fetching a bundle (R141, R146, R87, R102), and the traps a brick takes outside a slot.
-/

namespace Sys2Proof.Machine

open Sys2Proof

/-- A trap at the bundle that stands at issue, found before its slots are tried, with the slot its record names
(R87, R102, R159, R378). -/
def State.trapNow (s : State) (rank : Nat) (t : TrapRec) : State :=
  (s.onB (fun b => { b with iss := { Issue.idle with opd0 := b.r.opd, slot := t.slot } })).raise rank t

/-- The fetch-fault trap (R62, R371). -/
def fetchFault (va tok kind : Nat) : TrapRec :=
  { plainTrap 5 2 with addr := BitVec.ofNat 64 (va % 2 ^ 52), aux := BitVec.ofNat 32 tok, path := 2, fkind := kind }

/-- Virtual address of bundle n of the code object that issues (R146). -/
def Brick.bundleVa (b : Brick) (n : Nat) : Nat := b.codeBase + 24 * n

/-- A fetch translation through the brick's buffers, which a walk fills (R92, R93). -/
def State.fetchPa (s : State) (va : Nat) : Option (Nat × State) :=
  let s := s.seeWalk s.b.fetchLook s.b.t.ctx va
  match s.xlate s.b.fetchLook s.b.t.ctx va .fetch false with
  | .ok pa => some (pa, s.onB (fun b => b.fillFetch b.t.ctx (s.look b.fetchLook b.t.ctx va)))
  | .error _ => none

/-- The physical parts of a range of code: one, or two where it crosses a page; none with the address that missed. -/
def State.codeParts (s : State) (va n : Nat) : Except Nat (List (Nat × Nat) × State) :=
  let n1 := if onePage va n then n else 4096 - va % 4096
  match s.fetchPa va with
  | none => .error va
  | some (pa, s) =>
    if n1 = n then .ok ([(pa, n)], s)
    else match s.fetchPa (va + n1) with
      | none => .error (va + n1)
      | some (pb, s) => .ok ([(pa, n1), (pb, n - n1)], s)

/-- Bytes of physical parts. -/
def State.readParts (s : State) (ps : List (Nat × Nat)) : List Byte := ps.flatMap (fun p => s.readPhys p.1 p.2)

/-- A line's bytes of code, checked as they come (R84, R87): the line joins the bad ones where they are wrong or poisoned. -/
def State.codeLine (pa n : Nat) (r : State × List Nat) (l : Nat) : State × List Nat :=
  let lo := max pa l
  match r.1.readChecked [1, 2, 3, 9] r.1.b.t.ctx (towerOf r.1.b.bid) lo (min (pa + n) (l + 64) - lo) with
  | (s, true) => (s, r.2 ++ [l])
  | (s, false) => (s, r.2)

/-- The parts of a range of code read from their slices, counted there (R67, R84, R108): the state and the lines that are bad. -/
def State.readCode (s : State) (va : Nat) : List (Nat × Nat) → State × List Nat
  | [] => (s, [])
  | (pa, n) :: rest =>
    let s := (s.settle pa n).sliced s.b.fetchLook (towerOf s.b.bid) s.b.t.ctx va pa n false
    let (s, bad) := (linesOf pa n).foldl (State.codeLine pa n) (s, [])
    let (s, more) := State.readCode s (va + n) rest
    (s, bad ++ more)

/-- Whether a part touches one of some lines. -/
def partsIn (ps : List (Nat × Nat)) (bad : List Nat) : Bool := ps.any (fun p => (linesOf p.1 p.2).any bad.contains)

/-- Set of a line of the instruction cache (R141). -/
def icSet (pa : Nat) : Nat := pa / 64 % 85

/-- The instruction cache with a line put in its set (R141; log 10). -/
def icFill (ic : List IcLine) (e : IcLine) (n : Nat) : List IcLine :=
  let mine := ic.filter (fun x => icSet x.pa == icSet e.pa)
  if mine.length < 4 then ic ++ [e]
  else match mine[Config.icVictim n % 4]? with
    | some v => ic.erase v ++ [e]
    | none => ic

/-- Words of the instruction cache array that a line holds, a bundle to a word (R142). -/
def IcLine.words (e : IcLine) : List Nat := (List.range 8).map (fun i => e.ctx * 2 ^ 50 + 8 * e.pa + i)

/-- What a fetch answers. -/
inductive Fetched where
  | word (w : BitVec 192)
  /-- A page missed: its address (R102). -/
  | miss (va : Nat)
  /-- The bytes are poisoned (R87). -/
  | poison (va : Nat)
  /-- The copy held was wrong: it is fetched again, the domain frozen meanwhile (R142, R155). -/
  | again
  deriving DecidableEq, Repr

/-- A bundle read from memory, filling its line where the whole line can be translated and none of it is bad (R87, R141). It issues in the
cycle of the miss: the hold of R155 for an ordinary miss lasts no cycle (DESIGN CHOICE, log 137). -/
def State.fillBundle (s : State) (n : Nat) (ps : List (Nat × Nat)) : Fetched × State :=
  let va := s.b.bundleVa (n / 8 * 8)
  let word := fun (s : State) => Fetched.word (BitVec.ofNat 192 (ofBytes (s.readParts ps)))
  match s.codeParts va 192 with
  | .error _ =>
    let (s, bad) := s.readCode (s.b.bundleVa n) ps
    if bad = [] then (word s, s) else (.poison (s.b.bundleVa n), s)
  | .ok (ls, s) =>
    let (s, bad) := s.readCode va ls
    if partsIn ps bad then (.poison (s.b.bundleVa n), s)
    else if bad ≠ [] then (word s, s)
    else
      let e : IcLine := ⟨s.b.t.ctx, (ls.head?.map Prod.fst).getD 0, BitVec.ofNat 1536 (ofBytes (s.readParts ls))⟩
      (word s, s.onB (fun b => { b with ic := icFill b.ic e s.tick }.plant 6 (e.words.map (fun i => (i, true)))))

/-- Bundle n from the line that holds it: one with an uncorrectable error is dropped and fetched again (R142). -/
def State.readLine (s : State) (e : IcLine) (n : Nat) : Fetched × State :=
  match s.b.meet [(6, e.words.getD (n % 8) 0)] s.b.t.ctx with
  | (b, none) => (.word (e.data.extractLsb' (192 * (n % 8)) 192), s.onB (fun _ => b))
  | (b, some _) => (.again, s.onB (fun _ => { b with ic := b.ic.erase e }))

/-- Bundle n of the code object fetched through the instruction cache (R141, R146). -/
def State.fetchBundle (s : State) (n : Nat) : Fetched × State :=
  match s.codeParts (s.b.bundleVa n) 24 with
  | .error va => (.miss va, s)
  | .ok (ps, s) =>
    match s.fetchPa (s.b.bundleVa (n / 8 * 8)) with
    | none => s.fillBundle n ps
    | some (lpa, _) =>
      match s.b.ic.find? (fun e => e.ctx == s.b.t.ctx && e.pa == lpa) with
      | some e => s.readLine e n
      | none => s.fillBundle n ps

/-- A bundle captured at its place in the loop buffer (R183). -/
def LoopSt.capture (l : LoopSt) (w : BitVec 192) : LoopSt :=
  { l with lbuf := (l.lbuf ++ List.replicate (l.idx + 1 - l.lbuf.length) none).set l.idx (some w) }

/-- The bundle now at issue fetched and captured: in a loop's first pass, and later where its place holds none because
the first pass went past it without a fetch (R183, R384; log 97). -/
def State.captureBundle (s : State) (l : LoopSt) : Fetched × State :=
  match s.fetchBundle s.b.pc.toNat with
  | (.word w, s) =>
    (.word w, (s.onR (fun r => { r with lp := some (l.capture w) })).onB
      (fun b => b.plant 7 [(l.idx, true)]))
  | r => r

/-- The bundle that stands at issue: from the loop buffer after a loop's first pass, which captures what it fetches
(R183). One with an uncorrectable error is captured again (R142). -/
def State.nextBundle (s : State) : Fetched × State :=
  match s.b.r.lp with
  | some l =>
    match (l.lbuf[l.idx]?).join with
    | some w =>
      match s.b.meet [(7, l.idx)] s.b.t.ctx with
      | (b, none) => (.word w, s.onB (fun _ => b))
      | (b, some _) =>
        (.again, s.onB (fun _ => { b with r := { b.r with lp := some { l with lbuf := l.lbuf.set l.idx none } } }))
    | none => s.captureBundle l
  | none => s.fetchBundle s.b.pc.toNat

/-! ## Freezing and saving (R155, R386, R404) -/

/-- Whether the throttle steps let the lockstep domain advance in a clock cycle: n·d cycles of every 64 (R110, R404). -/
def Brick.permits (b : Brick) : Bool := decide (b.clk % 8 < b.stepN) && decide (b.clk / 8 % 8 < b.stepD)

/-- Whether the matrix queue holds nothing that still runs: it is empty, or its head is parked on a fault of its B
stream or frozen in a held image (R386, R449). -/
def Brick.mxDrained (b : Brick) : Bool :=
  match b.mxq with
  | [] => true
  | op :: _ => op.tok.isSome || op.frozen

/-- Whether a command still runs that stands in the brick's range scoreboard: it is neither complete nor parked
(R386). -/
def State.scoreBusy (s : State) (b : Brick) : Bool :=
  let busy := fun (c : CmdCtx) => c.tok.isNone && b.score.any (fun h => h.seq == c.cmd.scoreSeq)
  let mine := fun (c : Cmd) => b.score.any (fun h => h.seq == c.scoreSeq)
  s.engs.toList.any (fun e => e.ctxs.any busy || e.queue.any mine) || s.passed.any mine

/-- Whether a brick that is saving has drained (R386 steps 2 to 4). A domain that the save finds held by a fault is saved as it
stands; a hold that arises during the drain takes its course (R102, R103). -/
def State.drained (s : State) : Bool :=
  s.b.push.isEmpty && !s.scoreBusy s.b &&
    (if s.b.hold.isSome then s.b.saving.any (fun x => x.1 == .park) else s.b.mxDrained)

/-- Issue stopped for a save: the push buffer passes to the dome and local entries are recalled (R386 steps 1, 3, 5). -/
def State.beginSave (s : State) (reason : Reason) (wake : Nat) : State :=
  let s := ({ s with passed := s.passed ++ s.b.push } : State).recall s.b.bid (fun _ => true)
  let s := s.onB (fun b => { b with
    push := [], preq := false, saving := some (reason, wake), timer := 0, spTimer := 0, acqTimer := 0, stall := none
    own := [], grant := none, iss := Issue.idle })
  s.dropGrants s.b.t.tid

end Sys2Proof.Machine
end

