-- ==== Sys2Proof/Machine/Stream.lean ====
section
/-!
DEFINITION. The B stream of a product (R274 to R276): its blocks fetched from device memory, of this module or another.
-/

namespace Sys2Proof.Machine

open Sys2Proof

/-- The ranges of some bytes of B, from an offset, that a poisoned line of memory covers (R87). -/
def State.poisonParts (s : State) (at_ pa n : Nat) : List (Nat × Nat) :=
  ((linesOf pa n).filter (fun l => s.pois.contains l)).map (fun l =>
    let lo := max pa l
    (at_ + (lo - pa), min (pa + n) (l + 64) - lo))

/-- Bytes of B delivered to an operation of the brick in focus, with the parts of them that are poisoned (R87, R274). -/
def State.streamIn (s : State) (i : Nat) (op : MxOp) (bs : List Byte) (bad : List (Nat × Nat)) : State :=
  let op := { op with bbuf := writeBytes op.bbuf op.bgot bs, bgot := op.bgot + bs.length, bpois := op.bpois ++ bad }
  (s.onB (fun b => b.setOp i { op with waiting := op.waiting && !op.present op.col })).skipB

/-- Bytes of B read at their slice, or as the stream has buffered them (R67, R84, R87, R108, R292, R317). -/
def State.streamRead (s : State) (i : Nat) (op : MxOp) (va pa n : Nat) : State :=
  let look := s.b.streamLook op.exposed
  let t := towerOf s.b.bid
  match s.detCheck pa n op.det true false with
  | .error (line, tag) => s.onB (fun b => b.setOp i (op.stopAt op.nextBlock.2 (detReport line tag)))
  | .ok s =>
    let s := (s.settle pa n).sliced look t op.ctx va pa n false
    let w := s.look look op.ctx va
    let s := s.onB (fun b => b.fillStream op.ctx w)
    match s.mismatch [1, 2, 3, 8, 9] op.ctx (pa / 64 * 64) t (s.readPhys pa n) with
    | some (p, s) => (s.hurt p (pa / 64 * 64)).streamIn i op (s.readPhys pa n) [(op.bgot, n)]
    | none =>
      let (bs, s) := s.pathRead 3 s.b.bid op.ctx pa n
      s.streamIn i op bs (s.poisonParts op.bgot pa n)

/-- Bytes of B asked of the module that owns their line, or a product stopped where it cannot be reached (R292, R434, R436). -/
def State.streamAsk (s : State) (i : Nat) (op : MxOp) (va pa n node : Nat) : State :=
  if s.b.dev.any (fun o => o.kind == .bstream) then s
  else
    let o := { DevOp.basic .bstream va n with id := s.b.nextId, ctx := op.ctx, data := pa, stage := .remote node }
    match s.sendNode node 1 false [s.b.bid, o.id, op.ctx, pa, n, 0, 0, s.keyOf (s.b.streamLook op.exposed) op.ctx va, va, 3] with
    | some s => s.onB (fun b => { b with dev := b.dev ++ [o], nextId := b.nextId + 1 })
    | none => s.onB (fun b => b.setOp i (op.stopAt op.nextBlock.2 (streamReport va 0xFFFF 0xB)))

/-- A part of B that cannot be translated (R96, R275, R276): the domain of an exposed product is held once it has requested the
block; another product parks, or stops. -/
def State.streamFault (s : State) (i : Nat) (op : MxOp) (va : Nat) (f : Nat × Nat × Nat × Word) : State :=
  let (kind, rc, level, pte) := f
  let tower := s.faultTower (s.b.streamLook op.exposed) op.ctx va kind (towerOf s.b.bid)
  if op.exposed then (if op.snap.isSome && decide (op.bgot < op.prod.colLen * op.req) then s.onB (fun b => b.holdFor (some va)) else s)
  else if !s.faultRoom tower then s
  else if kind = 0 then
    let (tok, s) := s.park (.mx s.b.bid op.tid) va
    let s := s.postFault tower (faultRecord s.clk pte.toNat tok s.b.bid op.ctx rc level 0 3 va)
    s.onB (fun b => b.setOp i { op with tok := some tok })
  else
    let s := s.postFault tower (faultRecord s.clk pte.toNat 0xFFFF s.b.bid op.ctx rc level kind 3 va)
    s.onB (fun b => b.setOp i (op.stopAt op.nextBlock.2 (streamReport va 0xFFFF kind)))

/-- The next part of B of the brick in focus fetched (R274 to R276). -/
def State.streamBlock (s : State) : State :=
  let s := s.skipB
  match s.b.fetching with
  | none => s
  | some (i, op) =>
    let va := op.nextBlock.1
    let s := s.seeWalk (s.b.streamLook op.exposed) op.ctx va
    if s.b.holdsBlock op then s
    else match s.streamPa op va with
      | .error f => s.streamFault i op va f
      | .ok pa =>
        match s.ownerNode pa with
        | some node => s.streamAsk i op va pa (s.bPart op) node
        | none => s.streamRead i op va pa (s.bPart op)

/-- What another module answers for a part of B, at the operation that asked and still wants it (R87, R276, R436). -/
def State.streamReply (s : State) (o : DevOp) (data : Bytes) (status kind : Nat) : State :=
  let s := s.delOp s.b.bid o.id
  match s.b.fetching with
  | none => s
  | some (i, op) =>
    if op.nextBlock.1 ≠ o.va ∨ op.ctx ≠ o.ctx then s
    else if status = 1 then s.onB (fun b => b.setOp i (op.stopAt op.nextBlock.2 (streamReport o.va 0xFFFF kind)))
    else if data.length ≠ o.len then s
    else s.streamIn i op data (if status = 2 then [(op.bgot, o.len)] else [])

/-- B_STREAM_DELIVERY (R274 to R276, R436): an answer that a lost module owes ends the stream; else the next part is fetched. -/
def execBStreamDelivery (s : State) : Out :=
  .next (match s.b.dev.find? (fun o => o.kind == .bstream && o.hasFailed) with
    | some o => s.streamReply o [] 1 0xB
    | none => s.streamBlock)

end Sys2Proof.Machine
end

