-- ==== Sys2Proof/Machine/Sync.lean ====
section
/-!
DEFINITION. Synchronisation operations (R219 to R226): wake tokens, arming comparators, fences, phases and barriers.
-/

namespace Sys2Proof.Machine

open Sys2Proof

/-- `wtok`: pops the oldest wake token, or stalls (R220). -/
def execSyWtok (gd : Guard) (x : Src) (s : State) : Out :=
  s.guarded gd (fun s =>
    s.valid (decide (s.src x ≠ 0)) (fun s => s.refuseDet (fun s =>
      match s.b.y.popWake with
      | some (t, y) => .next ((s.onY (fun _ => y)).launchOp 1 (.res .syr t))
      | none => s.unless true (s.stallFor .wakeWait 0 false s.contNow) .next)))

/-- Hit bits of the enabled arming comparators (R221). -/
def Sys.hits (y : Sys) : Nat :=
  (List.range 4).foldl (fun n c =>
    let a := (vget 0 y.arm c).toNat
    if bit a 23 && bit a 22 then n + 2 ^ c else n) 0

/-- The hit bits that an `armw` reported, cleared. -/
def Sys.clearHits (y : Sys) : Sys :=
  { y with arm := y.arm.map (fun a => if bit a.toNat 23 then BitVec.ofNat 26 (setBits a.toNat 22 22 0) else a) }

/-- `armw` (R221). -/
def execSyArmw (gd : Guard) (x : Src) (s : State) : Out :=
  s.guarded gd (fun s =>
    let a := s.src x
    s.valid (decide (fld a 63 32 ≠ 0)) (fun s => s.refuseDet (fun s =>
      if s.cls ≠ 2 then .next (s.illegal 7)
      else
        let h := s.b.y.hits
        s.unless (decide (h = 0) && !s.b.armTimedOut) (s.stallOwn 2 (fld a 31 0)) (fun s =>
          .next ((s.onB (fun b => { b with y := b.y.clearHits, armTimedOut := false })).launchOp 1
            (.res .syr (BitVec.ofNat 64 h)))))))

/-- Loads issued so far no longer enter the snapshot cache, which is emptied (R206). -/
def Brick.dropSnap (b : Brick) : Brick :=
  { b with snap := [], dev := b.dev.map (fun op => { op with fill := false }) }

/-- Whether every named path meets its condition (R222). -/
def Brick.fenceMet (b : Brick) (paths : Nat) : Bool :=
  let copy := bit paths 1 || bit paths 2 || bit paths 4 || bit paths 5
  (!bit paths 0 || (decide (b.cnt.ld = 0) && decide (b.cnt.st = 0) && b.replay.isEmpty)) &&
  (!copy || (decide (b.cnt.cp = 0) && b.push.isEmpty)) && (!bit paths 3 || decide (b.cnt.mx = 0))

/-- `fencex` (R222): what the named paths have buffered for the context is discarded. -/
def execSyFencex (gd : Guard) (x : Src) (s : State) : Out :=
  s.guarded gd (fun s =>
    let p := fld (s.src x) 5 0
    s.valid (decide (fld (s.src x) 63 6 ≠ 0)) (fun s => s.limit (decide (popcount 6 p < 2)) (fun s =>
      s.unless (!s.b.fenceMet p) (s.stallFor .fence p false s.contNow) (fun s =>
        let s := s.dropBufs s.b.t.ctx p
        .next (if bit p 0 then s.onB Brick.dropSnap else s)))))

/-- `phase` (R223). -/
def execSyPhase (gd : Guard) (x : Src) (s : State) : Out :=
  s.guarded gd (fun s =>
    let a := s.src x
    s.valid (decide (4 < a.toNat)) (fun s =>
      .next ((s.place { DevOp.basic .marker 0 0 with rel := true, scope := a.toNat }).onB Brick.dropSnap)))

/-- A barrier operation: kind 0 `bar`, 1 `arrive`, 2 `bleave` (R225, R322, R346). -/
def State.barrierOp (s : State) (gd : Guard) (x : Src) (kind : Nat) (k : Nat → State → State) : Out :=
  s.guarded gd (fun s =>
    let a := s.src x
    let i := fld a 7 0
    s.valid (decide (fld a 63 11 ≠ 0) || decide (4 < fld a 10 8)) (fun s => s.limit (decide (s.b.t.bar = 0)) (fun s =>
      s.counted .st 1 (fun s =>
        .next (k i ((s.place { DevOp.basic (.bar kind i s.b.t.bar) (barrierVa s.b.t.bar i) 16 with
            rel := true, scope := fld a 10 8 }).onB (fun b => { b with phase := (b.phase + 1) % 2 ^ 32 })))))))

/-- `bar`: the next bundle waits for the barrier's generation to advance (R225). -/
def execSyBar (gd : Guard) (x : Src) (s : State) : Out :=
  s.barrierOp gd x 0 (fun i s =>
    let w : BarWait := ⟨barrierVa s.b.t.bar i, i, none, false, s.contNow⟩
    s.onB (fun b => { b with barWait := some w }))

/-- `arrive` (R225). -/
def execSyArrive (gd : Guard) (x : Src) (s : State) : Out := s.barrierOp gd x 1 (fun _ s => s)

/-- `bleave` (R225). -/
def execSyBleave (gd : Guard) (x : Src) (s : State) : Out := s.barrierOp gd x 2 (fun _ s => s)

end Sys2Proof.Machine
end

