-- ==== Sys2Proof/Machine/Delivery.lean ====
section
/-!
DEFINITION. What comes back to a brick: results of lockstep operations (R154), loads and replies (R204, R206, R295),
write packets (R138, R203, R398), barrier arrivals (R225, R346), chains (R303 to R307), the matrix unit's own events
(R268 to R274), and the limits of stalls (R221, R401, R411, R447).
-/

namespace Sys2Proof.Machine

open Sys2Proof

/-! ## Delivery (R204, R209) -/

/-- A value delivered to registers bound at issue (R204). -/
def Brick.deliver (b : Brick) (dst : Dest) (x : Nat) : Brick :=
  let b := b.plant 9 dst.words
  match dst with
  | .none => b
  | .g n => { b with r := { b.r with g := vset b.r.g n (BitVec.ofNat 64 x) } }
  | .gq lo hi => { b with r := { b.r with g := vset (vset b.r.g lo (BitVec.ofNat 64 x)) hi (BitVec.ofNat 64 (x / 2 ^ 64)) } }
  | .v n lanes => b.land (.vec n lanes (BitVec.ofNat 2048 x))

/-- A value delivered to a task's registers, on its brick or in its saved image. -/
def State.deliver (s : State) (tid : Nat) (dst : Dest) (x : Nat) : State :=
  (s.onTask tid (fun b => b.deliver dst x)).syncImage tid

/-- The value a load delivers from its bytes (R201). -/
def loadValue (kind : DevKind) (len x : Nat) : Nat :=
  match kind with
  | .load true => (extend true len x).toNat
  | _ => x % 2 ^ (8 * len)

/-- Set of a line of the snapshot cache: 128 sets of 8 ways (R140; log 114). -/
def snapSet (line : Nat) : Nat := line / 64 % 128

/-- A line put in the snapshot cache, the oldest of a full set leaving (R140; log 114). -/
def Brick.snapFill (b : Brick) (l : SnapLine) : Brick :=
  let rest := b.snap.filter (fun x => !(x.ctx == l.ctx && x.line == l.line))
  let mine := rest.filter (fun x => snapSet x.line == snapSet l.line)
  let rest := match (if 8 ≤ mine.length then mine.getLast? else none) with
    | some v => rest.erase v
    | none => rest
  { b with snap := l :: rest }.plant 5 (snapWords l.ctx l.line 64)

/-- The lines a load brought, put in the snapshot cache (R140). -/
def Brick.fillFrom (b : Brick) (op : DevOp) (val : Nat) : Brick :=
  (List.range (linesOf op.data op.len).length).foldl (fun b i =>
    b.snapFill ⟨op.ctx, op.data / 64 * 64 + 64 * i, BitVec.ofNat 512 (val / 2 ^ (512 * i))⟩) b

/-- The bytes of an access that a run of lines holds. -/
def sliceBytes (val off len : Nat) : Nat := val / 2 ^ (8 * off) % 2 ^ (8 * len)

/-- The bytes of a plain load that the snapshot cache holds, with their physical address: its every line is held still (R140, R310;
log 9). -/
def State.snapHit (s : State) (op : DevOp) : Option (Nat × Nat) :=
  match op.kind with
  | .load _ =>
    if op.acq || !s.ready s.b op || s.b.snap = [] then none
    else match s.xlate s.b.dataLook op.ctx op.va .read false with
      | .error _ => none
      | .ok pa =>
        let held := (linesOf pa op.len).map (fun l => s.b.snap.find? (fun x => x.ctx == op.ctx && x.line == l))
        if held.all Option.isSome && Config.snapKept s.tick then
          some (sliceBytes (pack 512 (fun i => ((held.getD i none).map (fun x => x.data.toNat)).getD 0) held.length) (pa % 64) op.len, pa)
        else none
  | _ => none

/-- A load's end: its value delivered, its count lowered (R204). -/
def State.loadDone (s : State) (op : DevOp) (x : Nat) : State :=
  ((s.delOp s.b.bid op.id).deliver op.tid op.dst (loadValue op.kind op.len x)).complete op.tid .ld 0 none

/-- A load's completion at the brick in focus (R87, R140, R142, R204, R206). -/
def State.loadReturn (s : State) (id : Nat) : State :=
  match s.b.op? id with
    | none => s
    | some op =>
      if !op.kind.isLoad || op.kind.isChain || op.kind == .bstream then s
      else match op.stage with
        | .failed r => (s.delOp s.b.bid id).complete op.tid .ld 0 (some r.tr)
        | .performed val _ =>
          let line := op.data / 64 * 64
          match s.mismatch [9] op.ctx line (towerOf s.b.bid) (toBytes op.len val) with
          | some (_, s) => (s.delOp s.b.bid id).complete op.tid .ld 0 (some (poisonedReport .ld op.va).tr)
          | none =>
            if op.kind = .tread then s.loadDone op val
            else
              let s := s.loadDone op (sliceBytes val (op.va % 64) op.len)
              if op.acq then s.onB (fun b => if b.runs op.tid then b.dropSnap else b)
              else if op.fill && s.b.runs op.tid then s.onB (fun b => b.fillFrom op val)
              else s
        | _ =>
          match s.snapHit op with
          | some (x, pa) =>
            let s := { s with tick := s.tick + 1 }
            match s.b.meet ((snapWords op.ctx pa op.len).map (fun w => (5, w.1))) op.ctx with
            | (b, none) => (s.onB (fun _ => b)).loadDone op x
            | (b, some _) =>
              ((s.onB (fun _ => b)).delOp s.b.bid id).complete op.tid .ld 0
                (some { plainTrap 6 2 with addr := BitVec.ofNat 64 op.va })
          | none => s

/-- A reply's arrival at the brick in focus (R58, R209, R294, R295, R302). -/
def State.accessReply (s : State) (id : Nat) : State :=
  match s.b.op? id with
    | none => s
    | some op =>
      if op.kind.isLoad || op.kind = .marker then s
      else match op.stage with
        | .failed r => (s.delOp s.b.bid id).complete op.tid .st 0 (some r.tr)
        | .performed val f =>
          let s := ((s.delOp s.b.bid id).deliver op.tid op.dst val).complete op.tid .st f none
          if op.acq then s.onB (fun b => if b.runs op.tid then b.dropSnap else b) else s
        | _ => s

/-- DEVICE_ACCESS_REPLY (R295). -/
def execDeviceAccessReply (id : Nat) (s : State) : Out := .next (s.accessReply id)

/-! ## Write packets (R130, R138, R203, R273, R398) -/

/-- Whether a brick takes writes into its stores (R398). -/
def State.takesWrites (s : State) (b : Brick) : Bool :=
  let st := s.domState b.bid
  st == 0 || (st == 1 && b.running)

/-- The `rst.d` that a packet from another brick carries (R203). -/
def State.packetOp (s : State) (space off : Nat) (data : Bytes) (source : Nat) : Option DevOp :=
  (s.brick source).dev.find? (fun op =>
    op.kind == .rst s.b.bid space off && ofBytes data == op.data && data.length == op.len && s.ready (s.brick source) op)

/-- The report of a write into the stores of an unpowered brick (R398). -/
def unpoweredReport (brick space off : Nat) : Report :=
  faultReport .st (brick * 2 ^ 30 + space * 2 ^ 20 + off) 0xFFFF 1 0xC

/-- A packet performed in the brick in focus, whose own stores no comparator watches (R138). -/
def State.packetIn (s : State) (space off : Nat) (data : Bytes) (source : Nat) : State :=
  s.onB (fun b => b.packet space off data source (source == b.bid))

/-- LOCAL_WRITE_PACKET (R138, R273, R398): a packet of an `rst.d`, or one that an engine sends. -/
def execLocalWritePacket (space off : Nat) (data : Bytes) (source : Nat) (s : State) : Out :=
  .next (
    if s.b.mxHoldsOther space off data.length || data = [] || decide (64 < off % 64 + data.length) || !inSpace space off data.length then s
    else if source < 768 then
      match s.packetOp space off data source with
      | none => s
      | some op =>
        if s.takesWrites s.b then (s.putOp source (op.perform 0 0)).packetIn space off data source
        else s.putOp source (op.fail (unpoweredReport s.b.bid space off))
    else if s.takesWrites s.b then s.packetIn space off data source
    else s)

/-! ## Barriers (R225, R346) -/

/-- A barrier wait told of its arrival: the generation in which it counted, or that the barrier is broken. -/
def BarWait.arrived (g : Option (BitVec 32)) (w : BarWait) : BarWait :=
  match g with
  | some g => { w with gen := some g }
  | none => { w with broken := true }

/-- The wait of a task that an arrival belongs to, wherever the task is. -/
def State.tellBar (s : State) (tid va : Nat) (g : Option (BitVec 32)) : State :=
  let f := fun (w : Option BarWait) => w.map (fun w => if w.va = va ∧ w.gen = none then w.arrived g else w)
  (s.onTask tid (fun b => { b with
    barWait := f b.barWait
    y := { b.y with held := b.y.held.map (fun i => { i with barWait := f i.barWait }) } })).onReg tid
      (fun t => { t with barWait := f t.barWait })

/-- An arrival performed at the barrier's slice, in one step (R86, R87, R225, R346). -/
def State.arrivalAt (s : State) (n : Nat) (op : DevOp) (pa : Nat) : State :=
  match op.kind with
  | .bar kind idx block =>
    let (s, bad) := s.readChecked [1, 2, 3] op.ctx (towerOf n) pa 16
    if bad then s.putOp n op.poisoned
    else
      let a := s.arrival op.ctx block idx (ofBytes (s.readPhys pa 16)) (kind == 2)
      let s := match a with
        | some (w, _) => (s.dropLinesOf n op.ctx pa 16 op.va).writePhys pa (toBytes 16 w)
        | none => s
      let g := a.map Prod.snd
      if kind = 0 then (s.tellBar op.tid op.va g).putOp n (op.perform 0 0)
      else match g with
        | some _ => s.putOp n (op.perform 0 0)
        | none => s.putOp n (op.fail ⟨.st, { plainTrap 8 0 with addr := BitVec.ofNat 64 op.va, aux := BitVec.ofNat 32 idx }⟩)
  | _ => s

/-- BARRIER_ARRIVAL (R225, R292, R346): behind the requests that wait for the barrier's line, while its slice has room. -/
def execBarrierArrival (id : Nat) (s : State) : Out :=
  .next (match s.b.op? id with
    | some op =>
      (match op.kind with
        | .bar _ _ block =>
          if s.ready s.b op then
            let s := ((s.settleVa op.ctx block 16).settleVa op.ctx op.va 16).seeWalk (s.opLook s.b.bid op) op.ctx op.va
            if (s.opLines s.b.bid op).all s.queueRoom then
              s.reach s.b.bid op op.va op.len .write (fun pa s => s.arrivalAt s.b.bid op pa)
            else s
          else s
        | _ => s)
    | none => s)

/-! ## Chains (R212 to R214, R303 to R308) -/

/-- The slice that performed a chain's last step; none before its first. -/
def DevOp.chainSlice (op : DevOp) : Option Nat := if op.bytes = 0 then none else some (op.bytes.toNat - 1)

/-- The tower where a chain's packet stands: the requester's, or that of the slice that performed the last step
(R304). -/
def DevOp.chainTower (op : DevOp) (n : Nat) : Nat :=
  match op.chainSlice with
  | some k => k / 24
  | none => towerOf n

/-- The report of a misaligned step (R212). -/
def chainMisaligned (va : Nat) : Report :=
  ⟨.ld, { plainTrap 4 1 with addr := BitVec.ofNat 64 va, aux := 8 }⟩

/-- A step performed on the value it loads, at a slice; the next step's address is checked when that step begins (R212, R305). -/
def State.chainNext (s : State) (n : Nat) (op : DevOp) (slice v : Nat) : State :=
  match op.kind with
  | .chain off m i _ =>
    let t := chainValue op.data i v
    let op := { op with bytes := BitVec.ofNat 256 (slice + 1) }
    if i + 1 < m then
      s.putOp n { op with kind := .chain off m (i + 1) (BitVec.ofNat 64 t), va := t, stage := .issued }
    else s.putOp n (op.perform t 0)
  | _ => s

/-- What a step's translation looks in: the brick's buffer for the first, the walker of the tower where the packet stands for
a later one (R304). -/
def State.chainLook (s : State) (n : Nat) (op : DevOp) : Look :=
  if op.bytes = 0 || op.isParked then s.opLook n op else ⟨[], some (op.chainTower n)⟩

/-- A step's translation and load (R304, R305). -/
def State.chainLoad (s : State) (n : Nat) (op : DevOp) : State :=
  let here := op.chainTower n
  let s := s.seeWalk (s.chainLook n op) op.ctx op.va
  match s.xlate (s.chainLook n op) op.ctx op.va .write false with
  | .error f => s.opFault (s.chainLook n op) n { op with va := op.va % 2 ^ 52 } op.va here f
  | .ok pa =>
    let s := match op.stage with
      | .parked t => s.dropToken t
      | _ => s
    match s.ownerNode pa with
    | some node => s.opRemote n op op.va 8 pa node
    | none =>
      let line := pa / 64 * 64
      match s.mismatch [1, 2, 3] op.ctx line (paTower pa) (s.readPhys line 64) with
      | some (p, s) => (s.hurt p line).putOp n op.poisoned
      | none =>
        let s := s.sliced (s.chainLook n op) here op.ctx op.va pa 8 false
        if s.poisoned pa 8 then s.putOp n op.poisoned
        else s.chainNext n op (sliceOf pa) (ofBytes (s.readPhys pa 8))

/-- The slice of a chain's present step, where it can be reached. -/
def State.chainAt (s : State) (n : Nat) (op : DevOp) : Option Nat :=
  match s.xlate (s.chainLook n op) op.ctx op.va .write false with
  | .ok pa => if (s.ownerNode pa).isSome then none else some (sliceOf pa)
  | .error _ => none

/-- Whether a chain's present step can begin: no request waits for its line (R305). -/
def State.chainFree (s : State) (n : Nat) (op : DevOp) : Bool :=
  match s.xlate (s.chainLook n op) op.ctx op.va .write false with
  | .ok pa => !s.lineWaits (pa / 64 * 64)
  | .error _ => true

/-- A chain's step, and those after it that the same slice performs at once (R305). -/
def State.chainRun : Nat → Nat → Nat → State → State
  | 0, _, _, s => s
  | fuel + 1, n, id, s =>
    match (s.brick n).op? id with
    | none => s
    | some op =>
      if !s.chainFree n op then s
      else
        let s := if op.va % 8 ≠ 0 then s.putOp n (op.fail (chainMisaligned op.va)) else s.chainLoad n op
        match (s.brick n).op? id with
        | some op =>
          if op.stage = .issued && op.chainSlice.isSome && decide (op.va % 8 = 0) && s.chainAt n op == op.chainSlice then
            State.chainRun fuel n id s
          else s
        | none => s

/-- CHAIN_STEP (R212, R303 to R306, R308). -/
def execChainStep (id : Nat) (s : State) : Out :=
  .next (match s.b.op? id with
    | some op => if op.kind.isChain && s.ready s.b op then State.chainRun 8 s.b.bid id s else s
    | none => s)

/-- Status of a stop, from the report it leaves (R211, R212). -/
def stopStatus (t : TrapRec) : Nat := if t.kind = 5 then 1 else if t.kind = 6 then 2 else 3

/-- The header bytes that a stop writes: address, value and control word, its kind only with status 1 (R211, R212). -/
def stopHeader (h : Nat) (i va : Nat) (val : Word) (t : TrapRec) : List Byte :=
  let h := setBits (setBits h 51 0 va) 127 64 val.toNat
  let h := setBits (setBits h 166 164 i) 169 168 (stopStatus t)
  let h := if stopStatus t = 1 then setBits h 175 172 t.fkind else h
  toBytes 24 h

/-- The header of a stopped chain written: into the saved image that took its block, or the stores that hold it while they
are its context's and take writes; otherwise the block is gone (R307, R394, R398). -/
def State.chainHeader (s : State) (op : DevOp) (off i : Nat) (val : Word) (t : TrapRec) : State :=
  let write := fun (b : Brick) => stopHeader (b.loc.readNat 0 off 24) i op.va val t
  match op.kept with
  | some tid => (s.onImage tid (fun b => b.imageWrite 0 off (write b) op.home)).syncImage tid
  | none =>
    let b := s.brick op.home
    if s.takesWrites b && ((b.running && b.t.ctx == op.ctx) || b.lastCtx == some op.ctx) then
      s.setBrick op.home (b.packet 0 off (write b) op.home true)
    else s

/-- A chain's block released from every range scoreboard (R303). -/
def State.freeChain (s : State) (n id : Nat) : State :=
  let free := fun (b : Brick) => { b with score := b.score.filter (fun h => h.seq != chainSeq n id) }
  let s := s.mapBricks free
  { s with images := s.images.map (fun (x : Saved) => { x with image := free x.image }) }

/-- A chain's end at its brick (R307). -/
def State.chainDone (s : State) (n : Nat) (op : DevOp) : State :=
  let fin := fun (s : State) => (s.delOp n op.id).freeChain n op.id
  match op.kind, op.stage with
  | .chain _ _ _ _, .performed t _ => ((fin s).deliver op.tid op.dst t).complete op.tid .ld 0 none
  | .chain off _ i val, .failed r => ((fin s).chainHeader op off i val r.tr).complete op.tid .ld 0 (some r.tr)
  | _, _ => s

/-- CHAIN_RETURN (R212, R307). -/
def execChainReturn (id : Nat) (s : State) : Out :=
  .next (match s.b.op? id with
    | some op => s.chainDone s.b.bid op
    | none => s)

/-- A load, a chain or an access's reply delivered at the brick in focus. -/
def State.land (s : State) (id : Nat) : State :=
  match s.b.op? id with
  | some op => if op.kind.isChain then s.chainDone s.b.bid op else if op.kind.isLoad then s.loadReturn id else s.accessReply id
  | none => s

/-- The loads, chains and replies whose delivery shares the cycle that ends now, delivered before its moves' writes (R156). -/
def State.landLoads (s : State) : State :=
  if s.b.landing = [] then s
  else s.b.landing.foldl State.land (s.onB (fun b => { b with landing := [] }))

/-- DEVICE_LOAD_COMPLETE (R156, R204): at once, or, as a chain's return and an access's reply may, at the end of the brick's present cycle. -/
def execDeviceLoadComplete (d : LoadEnd) (s : State) : Out :=
  .next (if d.shared then s.onB (fun b => { b with landing := addOnce d.id b.landing }) else s.loadReturn d.id)

/-! ## Lockstep results and the spire (R154, R408) -/

/-- OPERATION_RESULT_WRITE (R154): the operations whose last cycle has ended write. -/
def execOperationResultWrite (s : State) : Out := .next (s.onB Brick.landDue)

/-- SPIRE_ENTRY_ARRIVAL (R408): entries whose two cycles are over can be received, and freed slots count. -/
def execSpireEntryArrival (s : State) : Out :=
  .next (s.onB (fun b => { b with
    spq := b.spq.map (fun e => if e.ready ≤ b.clk then { e with ready := 0 } else e)
    spFreed := b.spFreed.filter (fun c => decide (b.clk < c)) }))

/-! ## The matrix unit (R268 to R274) -/

/-- MX_OP_START (R268, R269). -/
def execMxOpStart (s : State) : Out := .next (s.onB Brick.mxStart)

/-- MX_RANGE_RELEASE (R272). -/
def execMxRangeRelease (s : State) : Out :=
  .next (match s.b.mxHead with
    | some op => s.onB (fun b => b.setHead op.release)
    | none => s)

/-- MX_STREAM_WAIT (R274). -/
def execMxStreamWait (s : State) : Out :=
  .next (match s.b.mxHead with
    | some op => s.onB (fun b => b.setHead op.streamWait)
    | none => s)

/-- MX_OP_COMPLETE (R264, R268, R276). -/
def execMxOpComplete (s : State) : Out := .next (if s.b.mxDone then s.mxComplete else s)

/-! ## Limits of stalls (R221, R401, R411, R447) -/

/-- A trap taken between cycles at the bundle that stands stalled, by a slot. -/
def State.stalledTrap (s : State) (slot : Nat) (t : TrapRec) : State :=
  ((s.onB (fun b => { b with iss := { Issue.idle with opd0 := b.r.opd, slot := slot } })).raise 3 t).onB
    (fun b => { b with iss := Issue.idle })

/-- A stall that has reached its limit: the task suspends, or in its handler is saved whole as a pre-emption saves it (R192, R386,
R447, R449). A counter-full stall continues at the stalled bundle (R190). -/
def State.suspendStall (s : State) (st : Stall) : State :=
  let s := s.onB (fun b => { b with t := { b.t with want := st.want } })
  if s.b.y.inh then s.beginSave st.reason st.wake
  else s.departTo (if st.reason = .counterFull then s.b.pc else s.b.contAt).toNat 4 st.reason st.wake

/-- STALL_SUSPENSION (R102, R192, R447, R449): not while the domain is held. -/
def execStallSuspension (s : State) : Out :=
  .next (match s.b.stall with
    | some st => if s.b.running ∧ 4096 ≤ s.b.timer ∧ !s.b.domainHeld then s.settleTask.suspendStall st else s
    | none => s)

/-- SPIRE_FULL (R102, R411): not while the domain is held. -/
def execSpireFull (s : State) : Out :=
  .next (match s.b.own.find? (fun o => o.1 == 0) with
    | some (_, slot) => if s.b.running ∧ 256 ≤ s.b.spTimer ∧ !s.b.domainHeld then s.settleTask.stalledTrap slot (plainTrap 0xA 0) else s
    | none => s)

/-- ARMW_TIMEOUT (R221): the stalled `armw` may issue with no hit. -/
def execArmwTimeout (s : State) : Out :=
  .next (match s.b.own.find? (fun o => o.1 == 2) with
    | some (_, t) => if 0 < t ∧ t ≤ s.b.timer then s.onB (fun b => { b with armTimedOut := true }) else s
    | none => s)

/-- GRANT_TIMEOUT (R401): the request leaves the queue, and the bundle issues refused. -/
def execGrantTimeout (s : State) : Out :=
  .next (match s.b.own.find? (fun o => o.1 == 1) with
    | some _ =>
      if 4096 ≤ s.b.acqTimer ∧ s.b.grant = none then
        (s.dropGrants s.b.t.tid).onB (fun b => { b with grant := some false })
      else s
    | none => s)

end Sys2Proof.Machine
end

