-- ==== Sys2Proof/Machine/Power.lean ====
section
/-!
DEFINITION. The power operations (R399 to R407, R416).
-/

namespace Sys2Proof.Machine

open Sys2Proof

/-- Cost of a class per brick, in 1/64 W (R399). -/
def classCost : Nat → Nat
  | 0 => 0
  | 1 => 16
  | 2 => 32
  | 3 => 63
  | _ => 125

/-- Cost of what a brick holds. -/
def Brick.heldCost (b : Brick) : Nat := (b.cls.map classCost).getD 0

/-- Sum of held-class costs in a domain (R400). -/
def State.heldSum (s : State) (d : Nat) : Nat := ((s.domainBricks d).map Brick.heldCost).sum

/-- A domain's budget (R400). -/
def State.dbud (s : State) (d : Nat) : Nat := vget 0 (s.dome (d / 8)).dbud (d % 8)

/-- The class a brick holds as the power words show it (R406). -/
def Brick.clsWord (b : Brick) : Nat := b.cls.getD 0xF

/-- A power operation's result (R406). -/
def State.pwDone (s : State) (x : Nat) : State := s.launchOp 1 (.res .pwr (BitVec.ofNat 64 x))

/-- Whether a task waits in its domain's grant queue. -/
def State.grantWaits (s : State) (b : Brick) : Bool :=
  (s.dome (towerOf b.bid)).grants.any (fun g => g.tid == b.t.tid && g.brick == b.bid)

/-- A request at the tail of its domain's grant queue (R401). -/
def State.askClass (s : State) (brick tid c : Nat) : State :=
  let w := towerOf brick
  s.setDome w { s.dome w with grants := (s.dome w).grants ++ [⟨brick, tid, c⟩] }

/-- `acq` (R401). -/
def execPwAcq (gd : Guard) (x : Src) (s : State) : Out :=
  s.guarded gd (fun s =>
    let a := s.src x
    let c := fld a 2 0
    s.valid (decide (4 < a.toNat)) (fun s => s.refuseDet (fun s =>
      match s.b.grant with
      | some ok =>
        .next ((s.onB (fun b => { b with grant := none })).pwDone ((if ok then 16 else 0) + s.b.clsWord))
      | none =>
        match s.b.cls with
        | some h =>
          if c ≤ h then .next ((s.onB (fun b => { b with cls := some c })).pwDone (16 + c))
          else .next ((if s.grantWaits s.b then s else s.askClass s.b.bid s.b.t.tid c).stallOwn 1 0)
        | none => .next ((if s.grantWaits s.b then s else s.askClass s.b.bid s.b.t.tid c).stallOwn 1 0))))

/-- `rel` (R401). -/
def execPwRel (gd : Guard) (x : Src) (s : State) : Out :=
  s.guarded gd (fun s =>
    s.valid (decide (s.src x ≠ 0)) (fun s => .next ((s.onB (fun b => { b with cls := none })).pwDone 0xF)))

/-- `cls` (R406). -/
def execPwCls (gd : Guard) (x : Src) (s : State) : Out :=
  s.guarded gd (fun s =>
    s.valid (decide (s.src x ≠ 0)) (fun s => s.refuseDet (fun s =>
      .next (s.pwDone (s.b.clsWord + 16 * s.b.stepN + 256 * s.b.stepD)))))

/-- Budget step of a domain's undeclared bricks, the lowest (R406). A brick that has not left its reset state has step
8. -/
def State.domainStep (s : State) (d : Nat) : Nat :=
  (s.domainBricks d).foldl (fun n b => if b.cls.isNone then min n b.stepD else n) 8

/-- `dst` (R406). -/
def execPwDst (gd : Guard) (x : Src) (s : State) : Out :=
  s.guarded gd (fun s =>
    let a := s.src x
    let d := a.toNat
    s.valid (decide (fld a 63 4 ≠ 0)) (fun s => s.refuseDet (fun s =>
      .next (s.pwDone ((s.domain d).state + 16 * s.domainStep d + 2 ^ 16 * (s.heldSum d % 2 ^ 16) +
        2 ^ 32 * (s.dbud d % 2 ^ 16))))))

/-- `gate` or `ungate`: the request reaches the dome, and the state before it is the result (R396, R397, R406, R407). -/
def State.gateOp (s : State) (gd : Guard) (x : Src) (gate : Bool) : Out :=
  s.guarded gd (fun s =>
    let a := s.src x
    let d := a.toNat
    s.valid (decide (fld a 63 4 ≠ 0)) (fun s => s.limit (decide (d = domainOf s.b.bid)) (fun s =>
      if s.cls = 0 then .next (s.illegal 8)
      else .next ((s.request d gate).pwDone (s.domain d).state))))

/-- `gate`. -/
def execPwGate (gd : Guard) (x : Src) (s : State) : Out := s.gateOp gd x true

/-- `ungate`. -/
def execPwUngate (gd : Guard) (x : Src) (s : State) : Out := s.gateOp gd x false

/-- `msd`: the declaration goes to the dome, counted in `cnt.st` (R406, R407, R416). -/
def execPwMsd (gd : Guard) (x : Src) (s : State) : Out :=
  s.guarded gd (fun s =>
    let a := s.src x
    let o := s.opd .pwo
    let n := fld o 6 0
    s.limit (decide (64 < n)) (fun s => s.refuseDet (fun s => s.aligned a 16 (fun s => s.counted .st 1 (fun s =>
      .next (s.place { DevOp.basic (.msd n (physG s.b.r.rrb (fld o 37 32))) a.toNat (16 * n) with
        dst := .g (physG s.b.r.rrb (fld o 37 32)) }))))))

/-- The module's hold-up charge (R416). -/
def State.charge (s : State) : Nat := (s.musts.map Must.charge).sum

/-- A context's hold-up charge (R416). -/
def State.chargeOf (s : State) (ctx : Nat) : Nat := ((s.musts.filter (fun m => m.ctx == ctx)).map Must.charge).sum

/-- `mst` (R406). -/
def execPwMst (gd : Guard) (x : Src) (s : State) : Out :=
  s.guarded gd (fun s =>
    s.valid (decide (s.src x ≠ 0)) (fun s => s.refuseDet (fun s =>
      .next (s.pwDone (s.chargeOf s.b.t.ctx + 2 ^ 32 * s.charge)))))

end Sys2Proof.Machine
end

