-- ==== Sys2Proof/Machine/Chains.lean ====
section
/-!
DEFINITION. Chain packets of other modules (R214, R304 to R307): the steps this module performs for them, and their return
(R213).
-/

namespace Sys2Proof.Machine

open Sys2Proof

/-- A chain packet's fields (R214). -/
structure Hop where
  val : Nat
  addr : Nat
  ctx : Nat
  node : Nat
  brick : Nat
  reg : Nat
  i : Nat
  n : Nat
  tag : Nat
  steps : Nat
  deriving DecidableEq, Repr

/-- The fields of a packet, when its length fits them. -/
def Hop.ofPacket (p : Bytes) : Option Hop :=
  let h := ofBytes (p.take 32)
  let n := bits h 90 87
  if p.length = 32 + 16 * n ∧ 1 ≤ n ∧ n ≤ 8 ∧ bits h 93 91 < n then
    some ⟨bits h 255 192, bits h 191 140, bits h 135 120, bits h 119 110, bits h 109 100, bits h 99 94, bits h 93 91, n,
      bits h 79 64, ofBytes (p.drop 32)⟩
  else none

/-- The packet with these fields and its check word renewed (R214, R305). -/
def Hop.packet (h : Hop) : Bytes := chainPacket h.node h.ctx h.brick h.reg h.n h.tag h.i h.addr (BitVec.ofNat 64 h.val) h.steps

/-- The check word a packet carries (R214). -/
def packetCheck (p : Bytes) : Nat := ofBytes ((p.drop 4).take 4)

/-- A returned chain at its requester: the value, or where and why it stopped (R212, R213, R307). -/
def DevOp.chainBack (op : DevOp) (status kind step addr : Nat) (val : Word) : DevOp :=
  match op.kind with
  | .chain off n _ _ =>
    let op := { op with kind := .chain off n step val, va := addr }
    (match status with
      | 0 => op.perform val.toNat 0
      | 1 => op.fail (faultReport .ld addr 0xFFFF 8 kind)
      | 2 => op.poisoned
      | _ => op.fail (chainMisaligned addr))
  | _ => op

/-- The chain of a brick that is away at another module under a tag (R307). -/
def Brick.away (b : Brick) (tag : Nat) : Option DevOp :=
  b.dev.find? (fun op => op.kind.isChain && op.isRemote && decide (op.id % 65536 = tag))

/-- A packet that ends here goes straight to its requester: a brick of this module, or another's (R307). -/
def State.hopEnd (s : State) (h : Hop) (status kind : Nat) : State :=
  if s.node.any (fun n => n.id == h.node) then
    match (s.brick h.brick).away h.tag with
    | some op => s.putOp h.brick (op.chainBack status kind h.i h.addr (BitVec.ofNat 64 h.val))
    | none => s
  else (s.sendNode h.node 7 false [h.brick, h.tag, h.reg, status, kind, h.i, h.addr, h.val]).getD s

/-- A step's fault: kind 0x0 parks the packet at the walker, any other ends it; none while the fault queue is full (R96,
R99, R213, R306). -/
def State.hopFault (s : State) (l : Look) (tower : Nat) (h : Hop) (f : Nat × Nat × Nat × Word) : Option State :=
  let (kind, rc, level, pte) := f
  let w := s.faultTower l h.ctx h.addr kind tower
  let post := fun (s : State) (tok : Nat) =>
    s.postFault w (faultRecord s.clk pte.toNat tok h.brick h.ctx rc level kind 8 h.addr)
  if !s.faultRoom w then none
  else if kind = 0 then
    let (tok, s) := s.park (.packet tower h.packet) h.addr
    some (post s tok)
  else some ((post s 0xFFFF).hopEnd h 1 kind)

/-- What a packet of this module's visitors does after a step: it goes on here from the slice that performed it. -/
def State.hopOn (s : State) (tower : Nat) (h : Hop) : State := { s with hops := s.hops ++ [(tower, h.packet)] }

/-- A visiting packet's step, from the tower where it stands, and those after it that the same slice performs at once; a step
elsewhere in this module is another event (R304, R305, R308). None where a fault has no room, or the step's line is waited
for. -/
def State.hop : Nat → Nat → Option Nat → Look → Hop → State → Option State
  | 0, tower, _, _, h, s => some (s.hopOn tower h)
  | fuel + 1, tower, slice, look, h, s =>
    if h.addr % 8 ≠ 0 then some (s.hopEnd h 3 0)
    else
      let s := s.seeWalk look h.ctx h.addr
      match s.xlate look h.ctx h.addr .write false with
      | .error f => if slice.isSome then some (s.hopOn tower h) else s.hopFault look tower h f
      | .ok pa =>
        match s.ownerNode pa with
        | some node =>
          (match s.sendNode node 6 false [ofBytes h.packet] with
            | some s => some s
            | none => some (s.hopEnd h 1 0xB))
        | none =>
          let line := pa / 64 * 64
          if slice.any (fun k => k != sliceOf pa) || (slice.isSome && s.lineWaits line) then some (s.hopOn tower h)
          else if s.lineWaits line then none
          else
            match s.mismatch [1, 2, 3] h.ctx line (paTower pa) (s.readPhys line 64) with
            | some (p, s) => some ((s.hurt p line).hopEnd h 2 0)
            | none =>
              let s := s.sliced look tower h.ctx h.addr pa 8 false
              if s.poisoned pa 8 then some (s.hopEnd h 2 0)
              else
                let t := chainValue h.steps h.i (ofBytes (s.readPhys pa 8))
                let here := paTower pa
                if h.i + 1 < h.n then
                  let next := { h with i := h.i + 1, val := t, addr := t % 2 ^ 52 }
                  if 2 ^ 52 ≤ t then s.hopFault ⟨[], some here⟩ here next (4, 0, 0, 0)
                  else State.hop fuel here (some (sliceOf pa)) ⟨[], some here⟩ next s
                else some (s.hopEnd { h with val := t } 0 0)

/-- A packet performs its next step; it stays where it is while a fault has no room or its line is waited for (R99, R305). -/
def State.hopRun (s : State) (tower : Nat) (look : Look) (h : Hop) : State := (State.hop 8 tower none look h s).getD (s.hopOn tower h)

/-- A packet of another module as it comes in by a link: checked and performed (R24, R82, R86, R304); one whose check word
disagrees returns poisoned. -/
def State.packetArrives (s : State) (link : Nat) (p : Bytes) : State :=
  match Hop.ofPacket p with
  | none => s
  | some h =>
    if packetCheck p = chainCheck p then s.hopRun (linkTower link) ⟨[], some (linkTower link)⟩ h
    else
      (s.postCw (linkTower link) (cwRecord (packetCheck p ^^^ chainCheck p) 0xB h.ctx 0)).hopEnd h 2 0

/-- FABRIC_CHAIN_STEP: a packet that stands in this module performs its next step, or one comes in by a link (R304, R308). -/
def State.packetStep (s : State) (link : Nat) (p : Bytes) : State :=
  match s.hops.find? (fun x => x.2 == p), Hop.ofPacket p with
  | some x, some h => ({ s with hops := s.hops.erase x } : State).hopRun x.1 ⟨[], some x.1⟩ h
  | _, _ => s.packetArrives link p

/-- A parked packet goes on after a retry, its step walked from level 3 (R99, R213). -/
def State.packetRetry (s : State) (tower tok : Nat) (p : Bytes) : State :=
  match Hop.ofPacket p with
  | some h => (s.dropToken tok).hopRun tower ⟨[], none⟩ h
  | none => s.dropToken tok

/-- A parked packet ends with kind 0x9 after an abort (R99, R213). -/
def State.packetAbort (s : State) (tok : Nat) (p : Bytes) : State :=
  match Hop.ofPacket p with
  | some h => (s.dropToken tok).hopEnd h 1 9
  | none => s.dropToken tok

end Sys2Proof.Machine
end

