-- ==== Sys2Proof/Machine/Ports.lean ====
section
/-!
DEFINITION. The Ethernet ports as responders: memory regions, queue pairs and pause frames (R423, R424).
-/

namespace Sys2Proof.Machine

open Sys2Proof

/-! ## Answers -/

/-- Bytes sent by an Ethernet port; a paused port keeps them back (R423). -/
def State.egressOn (s : State) (port : Nat) (bs : Bytes) : State :=
  if s.paused.contains port then { s with egress := s.egress ++ [(port, bs)] } else { s with out := s.out ++ [(port, bs)] }

/-- A packet sent by an Ethernet port. What a response packet carries is the manual's; its bytes are free (log 19). -/
def State.sendPort (s : State) (port cls : Nat) (fields : List Nat) : State := s.egressOn port (Config.packetBytes cls fields)

/-- An acknowledgement of a queue pair. -/
def State.portAck (s : State) (port qp : Nat) : State := s.sendPort port 16 [qp, 0]

/-- A remote-access NAK (R424). -/
def State.portNak (s : State) (port qp : Nat) : State := s.sendPort port 16 [qp, 1]

/-- An invalid-request NAK (R423). -/
def State.portInvalid (s : State) (port qp : Nat) : State := s.sendPort port 16 [qp, 2]

/-! ## One operation (R424) -/

/-- Bytes an operation reaches. -/
def PortKind.len : PortKind → Nat
  | .write d => d.length
  | .read n _ => n
  | .fetchAdd _ => 8
  | .cmpSwap _ _ => 8

/-- What an operation does to its pages. -/
def PortKind.use : PortKind → Use
  | .read _ _ => .read
  | _ => .write

/-- The region of an operation, when it holds the operation's whole range. -/
def State.region (s : State) (o : PortOp) : Option Region :=
  s.regions.find? (fun r => r.rkey.toNat == o.rkey && decide (r.va ≤ o.va) && decide (o.va + o.kind.len ≤ r.va + r.len))

/-- What becomes of an operation. -/
inductive PortEnd where
  /-- Performed, with its answer sent. -/
  | done (s : State)
  /-- Refused, with a remote-access NAK to send. -/
  | nak (s : State)
  /-- Parked or waiting, with what is left of it. -/
  | parked (o : PortOp) (s : State)
  /-- A sector of it performed, with what is left of it. -/
  | more (o : PortOp) (s : State)
  deriving DecidableEq, Repr

/-- What a port's translation looks in: the walker of its tower (R24, R93, R94). -/
def PortOp.look (o : PortOp) : Look := ⟨[], some (o.port / 2)⟩

/-- A fault of an operation: kind 0x0 parks the pair, any other is refused; the record carries path 0x9 (R424). While the fault
queue is full the pair waits (R99). -/
def State.portFault (s : State) (o : PortOp) (ctx : Nat) (f : Nat × Nat × Nat × Word) : PortEnd :=
  let (kind, rc, level, pte) := f
  let w := s.faultTower o.look ctx o.va kind (o.port / 2)
  let rec_ := fun tok => faultRecord s.clk pte.toNat tok (0x470 + o.port) ctx rc level kind 9 o.va
  if !s.faultRoom w then .parked o s
  else if kind = 0 then
    let (tok, t) := s.park (.port o.port o.qp) o.va
    .parked { o with tok := some tok } (t.postFault w (rec_ tok))
  else .nak (s.postFault w (rec_ 0xFFFF))

/-- Bytes of a range that lie in its first 4 KiB page. -/
def pagePart (va n : Nat) : Nat := min n (4096 - va % 4096)

/-- Bytes of a range that lie in its first sector (R321). -/
def sectorPart (va n : Nat) : Nat := min n (32 - va % 32)

/-- An access of a port to some bytes of one line: translated, refused where another module owns the line, behind what waits for the
line and while its slice has room for it, and served by the slice (R67, R292, R424). -/
def State.portReach (s : State) (o : PortOp) (ctx n : Nat) (use : Use) (k : Nat → State → PortEnd) : PortEnd :=
  let s := s.seeWalk o.look ctx o.va
  match s.xlate o.look ctx o.va use false with
  | .error f => s.portFault o ctx f
  | .ok pa =>
    if (s.ownerNode pa).isSome then .nak s
    else
      let s := s.settle pa n
      if !s.queueRoom (pa / 64 * 64) then .parked o s
      else k pa (s.sliced o.look (o.port / 2) ctx o.va pa n (use == .write))

/-- The first sector of a write, checked as it enters (R82, R86, R87, R321). -/
def State.portWrite (s : State) (o : PortOp) (ctx : Nat) (bs : List Byte) : PortEnd :=
  let n := sectorPart o.va bs.length
  s.portReach o ctx n .write (fun pa s =>
    let (s, kept) := s.writeChecked [1, 2, 3] ctx (o.port / 2) pa (bs.take n)
    let (good, s) := if kept then s.cleanse o.good pa n else (spoil o.good pa n, s)
    .more { o with va := o.va + n, kind := .write (bs.drop n), good := good } s)

/-- The first sector of what is left of a read: its bytes, unless it is poisoned or a word disagrees on the way out (R84, R87, R321,
R424). -/
def State.portRead (s : State) (o : PortOp) (ctx n : Nat) (got : List Byte) : PortEnd :=
  let k := sectorPart o.va n
  s.portReach o ctx k .read (fun pa s =>
    let (s, bad) := s.readChecked [1, 2, 3, 10] ctx (o.port / 2) pa k
    if bad then .nak s else .more { o with va := o.va + k, kind := .read (n - k) (got ++ s.readPhys pa k) } s)

/-- An atomic on an aligned 8-byte word; a word over its operand that disagrees leaves the line poisoned (R82, R86, R87, R423,
R424). -/
def State.portAtomic (s : State) (o : PortOp) (ctx : Nat) (operand : List Byte) (f : Nat → Option Nat) : PortEnd :=
  s.portReach o ctx 8 .write (fun pa s =>
    match s.mismatch [1, 2, 3] ctx (pa / 64 * 64) (o.port / 2) operand with
    | some (_, s) => .nak (s.poison (pa / 64 * 64))
    | none =>
      let (s, bad) := s.readChecked [10] ctx (o.port / 2) pa 8
      if bad then .nak s
      else
        let old := ofBytes (s.readPhys pa 8)
        let s := match f old with
          | some x => s.writePhys pa (toBytes 8 x)
          | none => s
        .done (s.sendPort o.port 18 [o.qp, old]))

/-- One sector of an operation (R321, R424). -/
def State.portStep (s : State) (o : PortOp) : PortEnd :=
  match s.region o with
  | none => .nak s
  | some r =>
    match o.kind with
    | .write bs => if bs = [] then .done (s.portAck o.port o.qp) else s.portWrite o r.ctx bs
    | .read n got =>
      if n = 0 then .done (s.sendPort o.port 17 [o.qp, got.length, ofBytes got]) else s.portRead o r.ctx n got
    | .fetchAdd x => s.portAtomic o r.ctx (toBytes 8 x.toNat) (fun old => some ((old + x.toNat) % 2 ^ 64))
    | .cmpSwap c x =>
      s.portAtomic o r.ctx (toBytes 8 c.toNat ++ toBytes 8 x.toNat) (fun old => if old = c.toNat then some x.toNat else none)

/-- Whether something is left of an operation besides its answer. -/
def PortKind.rests : PortKind → Bool
  | .write bs => !bs.isEmpty
  | .read n _ => decide (n ≠ 0)
  | _ => false

/-- An operation tried: sector by sector, other agents acting between two sectors where a free value lets them (R321, R424; log
26). -/
def State.portTry : Nat → State → PortOp → PortEnd
  | 0, s, o => .parked o s
  | fuel + 1, s, o =>
    match s.portStep o with
    | .more o s =>
      if o.kind.rests && Config.portYield s.tick then .parked o { s with tick := s.tick + 1 }
      else State.portTry fuel { s with tick := s.tick + 1 } o
    | e => e

/-! ## Queue pairs (R424) -/

/-- A pair's operations performed in message order until one parks or waits. -/
def State.portRun (s : State) : List PortOp → State
  | [] => s
  | o :: rest =>
    match s.portTry (o.kind.len + 2) { o with tok := none } with
    | .done s => s.portRun rest
    | .nak s => (s.portNak o.port o.qp).portRun rest
    | .parked o s => { s with ports := s.ports ++ (o :: rest) }
    | .more o s => { s with ports := s.ports ++ (o :: rest) }

/-- The operations that wait in a pair. -/
def State.pair (s : State) (port qp : Nat) : List PortOp := s.ports.filter (fun o => o.port == port && o.qp == qp)

/-- A pair's operations taken out of the waiting list. -/
def State.takePair (s : State) (port qp : Nat) : State :=
  { s with ports := s.ports.filter (fun o => !(o.port == port && o.qp == qp)) }

/-- A parked pair goes on after a retry (R99, R424). -/
def State.portRetry (s : State) (port qp _tok : Nat) : State := (s.takePair port qp).portRun (s.pair port qp)

/-- The parked operation of a pair refused after an abort; those behind it go on (R99, R424). -/
def State.portAbort (s : State) (port qp _tok : Nat) : State :=
  match s.pair port qp with
  | [] => s
  | _ :: rest => ((s.takePair port qp).portNak port qp).portRun rest

/-- The pairs whose first operation waits for no token go on (R99, R321, R424). -/
def State.portsGo (s : State) : State :=
  ((s.ports.map (fun o => (o.port, o.qp))).dedup).foldl (fun s p =>
    match s.pair p.1 p.2 with
    | [] => s
    | o :: rest => if o.tok.isNone then (s.takePair p.1 p.2).portRun (o :: rest) else s) s

/-- Whether a port hears a queue pair: the port is in service and the module is powered (R32, R413, R423). -/
def State.portHears (s : State) (port qp : Nat) : Bool :=
  decide (port < 4) && s.inServ.eth.getLsbD port && decide (qp < 1024) && s.power == .on

/-- Whether a port takes a request of a queue pair: it hears it and the pair carries no management messages (R423, R425). -/
def State.portTakes (s : State) (port qp : Nat) : Bool := s.portHears port qp && qp != 2

/-- An operation arriving: behind those its pair has before it, else performed (R424). An unsupported one, as any of the management
pair but a SEND, is refused (R423, R425). -/
def State.portArrive (s : State) (o : PortOp) (supported : Bool) : State :=
  if !s.portHears o.port o.qp then s
  else if !s.portTakes o.port o.qp || !supported then s.portInvalid o.port o.qp
  else if s.pair o.port o.qp = [] then s.portRun [o]
  else { s with ports := s.ports ++ [o] }

/-- A packet for which the table has no event (R423): an unsupported feature is refused; a congestion mark is answered with a
notification packet; a packet out of its sequence is refused until the missing one comes again (log 123). None of them performs an
access. -/
def State.portPacket (s : State) (port qp : Nat) (p : PortPacket) : State :=
  if !s.portHears port qp then s
  else match p with
    | .unsupported => s.portInvalid port qp
    | .marked => s.sendPort port 24 [qp]
    | .outOfSequence => s.sendPort port 16 [qp, 3]

/-- RDMA_WRITE (R424). -/
def execRdmaWrite (port qp rkey va : Nat) (data : Bytes) (s : State) : Out :=
  .next (s.portArrive ⟨port, qp, rkey, va, .write data, none, []⟩ true)

/-- RDMA_READ (R424). -/
def execRdmaRead (port qp rkey va len : Nat) (s : State) : Out :=
  .next (s.portArrive ⟨port, qp, rkey, va, .read len [], none, []⟩ true)

/-- ATOMIC_FETCH_ADD (R423, R424). -/
def execAtomicFetchAdd (port qp rkey va : Nat) (add : Word) (s : State) : Out :=
  .next (s.portArrive ⟨port, qp, rkey, va, .fetchAdd add, none, []⟩ (va % 8 == 0))

/-- ATOMIC_CMP_SWAP (R423, R424). -/
def execAtomicCmpSwap (port qp rkey va : Nat) (cmp swap : Word) (s : State) : Out :=
  .next (s.portArrive ⟨port, qp, rkey, va, .cmpSwap cmp swap, none, []⟩ (va % 8 == 0))

/-- PAUSE_FRAME (R423): egress of a port stops, or resumes with what it kept back. -/
def execPauseFrame (port : Nat) (pause : Bool) (s : State) : Out :=
  .next (
    if 4 ≤ port then s
    else if pause then { s with paused := addOnce port s.paused }
    else { s with
      paused := s.paused.erase port
      out := s.out ++ s.egress.filter (fun p => p.1 == port)
      egress := s.egress.filter (fun p => p.1 != port) })

end Sys2Proof.Machine
end

