-- ==== Sys2Proof/Machine/Engine.lean ====
section
/-!
DEFINITION. Copy and collective engines: the checks of a command (R116), its nest, transforms, gathers and fills (R115,
R117, R118), parking (R122), completion (R119 to R121), routines (R125, R126) and collectives (R127).
-/

namespace Sys2Proof.Machine

open Sys2Proof

/-! ## Engines (R111, R112) -/

/-- An engine. -/
def State.eng (s : State) (e : Nat) : Engine := vget ⟨[], [], [], [], []⟩ s.engs e

/-- The state with an engine replaced. -/
def State.setEng (s : State) (e : Nat) (x : Engine) : State := { s with engs := vset s.engs e x }

/-- An engine's tower (R111). -/
def engTower (e : Nat) : Nat := if e < 32 then e / 16 else e - 32

/-- An engine's quadrant (R111); a collective engine's is not in the manual and stands as 0 (log 33). -/
def engQuad (e : Nat) : Nat := if e < 32 then e % 8 / 2 else 0

/-- Source code of an engine in fault records and packets (R97, R111). -/
def engSource (e : Nat) : Nat := if 32 ≤ e then 0x420 + (e - 32) else 0x400 + e

/-- Source code of an engine or, for an access of its own, of its stream core (R97, R111). -/
def accSource (core : Bool) (e : Nat) : Nat := if core then 0x440 + e else engSource e

/-- The access path of an operation code (R98): an engine streams a routine's nests on the copy path (R111, R126). A gather's
writes carry its path too (log 102). -/
def pathCode : Nat → Nat
  | 1 => 5
  | 4 => 6
  | _ => 4

/-- The access path of a command, or of its stream core (R98). -/
def accPath (core : Bool) (op : Nat) : Nat := if core then 7 else pathCode op

/-! ## Checks at acceptance (R116, R120, R126, R127) -/

/-- The group of a collective (R127, R438). -/
def State.groupOf (s : State) (c : Cmd) : Option Group := s.groups.find? (fun g => g.index == bits c.aux 25 10)

/-- A window of the issuer's context (R114, R429). -/
def State.windowOf (s : State) (c : Cmd) (a : Nat) : Option Nat :=
  let w := (cget 0 s.win (a / 2 ^ 44 % 256)).toNat
  if bit w 0 && bits w 89 74 == c.ctx then some w else none

/-- Whether a local hull lies in its store, on a brick in service (R116). -/
def State.hullOk (s : State) (h : LHull) : Bool :=
  s.inService h.brick && decide (0 ≤ h.lo) && decide (h.hi < spaceSize h.space)

/-- Whether a side's base address breaks a rule of its space. -/
def State.sideBad (s : State) (c : Cmd) (dst : Bool) : Bool :=
  let sp := if dst then c.ds else c.ss
  let a := if dst then c.dst else c.src
  let (lo, hi) := c.extent dst
  let index := !dst && c.op == 1
  if isLocal sp then decide (2 ^ 30 ≤ a)
  else if sp = 1 then decide ((a : Int) + lo < 0) || decide ((0x03C000000000 : Int) ≤ a + hi)
  else if sp = 5 then
    match s.windowOf c a with
    | none => true
    | some w => !index && (decide ((a % 2 ^ 44 : Nat) + lo < 0) || decide ((bits w 191 148 : Int) < (a % 2 ^ 44 : Nat) + hi + 1))
  else false

/-- Whether the two sides' hulls overlap in one space (R116); a gather's source hull is that of the stated nest (log 27). -/
def Cmd.sidesOverlap (c : Cmd) : Bool :=
  let (a, b) := c.extent false
  let (d, e) := c.extent true
  let same := c.ss == c.ds && (!isLocal c.ss || addrBrick c.src == addrBrick c.dst) && decide (c.ss ≠ 6) &&
    (c.ss != 5 || c.src / 2 ^ 44 == c.dst / 2 ^ 44)
  same && decide ((c.src : Int) + a ≤ c.dst + e) && decide ((c.dst : Int) + d ≤ c.src + b)

/-- Whether an address of a side array in a local store is one: its upper bits zero, its brick in service (R116, R117). -/
def State.localBad (s : State) (sp a : Nat) : Bool := isLocal sp && (decide (2 ^ 30 ≤ a) || !s.inService (addrBrick a))

/-- The base offset of an address in a space (R114, R116). -/
def baseOffset (sp a : Nat) : Nat := if isLocal sp then addrOff a else if sp = 5 then a % 2 ^ 44 else a

/-- Whether a scale array of a transform names a reserved physical address (R63, R117). -/
def Cmd.scalesBad (c : Cmd) : Bool :=
  let elemDst := !c.planeDst
  let (lo, hi) := c.extent elemDst
  decide ((c.aux : Int) + lo / (c.blk : Nat) < 0) || decide ((0x03C000000000 : Int) ≤ (c.aux : Int) + hi / (c.blk : Nat))

/-- Whether a transform's fields break R63, R116 and R117. -/
def State.xformBad (s : State) (c : Cmd) : Bool :=
  if c.xform = 0 then false
  else
    let w := c.blk
    let elemDst := !c.planeDst
    let base := if elemDst then c.dst else c.src
    let sp := if elemDst then c.ds else c.ss
    let psp := if elemDst then c.ss else c.ds
    decide (c.op = 2) || ((Fmt.ofCode c.fmtCode).bind Fmt.planes).isNone || decide (baseOffset sp base % w ≠ 0) ||
    (List.range 5).any (fun l => decide (c.stride elemDst l % (w : Nat) ≠ 0)) ||
    (!c.nos && s.localBad sp c.aux) || s.localBad psp c.aux2 ||
    (sp == 5 && !c.nos && (s.windowOf c c.aux).isNone) || (sp == 1 && !c.nos && c.scalesBad)

/-- Whether an operation's own fields break R116, R118, R126 or R127. -/
def State.opBad (s : State) (c : Cmd) (e : Nat) : Bool :=
  match c.op with
  | 0 => decide (32 ≤ e)
  | 1 => decide (32 ≤ e) || (List.range 5).any (fun l => decide (c.stride false l ≠ 0)) || decide (c.aux % 4 ≠ 0)
  | 2 => decide (32 ≤ e)
  | 3 => decide (32 ≤ e) || decide (s.inServ.routines ≤ bits c.aux 15 0) || !s.slots.any (fun x => x.1 == bits c.aux 15 0)
  | 4 =>
    decide (e < 32) || decide (bits c.aux 51 36 ≠ 0) || decide (5 < bits c.aux 7 4) || decide (3 < bits c.aux 3 0) ||
    (Fmt.ofCode c.fmtCode).isNone ||
    (match s.groupOf c with
      | none => true
      | some g => bits c.aux 3 0 == 3 && decide (g.nodes.length ≤ bits c.aux 35 26))
  | _ => true

/-- Whether a command is malformed (R5, R33, R116, R120). A fill's source is checked as any other (log 108). -/
def State.malformed (s : State) (c : Cmd) (e : Nat) : Bool :=
  s.opBad c e || (Fmt.ofCode c.fmtCode).isNone || decide (c.ss = 7) || decide (6 ≤ c.ds) || decide (c.xform = 3) || decide (3 < c.act) ||
  (c.act == 3 && !c.firm) || ((c.ss == 1 || c.ds == 1) && !c.firm) || (c.ss == 6 && decide (c.op ≠ 2)) ||
  s.sideBad c true || s.sideBad c false || !c.hulls.all s.hullOk || s.xformBad c ||
  c.sidesOverlap ||
  (c.act == 1 && (decide (2 ^ 30 ≤ c.target) || !s.inService (addrBrick c.target)))

/-! ## Reading and writing for a command -/

/-- The module that a far place lies in. -/
def Far.nodes : Far → List Nat
  | .window _ _ => []
  | .node n _ _ _ => [n]

/-- Why a piece of a command is not done now. -/
inductive EngStop where
  /-- A fault: kind, class, level, entry and address (R122). -/
  | fault (kind rc level : Nat) (pte : Word) (va : Nat)
  /-- The key slot of an access by physical address is empty (R79, R107). -/
  | keySlot (pa : Nat)
  /-- The write waits for a range the matrix unit holds (R124, R273). -/
  | wait
  /-- The command stops here with a kind that posts no record (R98, R326, R398). -/
  | stop (kind : Nat)
  /-- Bytes of the host or of another module are needed. -/
  | ask (f : Far) (n : Nat)
  deriving DecidableEq, Repr

/-- A piece in hand: the state with what its reads have marked, the answers not yet used, and whether poison was read. -/
structure Run where
  s : State
  e : Nat
  c : Cmd
  got : List (Bytes × Bool)
  bad : Bool
  /-- The access is the stream core's own. -/
  core : Bool
  deriving DecidableEq, Repr

/-- The next answer, or the need to ask. -/
def Run.far (r : Run) (f : Far) (n : Nat) : Except EngStop (List Byte × Run) :=
  match r.got with
  | (bs, p) :: rest => .ok (bs, { r with got := rest, bad := r.bad || p })
  | [] => .error (.ask f n)

/-- A virtual address outside 52 bits stops the command (R116). -/
def Run.inVa (a : Int) (n : Nat) : Except EngStop Nat :=
  if a < 0 ∨ (2 ^ 52 : Int) < a + n then .error (.fault 4 0 0 0 (a % 2 ^ 52).toNat) else .ok a.toNat

/-- The buffer an engine's accesses use (R93, R94). -/
def State.engLook (s : State) (e : Nat) : Look := ⟨(s.eng e).tlb, some (engTower e)⟩

/-- An engine's buffer and its tower's walk cache after a translation (R93). -/
def State.fillEng (s : State) (e ctx va : Nat) : State :=
  (s.setEng e { s.eng e with tlb := tlbFill 128 (s.eng e).tlb ctx (s.look (s.engLook e) ctx va) }).fillWalks (engTower e) ctx va

/-- The buffer that a piece's accesses use: the engine's, or its stream core's own (R93). -/
def Run.look (r : Run) : Look := if r.core then ⟨(r.s.eng r.e).coreTlb, some (engTower r.e)⟩ else r.s.engLook r.e

/-- That buffer and the tower's walk cache after a translation (R93). -/
def Run.fill (r : Run) (s : State) (va : Nat) : State :=
  if r.core then
    let g := s.eng r.e
    let l := tlbFill 128 g.coreTlb r.c.ctx (s.look ⟨g.coreTlb, some (engTower r.e)⟩ r.c.ctx va)
    (s.setEng r.e { g with coreTlb := l }).fillWalks (engTower r.e) r.c.ctx va
  else s.fillEng r.e r.c.ctx va

/-- The path of R222 on which an engine reads for a command: copy, gather or collective; it streams a routine's nests as copies,
and the stream core has a path of its own. -/
def pathBit (core : Bool) (op : Nat) : Nat := if core then 5 else if op = 1 then 2 else if op = 4 then 4 else 1

/-- Bytes read in a context's virtual space, sector by sector, behind what waits for their lines (R84, R87, R94, R292, R326). -/
def Run.readVirt : Nat → Run → Nat → Nat → List Byte → Except EngStop (List Byte × Run)
  | 0, r, _, _, acc => .ok (acc, r)
  | fuel + 1, r, va, n, acc =>
    if n = 0 then .ok (acc, r)
    else
      let k := sectorPart va n
      let look := r.look
      let r := { r with s := r.s.seeWalk look r.c.ctx va }
      match r.s.xlate look r.c.ctx va .read false with
      | .error (kind, rc, level, pte) => .error (.fault kind rc level pte va)
      | .ok pa =>
        match r.s.ownerNode pa with
        | some node =>
          (match r.far (.node node pa va (r.s.keyOf look r.c.ctx va)) k with
            | .ok (bs, r) => Run.readVirt fuel r (va + k) (n - k) (acc ++ bs)
            | .error x => .error x)
        | none =>
          match r.s.detCheck pa k r.c.det true false with
          | .error _ => .error (.stop 0xA)
          | .ok s =>
            let s := r.fill ((s.settle pa k).sliced look (engTower r.e) r.c.ctx va pa k false) va
            let (s, bad) := s.readChecked [1, 2, 3, 8] r.c.ctx (engTower r.e) pa k
            let (bs, s) := s.pathRead (pathBit r.core r.c.op) r.e r.c.ctx pa k
            Run.readVirt fuel { r with s := s, bad := r.bad || bad } (va + k) (n - k) (acc ++ bs)

/-- Whether the key of a line's block has left its slot, which an access by physical address finds at the base die (R79). -/
def State.slotEmpty (s : State) (pa : Nat) : Bool := !secondTier pa && (s.slotKey (s.frameKey pa)).isNone

/-- Bytes read at a physical address (R61, R69, R79, R107): in the second tier they are those of the stored image. -/
def Run.readPa (r : Run) (pa n : Nat) : Except EngStop (List Byte × Run) :=
  if r.s.slotEmpty pa then .error (.keySlot pa)
  else if secondTier pa then
    let (s, bad) := r.s.readChecked [7, 8] 0xFFFF (engTower r.e) pa n
    .ok (s.readTier pa n, { r with s := s, bad := r.bad || bad })
  else
    let s := ((r.s.settle pa n).openLines 0xFFFF pa n false).touch pa n false (bit (r.s.descOf pa) 6)
    let (s, bad) := s.readChecked [1, 2, 3, 8] 0xFFFF (engTower r.e) pa n
    .ok (s.readPhys pa n, { r with s := s, bad := r.bad || bad })

/-- Whether a command's accesses to a brick's stores go to its issuer's saved image (R394). -/
def State.toImage (s : State) (c : Cmd) (brick : Nat) : Bool :=
  c.brick == brick && s.images.any (fun x => x.task.tid == c.tid && x.image.bid == brick)

/-- The brick whose stores a command meets. -/
def State.engBrick (s : State) (c : Cmd) (brick : Nat) : Brick :=
  if s.toImage c brick then
    match s.images.find? (fun x => x.task.tid == c.tid) with
    | some x => x.image
    | none => s.brick brick
  else s.brick brick

/-- That brick replaced. -/
def State.setEngBrick (s : State) (c : Cmd) (brick : Nat) (b : Brick) : State :=
  if s.toImage c brick then (s.onImage c.tid (fun _ => b)).syncImage c.tid else s.setBrick brick b

/-- Bytes read in a space (R114). -/
def Run.read (r : Run) (sp : Nat) (a : Int) (n : Nat) : Except EngStop (List Byte × Run) :=
  if sp = 0 then do
    let va ← Run.inVa a n
    Run.readVirt (n + 1) r va n []
  else if sp = 1 then
    if a < 0 ∨ !physOk (a.toNat + n - 1) then .error (.fault 4 0 0 0 (a % 2 ^ 52).toNat)
    else r.readPa a.toNat n
  else if isLocal sp then
    let off := addrOff a.toNat
    if a < 0 ∨ !inSpace (sp - 2) off n then .error (.fault 4 0 0 0 (a % 2 ^ 52).toNat)
    else
      let brick := addrBrick a.toNat
      let (b, w) := (r.s.engBrick r.c brick).checkRead (sp - 2) off n r.c.ctx
      .ok (b.loc.read (sp - 2) off n, { r with s := r.s.setEngBrick r.c brick b, bad := r.bad || w.isSome })
  else
    let len := match r.s.windowOf r.c a.toNat with
      | some w => bits w 191 148
      | none => 0
    if a < 0 ∨ len < a.toNat % 2 ^ 44 + n then .error (.fault 4 0 0 0 (a % 2 ^ 52).toNat)
    else r.far (.window (a.toNat / 2 ^ 44 % 256) (a.toNat % 2 ^ 44)) n

/-- The writes of bytes in a context's virtual space, sector by sector (R92, R94, R321, R326). -/
def Run.prepVirt : Nat → Run → Nat → List Byte → List Wr → Except EngStop (List Wr × Run)
  | 0, r, _, _, acc => .ok (acc, r)
  | fuel + 1, r, va, bs, acc =>
    if bs = [] then .ok (acc, r)
    else
      let k := sectorPart va bs.length
      let look := r.look
      let r := { r with s := r.s.seeWalk look r.c.ctx va }
      match r.s.xlate look r.c.ctx va .write false with
      | .error (kind, rc, level, pte) => .error (.fault kind rc level pte va)
      | .ok pa =>
        match r.s.ownerNode pa with
        | some node =>
          Run.prepVirt fuel r (va + k) (bs.drop k) (acc ++ [.far (.node node pa va (r.s.keyOf look r.c.ctx va)) (bs.take k)])
        | none =>
          match r.s.detCheck pa k r.c.det false true with
          | .error _ => .error (.stop 0xA)
          | .ok s => Run.prepVirt fuel { r with s := r.fill s va } (va + k) (bs.drop k) (acc ++ [.phys pa (some va) (bs.take k)])

/-- Lines of a block, as offsets, that bytes read for it have poisoned (R87). -/
def badLines (buf : List (Bytes × Bool)) : List Nat :=
  (buf.foldl (fun (r : Nat × List Nat) p =>
    (r.1 + p.1.length, if p.2 then r.2 ++ linesOf r.1 p.1.length else r.2)) (0, [])).2

/-- The write of a whole block of a context's virtual space (R70, R80, R92, R326); of a block of another module, its sectors. -/
def Run.prepBlock (r : Run) (va : Nat) (bs : List Byte) (bad : List Nat) : Except EngStop (List Wr × Run) :=
  let look := r.look
  let r := { r with s := r.s.seeWalk look r.c.ctx va }
  match r.s.xlate look r.c.ctx va .write true with
  | .error (kind, rc, level, pte) => .error (.fault kind rc level pte va)
  | .ok pa =>
    if (r.s.ownerNode pa).isSome then Run.prepVirt (bs.length + 1) r va bs []
    else match r.s.detCheck pa 4096 r.c.det false true with
      | .error _ => .error (.stop 0xA)
      | .ok s =>
        let s := s.counts look (engTower r.e) r.c.ctx va pa 4096
        .ok ([.block pa bs (r.s.keyOf look r.c.ctx va) (r.s.compressible look r.c.ctx va) bad], { r with s := r.fill s va })

/-- The write of a whole block at a physical address of HBM, which names no leaf: under the key of the block that it comes from,
compressible where that block is stored compressed, or, from elsewhere, under the key that it has (R70, R79, R80, R107; log 124). -/
def Run.prepFrame (r : Run) (src : Option Nat) (pa : Nat) (bs : List Byte) (bad : List Nat) : Except EngStop (List Wr × Run) :=
  let d := r.s.descOf (src.getD pa)
  if (r.s.slotKey (bits d 13 7)).isNone then .error (.keySlot pa)
  else .ok ([.block pa bs (bits d 13 7) (bit d 6) bad], r)

/-- The writes of bytes in a space (R79, R114, R124, R273, R326, R398). -/
def Run.prep (r : Run) (sp : Nat) (a : Int) (bs : List Byte) : Except EngStop (List Wr × Run) :=
  if sp = 0 then do
    let va ← Run.inVa a bs.length
    Run.prepVirt (bs.length + 1) r va bs []
  else if sp = 1 then
    if a < 0 ∨ !physOk (a.toNat + bs.length - 1) then .error (.fault 4 0 0 0 (a % 2 ^ 52).toNat)
    else if r.s.slotEmpty a.toNat then .error (.keySlot a.toNat)
    else .ok ([.phys a.toNat none bs], r)
  else if isLocal sp then
    let off := addrOff a.toNat
    let brick := addrBrick a.toNat
    let b := r.s.engBrick r.c brick
    if a < 0 ∨ !inSpace (sp - 2) off bs.length then .error (.fault 4 0 0 0 (a % 2 ^ 52).toNat)
    else if r.c.det.isSome && r.c.brick != brick then .error (.stop 0xA)
    else if !r.s.toImage r.c brick && !r.s.takesWrites b then .error (.stop 0xC)
    else if b.mxHoldsOther (sp - 2) off bs.length then .error .wait
    else .ok ([.loc brick (sp - 2) off bs], r)
  else .ok ([.far (.window (a.toNat / 2 ^ 44 % 256) (a.toNat % 2 ^ 44)) bs], r)

/-- A packet to the host or another module: the request of a read (`bs` empty) or a write; none where no link is left
(R423, R433, R436; log 19). -/
def State.sendFar (s : State) (core : Bool) (e : Nat) (c : Cmd) (f : Far) (n : Nat) (bs : List Byte) (bad : Bool) : Option State :=
  match f with
  | .window w off =>
    let x := (cget 0 s.win w).toNat
    some (s.sendPort (bits x 91 90) (if bs = [] then 20 else 21)
      [bits x 115 92, bits x 147 116, (bits x 255 192 + off) % 2 ^ 64, n, ofBytes bs])
  | .node node pa va key =>
    let (s, out) := match s.mismatch [0xB] c.ctx (pa / 64 * 64) (((s.linkTo node).map linkTower).getD (engTower e)) bs with
      | some (_, s) => (s, true)
      | none => (s, bad)
    s.sendNode node (if bs = [] then 1 else 0) out [accSource core e, c.seq, c.ctx, pa, n, ofBytes bs, key, va, accPath core c.op]

/-- A write packet of an engine split at the lines of a local store: a packet carries at most one (R138). -/
def linePackets : Nat → Nat → List Byte → List (Nat × List Byte)
  | 0, _, _ => []
  | fuel + 1, off, bs =>
    if bs = [] then []
    else
      let k := min bs.length (64 - off % 64)
      (off, bs.take k) :: linePackets fuel (off + k) (bs.drop k)

/-- Bytes written at a physical address for a command, checked as they arrive; poisoned data is written still poisoned
(R82, R84, R86, R87). Of lines that were poisoned, what the command has written with good data comes with the state. -/
def State.engWrite (s : State) (e : Nat) (x : CmdCtx) (bad : Bool) (pa : Nat) (bs : List Byte) : State × Cells (BitVec 64) :=
  let (s, ok) := s.writeChecked (if secondTier pa then [1, 2, 7] else [1, 2, 3]) (if x.cmd.ds = 1 then 0xFFFF else x.cmd.ctx) (engTower e) pa bs
  if bad then ((linesOf pa bs.length).foldl State.poison s, spoil x.good pa bs.length)
  else if ok then (let (g, s) := s.cleanse x.good pa bs.length; (s, g))
  else (s, spoil x.good pa bs.length)

/-- A line moved by its physical address, compared where it leaves its memory, at the engine and where it comes to rest: a word that
disagrees poisons it there (R69, R84, R86, R107). -/
def State.moveChecked (s : State) (e src dst : Nat) : State :=
  let s := s.settle dst 64
  let pts := fun (a : Nat) (rd : Bool) => if secondTier a then [7] else if rd then [3] else [4]
  let (s, p) := match s.mismatch (pts src true ++ [1, 2, 8]) 0xFFFF src (engTower e) (s.readPhys src 64) with
    | some (q, s) => (s.hurt q src, true)
    | none => (s, false)
  let s := s.moveLine src dst
  let (s, q) := match s.mismatch (pts dst false) 0xFFFF dst (engTower e) (s.readPhys dst 64) with
    | some (_, s) => (s, true)
    | none => (s, false)
  if p || q then s.poison dst else s

/-- What a write of a command looks in for its leaf (R93). -/
def State.wrLook (s : State) (e : Nat) (x : CmdCtx) : Look :=
  if x.core.isSome then ⟨(s.eng e).coreTlb, some (engTower e)⟩ else ⟨(s.eng e).tlb, some (engTower e)⟩

/-- A write of a command served by its slice: behind what waits for its line, counted by its leaf, and held from then on (R67, R108,
R292). -/
def State.wrSliced (s : State) (e : Nat) (x : CmdCtx) (pa n : Nat) (va : Option Nat) : State :=
  let s := s.settle pa n
  match va with
  | some va => s.sliced (s.wrLook e x) (engTower e) x.cmd.ctx va pa n true
  | none => (s.openLines 0xFFFF pa n true).touch pa n true (bit (s.descOf pa) 6)

/-- A write made. -/
def State.applyWr (s : State) (e : Nat) (x : CmdCtx) (bad : Bool) (w : Wr) : State × Cells (BitVec 64) :=
  match w with
  | .phys pa va bs =>
    let s := if secondTier pa then s.looseTier (pa / 4096) else s.wrSliced e x pa bs.length va
    s.engWrite e x bad pa bs
  | .block pa bs key cmp ls =>
    let (s, g) := (s.settle pa 4096).engWrite e x false pa bs
    let s := (s.dropFrame (pa / 4096)).writeBlock key pa cmp
    (ls.foldl (fun s l => s.poison (pa + l)) s, g)
  | .move a b =>
    let s := s.moveChecked e a b
    (s, spoil x.good b 64)
  | .loc brick space off bs =>
    let b := s.engBrick x.cmd brick
    let b := (linePackets (bs.length + 1) off bs).foldl (fun b p => b.packet space p.1 p.2 (engSource e) false) b
    let b := if bad then
        { b with lpois := (wordsOf space off bs.length).foldl (fun l w => if l.contains (space, w) then l else (space, w) :: l) b.lpois }
      else b
    (s.setEngBrick x.cmd brick b, x.good)
  | .far _ _ => (s, x.good)

/-- Whether a write's slice has room for it (R292). -/
def State.wrRoom (s : State) (w : Wr) : Bool :=
  match w with
  | .phys pa _ _ => secondTier pa || s.lineWaits (pa / 64 * 64) || s.queueRoom (pa / 64 * 64)
  | _ => true

/-! ## One piece of a command (R115, R117, R118) -/

/-- What a piece did: units gone by, destination bytes, its writes, and what it has read ahead (R70, R117). -/
structure Piece where
  units : Nat
  bytes : Nat
  wrs : List Wr
  r : Run
  ahead : Ahead
  deriving DecidableEq, Repr

/-- The source base of run k: the nest's, or the indexed one of a gather (R115, R118). -/
def Run.srcBase (r : Run) (k : Nat) : Except EngStop (Int × Run) :=
  if r.c.op = 1 then do
    let (bs, r) ← r.read 0 ((r.c.aux + 4 * k : Nat) : Int) 4
    .ok ((r.c.src : Int) + (ofBytes bs * 2 ^ r.c.f 23 20 : Nat), r)
  else .ok ((r.c.src : Int) + r.c.runOff false k, r)

/-- Bytes of a run that one piece moves at an address of a space: up to the end of a sector of device memory, or of a line
elsewhere (R138, R321). -/
def pieceLeft (sp : Nat) (a : Int) (n : Nat) : Nat :=
  if sp ≤ 1 then min n (32 - (a % 32).toNat) else if sp = 6 then n else min n (64 - (a % 64).toNat)

/-- Whether a run that begins at an address covers the whole 4 KiB block of another (R70). -/
def coversBlock (start : Int) (n : Nat) (d : Int) : Bool :=
  let block := d - d % 4096
  decide (start ≤ block) && decide (block + 4096 ≤ start + n)

/-- The lines of a physical copy that moves one whole to, from or within the second tier: source and destination (R69, R107). -/
def Cmd.lineMove (c : Cmd) (k off : Nat) : Option (Nat × Nat) :=
  let s : Int := c.src + c.runOff false k + off
  let d : Int := c.dst + c.runOff true k + off
  if c.op = 0 ∧ c.xform = 0 ∧ c.ss = 1 ∧ c.ds = 1 ∧ off + 64 ≤ c.run ∧ 0 ≤ s ∧ 0 ≤ d ∧ s % 64 = 0 ∧ d % 64 = 0 ∧
      (secondTier s.toNat || secondTier d.toNat) then
    some (s.toNat, d.toNat)
  else none

/-- Bytes read ahead. -/
def bufLen (buf : List (Bytes × Bool)) : Nat := (buf.map (fun p => p.1.length)).sum

/-- Whether bytes of a command's run at a destination address belong to a 4 KiB block of device memory that the run covers: they are
written once the block has been read whole (R70, R80). -/
def Cmd.wholeBlock (c : Cmd) (start : Int) (n : Nat) (d : Int) : Bool :=
  (c.ds == 0 || (c.ds == 1 && decide (0 ≤ d) && !secondTier d.toNat)) && coversBlock start n d

/-- The write of a 4 KiB block whole (R70, R80). -/
def Run.whole (r : Run) (src : Option Nat) (d : Int) (buf : List (Bytes × Bool)) : Except EngStop (List Wr × Run) := do
  let all := buf.flatMap Prod.fst
  let (ws, r) ← (if r.c.ds = 0 then do
      let va ← Run.inVa d 4096
      r.prepBlock va all (badLines buf)
    else r.prepFrame src d.toNat all (badLines buf))
  .ok (ws, { r with bad := buf.any Prod.snd })

/-- The next piece of a run of bytes. -/
def Run.bytesPiece (r : Run) (x : CmdCtx) : Except EngStop Piece := do
  let d0 : Int := r.c.dst + r.c.runOff true x.k
  let whole := r.c.wholeBlock d0 r.c.run (d0 + x.off)
  let off := if whole then x.off + bufLen x.ahead.buf else x.off
  let d := d0 + off
  let n := pieceLeft r.c.ds d (r.c.run - off)
  let (s0, r) ← (if r.c.op = 2 then .ok ((0 : Int), r) else r.srcBase x.k)
  let (bs, r) ← (if r.c.op = 2 then .ok ((List.range n).map (fun j => BitVec.ofNat 8 (r.c.aux / 2 ^ (8 * ((off + j) % 4)))), r)
    else r.read r.c.ss (s0 + off) (pieceLeft r.c.ss (s0 + off) n))
  if whole then
    let buf := x.ahead.buf ++ [(bs, r.bad)]
    if bufLen buf < 4096 then .ok ⟨0, 0, [], { r with bad := false }, { x.ahead with buf := buf }⟩
    else
      let from_ := if r.c.ss = 1 ∧ 0 ≤ s0 ∧ !secondTier (s0 + x.off).toNat then some (s0 + x.off).toNat else none
      let (ws, r) ← r.whole from_ (d0 + x.off) buf
      .ok ⟨4096, 4096, ws, r, .none⟩
  else
    let (ws, r) ← r.prep r.c.ds d bs
    .ok ⟨bs.length, bs.length, ws, r, .none⟩

/-- Element i of width w of a list of bytes (R42). -/
def bytesElem (bs : List Byte) (w i : Nat) : Nat := elem (ofBytes bs) w i

/-- The element-major code of an element of a plane-major block under its mask (R41, R46, R117). A NaN is written as its
format's canonical NaN with the stored sign (log 30). -/
def blockCode (f : Fmt) (bs : List Byte) (mask j : Nat) : Nat :=
  let rows := fun r => ofBytes ((bs.drop (4 * r)).take 4)
  if f = .int8 then intCode .int8 (int8Elem rows mask 8 j)
  else
    match floatElem f rows mask 8 j with
    | .fin s m e => (round f 0 (.fin s m e)).1
    | .inf s => f.signed s f.infCode
    | .nan => f.signed (bit (rows 0) j) f.nanCode

/-- The space and address of a block's pair, in the side bank of the plane-major side's own brick where that side is local
(R117; logs 104, 105). -/
def Cmd.pairAt (c : Cmd) (b : Int) : Nat × Int :=
  let base : Int := if c.planeDst then c.dst else c.src
  let sp := if c.planeDst then c.ds else c.ss
  let at_ : Int := if isLocal sp then (addrBrick base.toNat * 2 ^ 20 + addrOff c.aux2 : Nat) else c.aux2
  (if isLocal sp then 4 else 0, at_ + 2 * ((b - base) / (c.blk : Nat)))

/-- The space and address of a block's scale (R117; log 105). -/
def Cmd.scaleAt (c : Cmd) (a : Int) : Nat × Int :=
  let base : Int := if c.planeDst then c.src else c.dst
  (if c.planeDst then c.ss else c.ds, (c.aux : Int) + (a - base) / (c.blk : Nat))

/-- The writes of several ranges. -/
def Run.prepAll (r : Run) (ws : List Wr) : List (Nat × Int × List Byte) → Except EngStop (List Wr × Run)
  | [] => .ok (ws, r)
  | (sp, a, bs) :: rest => do
    let (w, r) ← r.prep sp a bs
    r.prepAll (ws ++ w) rest

/-- A transformed block and its side array's bytes written; those that a 4 KiB block of memory takes whole are written together
(R70, R80, R117). -/
def Run.blockOut (r : Run) (x : CmdCtx) (grouped : Bool) (d : Int) (out : List Byte) (side : List (Nat × Int × List Byte)) :
    Except EngStop Piece := do
  let c := r.c
  if grouped then
    let outs := x.ahead.out ++ [(out, r.bad)]
    let sides := x.ahead.side ++ side
    if bufLen outs < 4096 then .ok ⟨0, 0, [], { r with bad := false }, ⟨[], outs, sides⟩⟩
    else
      let (ws, r) ← r.whole none (d + out.length - 4096) outs
      let (ws, r) ← r.prepAll ws sides
      .ok ⟨4096 / c.blk, 4096, ws, r, .none⟩
  else
    let (ws, r) ← r.prep c.ds d out
    let (ws, r) ← r.prepAll ws side
    .ok ⟨1, c.blk, ws, r, .none⟩

/-- The next block of a transform, read sector by sector (R117, R321). A gather's `aux` serves both its indices and, where `nos` is 0, its
scales (R118; DESIGN CHOICE, log 136). -/
def Run.blockPiece (r : Run) (x : CmdCtx) : Except EngStop Piece := do
  let c := r.c
  let f := c.fmt
  let d0 : Int := c.dst + c.runOff true x.k
  let p : Int := d0 + (x.off * c.blk : Nat)
  let grouped := c.wholeBlock d0 (c.run * c.blk) p && decide (p % 4096 = 0) && decide (4096 % c.blk = 0)
  let done := bufLen x.ahead.out
  let (s0, r) ← r.srcBase x.k
  let a := s0 + (x.off * c.blk + done : Nat)
  let have_ := bufLen x.ahead.buf
  let (more, r) ← r.read c.ss (a + have_) (pieceLeft c.ss (a + have_) (c.blk - have_))
  let buf := x.ahead.buf ++ [(more, r.bad)]
  if bufLen buf < c.blk then .ok ⟨0, 0, [], { r with bad := false }, { x.ahead with buf := buf }⟩
  else
    let bs := buf.flatMap Prod.fst
    let d := p + done
    let r := { r with bad := buf.any Prod.snd }
    if c.planeDst then
      let code := fun j => bytesElem bs f.width j
      let (sb, r) ← (if c.nos then .ok (([0x7F] : List Byte), r) else r.read (c.scaleAt a).1 (c.scaleAt a).2 1)
      r.blockOut x grouped d (blockBytes f code) [((c.pairAt d).1, (c.pairAt d).2, BitVec.ofNat 8 (writeMask f code) :: sb)]
    else
      let (ps, r) ← r.read (c.pairAt a).1 (c.pairAt a).2 2
      let mask := (ps.headD 0).toNat
      let out := toBytes c.blk (pack f.width (fun j => blockCode f bs mask j) 32)
      r.blockOut x grouped d out (if c.nos then [] else [((c.scaleAt d).1, (c.scaleAt d).2, ps.drop 1)])

/-- The next piece of a copy, gather or fill. -/
def Run.piece (r : Run) (x : CmdCtx) : Except EngStop Piece :=
  match r.c.lineMove x.k x.off with
  | some (a, b) =>
    if r.s.slotEmpty a then .error (.keySlot a)
    else .ok ⟨64, 64, [.move a b], { r with bad := r.bad || r.s.poisoned a 64 }, .none⟩
  | none => if r.c.xform = 0 then r.bytesPiece x else r.blockPiece x

/-- Bytes of a run (R115). -/
def Cmd.runBytes (c : Cmd) : Nat := c.run * c.unit

/-! ## Collectives (R127) -/

/-- One element folded (R127): the code and its flags. -/
def foldElem (f : Fmt) (mode op a b : Nat) : Nat × Flags :=
  let val := fun x => if f.isFloat then f.read x else Val.ofInt (if f.isSigned then sextInt x f.width else x) 0
  match op with
  | 0 =>
    if f.isFloat then
      let (x, g) := addNum (val a) (val b)
      let (y, h) := round f mode x
      (y, g ||| h)
    else ((a + b) % 2 ^ f.width, 0)
  | 1 => (if (val a).isNan || (val b).isNan then f.nanCode else if beforeNum (val b) (val a) then b else a, 0)
  | 2 => (if (val a).isNan || (val b).isNan then f.nanCode else if beforeNum (val a) (val b) then b else a, 0)
  | 3 => (a &&& b, 0)
  | 4 => (a ||| b, 0)
  | _ => (a ^^^ b, 0)

/-- Contributions folded element by element in rank order (R127). -/
def foldParts (f : Fmt) (mode op : Nat) : List (List Byte) → List Byte × Flags
  | [] => ([], 0)
  | x :: rest =>
    let n := x.length * 8 / f.width
    rest.foldl (fun (r : List Byte × Flags) y =>
      let es := (List.range n).map (fun i => foldElem f mode op (bytesElem r.1 f.width i) (bytesElem y f.width i))
      (toBytes x.length (pack f.width (fun i => ((es[i]?).map Prod.fst).getD 0) n),
        es.foldl (fun g e => g ||| e.2) r.2)) (x, 0)

/-- Every rank's contribution in rank order, once all are there. -/
def CmdCtx.allParts (x : CmdCtx) (g : Group) : Option (List (List Byte)) :=
  (List.range g.nodes.length).mapM (fun i =>
    if i = g.rank then some x.mine else (x.parts.find? (fun p => p.1 == i)).map Prod.snd)

/-- Bytes of one rank's part of a collective of n ranks: of the nest's elements, an equal share in whole elements (R127; log 31). -/
def Cmd.partBytes (c : Cmd) (n : Nat) : Nat := c.runs * c.runBytes * 8 / c.fmt.width / n * c.fmt.width / 8

/-- The result of a collective on this module, with its flags (R127): an all-reduce gives every element folded, a
reduce-scatter those of this rank's part, the parts lying in rank order, an all-gather one part of every rank in rank order, and a
broadcast the root's contribution (log 31). -/
def collectiveResult (c : Cmd) (g : Group) (parts : List (List Byte)) : List Byte × Flags :=
  let len := c.partBytes g.nodes.length
  let fold := foldParts c.fmt (bits c.aux 9 8) (bits c.aux 7 4)
  match bits c.aux 3 0 with
  | 0 => fold parts
  | 1 => fold (parts.map (fun p => (p.drop (g.rank * len)).take len))
  | 2 => (parts.flatMap (fun p => p.take len), 0)
  | _ => (parts.getD (bits c.aux 35 26) [], 0)

/-! ## A command's progress -/

/-- A command context in acceptance order. -/
def State.cmdAt (s : State) (e i : Nat) : Option CmdCtx := (s.eng e).ctxs[i]?

/-- A command context replaced. -/
def State.setCmd (s : State) (e i : Nat) (x : CmdCtx) : State :=
  let g := s.eng e
  s.setEng e { g with ctxs := g.ctxs.set i x }

/-- A command context changed. -/
def State.onCmd (s : State) (e i : Nat) (f : CmdCtx → CmdCtx) : State :=
  match s.cmdAt e i with
  | some x => s.setCmd e i (f x)
  | none => s

/-- A command just accepted (R112). -/
def CmdCtx.accepted (c : Cmd) (outcome : Option (Nat × Nat)) : CmdCtx :=
  { cmd := c, started := false, k := 0, off := 0, count := 0, flags := 0, poisoned := false, outcome := outcome, tok := none,
    got := [], asked := 0, reading := false, want := 0, nodes := [], late := [], lateBytes := 0, good := [], ahead := .none, todo := [], todoBad := false, undec := false, args := [], core := none, loaded := [], regs := CoreRegs.zero, stepping := false, ringMem := [], inPos := 0, outPos := 0, ringIn := [], ringOut := [], ended := false, idle := 0, mine := [],
    sent := false, parts := [] }

/-- The position after some units (R115). -/
def CmdCtx.advance (x : CmdCtx) (n : Nat) : CmdCtx :=
  if x.off + n < x.cmd.run then { x with off := x.off + n } else { x with k := x.k + 1, off := 0 }

/-- The position after some bytes of a routine's or a collective's source, whose layout field is not used (log 34). -/
def CmdCtx.advanceBytes (x : CmdCtx) (n : Nat) : CmdCtx :=
  if x.off + n < x.cmd.runBytes then { x with off := x.off + n } else { x with k := x.k + 1, off := 0 }

/-- Destination bytes written or held back so far. -/
def CmdCtx.sofar (x : CmdCtx) : Nat := x.count + x.lateBytes

/-- The place in the destination nest after the bytes so far (R115). -/
def CmdCtx.dstPos (x : CmdCtx) : Nat × Nat := (x.sofar / x.cmd.runBytes, x.sofar % x.cmd.runBytes)

/-- Whether a run of the destination nest has just ended. -/
def CmdCtx.runEnds (x : CmdCtx) : Bool := if 3 ≤ x.cmd.op then x.dstPos.2 == 0 else x.off == 0

/-- Data for the host and other modules sent, one answer awaited for each packet; an unreachable module stops the command
(R429, R436). -/
def State.sendFars (s : State) (e i : Nat) (x : CmdCtx) (bad : Bool) (ps : List (Far × Bytes)) : State :=
  match ps.foldl (fun (r : Option State) p => r.bind (fun s => s.sendFar x.core.isSome e x.cmd p.1 p.2.length p.2 bad)) (some s) with
  | some s => s.setCmd e i { x with asked := ps.length, reading := false, nodes := ps.flatMap (fun p => p.1.nodes) }
  | none => s.setCmd e i { x with outcome := some (2, 0xB) }

/-- The packets to the host that a command has held back. -/
def CmdCtx.latePackets (x : CmdCtx) : List (Far × Bytes) := x.late.map (fun p => (Far.window p.1 p.2.1, p.2.2))

/-- A command whose held-back data count as written. -/
def CmdCtx.released (x : CmdCtx) : CmdCtx := { x with count := x.count + x.lateBytes, late := [], lateBytes := 0 }

/-- An outcome beside the one a command may have: the lower nonzero code wins, and of two alike the first (R121). -/
def CmdCtx.ends (x : CmdCtx) (code kind : Nat) : CmdCtx :=
  match x.outcome with
  | some (n, _) => if n ≠ 0 ∧ n ≤ code then x else { x with outcome := some (code, kind) }
  | none => { x with outcome := some (code, kind) }

/-- A piece that is not done: it parks, waits, asks, or ends the command (R99, R122, R398). What was read before it for the
host is sent first: everything before the position is written (R122). -/
def State.engStop (s : State) (e i : Nat) (x : CmdCtx) (stop : EngStop) : State :=
  match stop with
  | .wait => s
  | .ask f n =>
    (match s.sendFar x.core.isSome e x.cmd f n [] false with
      | some s => s.setCmd e i { x with asked := 1, reading := true, want := n, nodes := f.nodes }
      | none => s.sendFars e i { x.released with outcome := some (2, 0xB) } false x.latePackets)
  | .stop kind => s.sendFars e i (x.released.ends 2 kind) false x.latePackets
  | .keySlot pa =>
    let w := paTower pa
    if !s.faultRoom w then s
    else
      (s.postFault w (faultRecord s.clk 0 0xFFFF (accSource x.core.isSome e) x.cmd.ctx 0 0 5 (accPath x.core.isSome x.cmd.op) pa)).sendFars
        e i (x.released.ends 2 5) false x.latePackets
  | .fault kind rc level pte va =>
    let w := s.faultTower (s.wrLook e x) x.cmd.ctx va kind (engTower e)
    let post := fun (s : State) (tok : Nat) =>
      s.postFault w (faultRecord s.clk pte.toNat tok (accSource x.core.isSome e) x.cmd.ctx rc level kind (accPath x.core.isSome x.cmd.op) va)
    if !s.faultRoom w then s
    else if kind = 0 then
      let (tok, s) := s.park (.engine e x.cmd.seq) va
      (post s tok).sendFars e i { x.released with tok := some tok, got := [], ahead := .none } false x.latePackets
    else (post s 0xFFFF).sendFars e i { x.released.ends 2 kind with undec := true } false x.latePackets

/-- Writes of a piece to the host, as window, offset and bytes. -/
def hostWrites (ws : List Wr) : List (Nat × Nat × Bytes) :=
  ws.filterMap (fun w => match w with
    | .far (.window w off) bs => some (w, off, bs)
    | _ => none)

/-- Writes of a piece to other modules. -/
def nodeWrites (ws : List Wr) : List (Far × Bytes) :=
  ws.filterMap (fun w => match w with
    | .far (.node n pa va key) bs => some (.node n pa va key, bs)
    | _ => none)

/-- Data for the host behind those held back: bytes that follow on are one write. -/
def addLate (l : List (Nat × Nat × Bytes)) (p : Nat × Nat × Bytes) : List (Nat × Nat × Bytes) :=
  match l.getLast? with
  | some (w, off, bs) => if w = p.1 ∧ off + bs.length = p.2.1 then l.dropLast ++ [(w, off, bs ++ p.2.2)] else l ++ [p]
  | none => [p]

/-- The writes of a command that remain made in order, until one's slice has no room (R292). -/
def State.makeWrites (s : State) (e : Nat) (x : CmdCtx) : Nat → State × CmdCtx
  | 0 => (s, x)
  | n + 1 =>
    match x.todo with
    | [] => (s, x)
    | w :: rest =>
      if !s.wrRoom w then (s, x)
      else
        let (s, good) := s.applyWr e x x.todoBad w
        let hurt := match w with
          | .move _ b => s.poisoned b 64
          | _ => false
        s.makeWrites e { x with todo := rest, good := good, poisoned := x.poisoned || hurt } n

/-- The first of a piece's writes in this module made; those of its other sectors follow in events of their own (R321). -/
def State.firstWrite (s : State) (e i : Nat) : State :=
  match s.cmdAt e i with
  | some x => (let (s, x) := s.makeWrites e x 1; s.setCmd e i x)
  | none => s

/-- The device-side line of a command's transfer to the host: that of its source's position (R86). -/
def CmdCtx.sourceLine (x : CmdCtx) : Nat :=
  let a : Int := x.cmd.src + x.cmd.runOff false x.k + (x.off * x.cmd.unit : Nat)
  a.toNat % 2 ^ 52 / 64 * 64

/-- What leaves for the host: a word that disagrees at its window's port poisons it (R24, R84, R86). -/
def State.hostEgress (s : State) (x : CmdCtx) (ps : List (Nat × Nat × Bytes)) : State × Bool :=
  match ps with
  | [] => (s, false)
  | (w, _, _) :: _ =>
    match s.mismatch [0xA] x.cmd.ctx x.sourceLine (bits (cget 0 s.win w).toNat 91 90 / 2) (ps.flatMap (fun p => p.2.2)) with
    | some (_, s) => (s, true)
    | none => (s, false)

/-- A piece done: its first write made and the position moved. Data for the host wait until their run has been read whole; where any
of them is poisoned none is sent, and the command ends there (R87; log 106). A word of the engine's buffer that cannot be corrected
poisons what it holds (R142). -/
def Piece.done (p : Piece) (e i : Nat) (x : CmdCtx) (next : CmdCtx → CmdCtx) : State :=
  let host := hostWrites p.wrs
  let (lost, s') := p.r.s.arrayError 0x21 (2 + e) 0 x.cmd.ctx
  let (s', upset) := s'.hostEgress x host
  let bad := p.r.bad || lost
  if (bad || upset) && !host.isEmpty then
    s'.setCmd e i { x with poisoned := true, got := [], late := [], lateBytes := 0, outcome := some (0, 0) }
  else
    let x := { next x with
      got := [], poisoned := x.poisoned || bad, ahead := p.ahead, todoBad := bad
      todo := p.wrs.filter (fun w => match w with
        | .far _ _ => false
        | _ => true) }
    (if host.isEmpty then s'.sendFars e i { x with count := x.count + p.bytes } bad (nodeWrites p.wrs)
    else
      let x := { x with late := host.foldl addLate x.late, lateBytes := x.lateBytes + p.bytes }
      if x.runEnds then s'.sendFars e i x.released bad (x.latePackets ++ nodeWrites p.wrs)
      else s'.sendFars e i x bad (nodeWrites p.wrs)).firstWrite e i

/-- The piece in hand of a command. -/
def State.runOf (s : State) (e : Nat) (x : CmdCtx) : Run := ⟨s, e, x.cmd, x.got, false, x.core.isSome⟩

/-- The next piece of a copy, gather or fill (R112, R115, R122). -/
def State.copyStep (s : State) (e i : Nat) (x : CmdCtx) : State :=
  if x.cmd.runs ≤ x.k then s.setCmd e i { x with outcome := some (0, 0) }
  else match (s.runOf e x).piece x with
    | .ok p => p.done e i x (fun x => x.advance p.units)
    | .error stop => s.engStop e i x stop

/-- The next piece of a source nest read for a routine or a collective: at most one sector or line (R115, R321). -/
def Run.sourcePiece (r : Run) (x : CmdCtx) : Except EngStop (List Byte × Run) := do
  let (a, r) ← r.srcBase x.k
  r.read r.c.ss (a + x.off) (pieceLeft r.c.ss (a + x.off) (r.c.runBytes - x.off))

/-- Output bytes written along the destination nest (R126, R127): at most one sector or line. Output beyond the nest's end starts
at its beginning again (log 107). -/
def Run.outPiece (r : Run) (x : CmdCtx) (out : List Byte) : Except EngStop Piece := do
  let (k, off) := x.dstPos
  let d : Int := r.c.dst + r.c.runOff true k + off
  let n := pieceLeft r.c.ds d (min out.length (r.c.runBytes - off))
  let (ws, r) ← r.prep r.c.ds d (out.take n)
  .ok ⟨n, n, ws, r, .none⟩

/-- The four bytes of its routine image that a stream core's program counter names; none outside the image. What a slot's image leaves
of its 64 KiB reads as zeros (R125; log 66). -/
def State.coreFetch (s : State) (x : CmdCtx) : Option (BitVec 32) :=
  match s.slots.find? (fun p => p.1 == bits x.cmd.aux 15 0) with
  | some (_, image) =>
    if x.regs.pc.toNat < 0x10000 then
      some (BitVec.ofNat 32 (ofBytes ((List.range 4).map (fun j => image.getD (x.regs.pc.toNat + j) 0))))
    else none
  | none => none

/-- The stream core goes on with the bytes that its instruction asked for (R125). -/
def State.coreTakes (s : State) (x : CmdCtx) (bs : Bytes) : CmdCtx :=
  match s.coreFetch x with
  | some w => if x.stepping then { x with regs := Config.coreTook x.regs w bs, stepping := false } else x
  | none => { x with stepping := false }

/-- The stream core's access to device memory: its load's bytes are kept, its store written (R93, R122, R125, R126, R321 to R325;
log 66). -/
def State.coreStep (s : State) (e i : Nat) (x : CmdCtx) (a : CoreAcc) : State :=
  let va := a.addr % 2 ^ 52
  match a.data with
  | none =>
    (match Run.readVirt (a.len + 1) (s.runOf e x) va a.len [] with
      | .ok (bs, r) =>
        r.s.setCmd e i { r.s.coreTakes x bs with core := none, loaded := bs, got := [], poisoned := x.poisoned || r.bad }
      | .error stop => s.engStop e i x stop)
  | some bs =>
    match Run.prepVirt (bs.length + 1) (s.runOf e x) va bs [] with
    | .ok (ws, r) =>
      if ws.all r.s.wrRoom then
        let y := { x with todo := ws.filter (fun w => match w with
          | .far _ _ => false
          | _ => true) }
        let (s', y) := r.s.makeWrites e y ws.length
        s'.sendFars e i { s'.coreTakes y [] with core := none, got := [], todo := [] } false (nodeWrites ws)
      else s
    | .error stop => s.engStop e i x stop

/-- The next step of a routine's streams: an access of the stream core's own, published output written, then input read while the
ring has room (R125, R126). Its output is good data whatever its input was (log 112). -/
def State.routineStep (s : State) (e i : Nat) (x : CmdCtx) : State :=
  if let some a := x.core then s.coreStep e i x a
  else if x.ringOut ≠ [] then
    match (s.runOf e x).outPiece x x.ringOut with
    | .ok p => p.done e i x (fun x => { x with ringOut := x.ringOut.drop p.units })
    | .error stop => s.engStop e i x stop
  else if x.ended then s.setCmd e i { x with outcome := some (0, 0) }
  else if x.k < x.cmd.runs ∧ x.ringIn.length + 64 ≤ 32768 then
    match (s.runOf e x).sourcePiece x with
    | .ok (bs, r) =>
      r.s.setCmd e i { x.advanceBytes bs.length with got := [], ringIn := x.ringIn ++ bs, poisoned := x.poisoned || r.bad }
    | .error stop => s.engStop e i x stop
  else s

/-- A contribution sent to every other rank; none where one cannot be reached (R127, R436). -/
def State.sendParts (s : State) (e : Nat) (x : CmdCtx) (g : Group) : Option State :=
  (List.range g.nodes.length).foldl (fun (r : Option State) i =>
    r.bind (fun s => if i = g.rank then some s
      else s.sendNode (g.nodes.getD i 0) 8 x.poisoned [e, x.cmd.seq, g.index, g.rank, i, x.mine.length, ofBytes x.mine])) (some s)

/-- The next step of a collective: the contribution read, sent, awaited from every rank, and the result written (R127). -/
def State.collectiveStep (s : State) (e i : Nat) (x : CmdCtx) : State :=
  match s.groupOf x.cmd with
  | none => s.setCmd e i { x with outcome := some (5, 0) }
  | some g =>
    if x.k < x.cmd.runs then
      match (s.runOf e x).sourcePiece x with
      | .ok (bs, r) => r.s.setCmd e i { x.advanceBytes bs.length with got := [], mine := x.mine ++ bs, poisoned := x.poisoned || r.bad }
      | .error stop => s.engStop e i x stop
    else if !x.sent then
      match s.sendParts e x g with
      | some s => s.setCmd e i { x with sent := true }
      | none => s.setCmd e i { x with outcome := some (5, 0) }
    else match x.allParts g with
      | none => s
      | some parts =>
        let (out, fl) := collectiveResult x.cmd g parts
        if out.length ≤ x.sofar ∨ x.cmd.runs * x.cmd.runBytes ≤ x.sofar then
          s.setCmd e i { x with flags := fl, outcome := some (0, 0) }
        else match (s.runOf e x).outPiece x (out.drop x.sofar) with
          | .ok p => Piece.done { p with r := { p.r with bad := p.r.bad || x.poisoned } } e i x id
          | .error stop => s.engStop e i x stop

/-- What a routine finds in a0, a1 and a2: the input bytes, the output bytes of the destination nest, and aux[51:16] (R126). -/
def Cmd.routineArgs (c : Cmd) : List Word :=
  if c.op = 3 then [BitVec.ofNat 64 (c.runs * c.runBytes), BitVec.ofNat 64 (c.runs * c.runBytes), BitVec.ofNat 64 (bits c.aux 51 16)]
  else []

/-- A command that starts; a routine's core stands at the start of its image with its arguments in a0, a1 and a2 (R126; log 66). -/
def CmdCtx.start (x : CmdCtx) (clk : Nat) : CmdCtx :=
  let args := x.cmd.routineArgs
  { x with
    started := true, idle := clk, args := args
    regs := { CoreRegs.zero with x := ((vset (vset (vset CoreRegs.zero.x 10 (args.getD 0 0)) 11 (args.getD 1 0)) 12 (args.getD 2 0))) } }

/-- The place of the command that has the datapath: the first in acceptance order that is neither parked, ended nor
waiting for an answer (R112, R122). -/
def Engine.active (g : Engine) : Nat :=
  g.ctxs.findIdx (fun x => x.tok.isNone && x.outcome.isNone)

/-- ENGINE_COMMAND_START (R112, R115, R117, R118, R122, R126, R127): the command that has the datapath starts, or goes on
with its next piece. -/
def execEngineCommandStart (e : Nat) (s : State) : Out :=
  .next (
    let i := (s.eng e).active
    match s.cmdAt e i with
    | none => s
    | some x =>
      if x.asked ≠ 0 then s
      else if x.cmd.det.isSome && isLocal x.cmd.ds && addrBrick x.cmd.dst != x.cmd.brick then
        s.setCmd e i { x with outcome := some (2, 0xA) }
      else if x.todo ≠ [] then s.firstWrite e i
      else
        let x := if x.started then x else x.start s.clk
        match x.cmd.op with
        | 3 => s.routineStep e i x
        | 4 => s.collectiveStep e i x
        | _ => s.copyStep e i x)

/-! ## Queues (R112, R116, R216) -/

/-- Whether an engine takes commands into its queue (R112, R216). -/
def Engine.takes (g : Engine) : Bool :=
  decide (g.queue.length < 64) && !(decide (4 ≤ g.ctxs.length) && g.ctxs.all (fun x => x.tok.isSome))

/-- A command put in its engine's queue. -/
def State.give (s : State) (c : Cmd) : State :=
  let g := s.eng c.eng
  s.setEng c.eng { g with queue := g.queue ++ [c] }

/-- A command that dome firmware submits through its dome, of no brick and no task: engine, context and its 64 bytes (R111,
R113). -/
def State.firmware (s : State) (e ctx : Nat) (raw : BitVec 512) : State :=
  let c : Cmd := { raw := raw, eng := e, brick := 768, tid := 0, ctx := ctx, firm := true, det := none, seq := s.cmdSeq }
  if decide (e < 34) && s.power == .on && (s.eng e).takes then { s.give c with cmdSeq := s.cmdSeq + 1 } else s

/-- PUSH_BUFFER_DRAIN (R216, R386): the first command of the brick, those that the dome took over first, goes to its
engine. -/
def execPushBufferDrain (s : State) : Out :=
  .next (match s.passed.find? (fun c => c.brick == s.b.bid) with
    | some c => if (s.eng c.eng).takes then State.give { s with passed := s.passed.erase c } c else s
    | none =>
      match s.b.push with
      | [] => s
      | c :: rest => if (s.eng c.eng).takes then (s.onB (fun b => { b with push := rest })).give c else s)

/-- ENGINE_COMMAND_ACCEPT (R112, R116): a queue entry with an uncorrectable error completes with status 1 (R142). -/
def execEngineCommandAccept (e : Nat) (s : State) : Out :=
  .next (
    let g := s.eng e
    match g.queue with
    | [] => s
    | c :: rest =>
      if 4 ≤ g.ctxs.length then s
      else
        let (bad, s) := s.arrayError 0x21 (2 + e) 0 c.ctx
        let x := CmdCtx.accepted c (if bad then some (1, 0) else if s.malformed c e then some (3, 0) else if c.stopped then some (5, 0) else none)
        s.setEng e { g with queue := rest, ctxs := g.ctxs ++ [x] })

/-! ## Completion (R119 to R121) -/

/-- The status a command completes with (R87, R121). -/
def CmdCtx.status (x : CmdCtx) : Nat :=
  match x.outcome with
  | some (0, _) => if x.poisoned then 1 else 0
  | some (n, _) => n
  | none => 0

/-- The completion word (R120). -/
def CmdCtx.word (x : CmdCtx) (e : Nat) : Word :=
  let kind := match x.outcome with
    | some (2, k) => k
    | _ => 0
  BitVec.ofNat 64 (x.status + x.flags.toNat * 2 ^ 8 + e * 2 ^ 16 + kind * 2 ^ 28 + min (2 ^ 32 - 1) x.count * 2 ^ 32)

/-- The completion word written in the target's scratchpad, or the issuer's image where R394 says so; not written where
the brick takes no writes (R120, R394, R398). -/
def State.writeCompletion (s : State) (e : Nat) (c : Cmd) (w : Word) : State :=
  let n := addrBrick c.target
  let put := fun (b : Brick) => b.packet 0 (addrOff c.target) (toBytes 8 w.toNat) (engSource e) false
  if s.images.any (fun x => x.task.tid == c.tid && x.image.bid == n) then (s.onImage c.tid put).syncImage c.tid
  else if s.takesWrites (s.brick n) then s.setBrick n (put (s.brick n))
  else s

/-- Whether a completion word has to wait for an operand range of its brick's matrix unit, as every write of an engine does
(R120, R124, R273). -/
def State.wordHeld (s : State) (c : Cmd) : Bool :=
  c.act == 1 && (s.brick (addrBrick c.target)).mxHoldsOther 0 (addrOff c.target) 8

/-- A command's hulls released in its brick's range scoreboard (R124). -/
def State.releaseHulls (s : State) (c : Cmd) : State :=
  let f := fun (b : Brick) => { b with score := b.score.filter (fun h => h.seq != c.scoreSeq) }
  (s.setBrick c.brick (f (s.brick c.brick))).onImage c.tid f

/-- The copy-error report of a command (R121, R371). -/
def copyError (e : Nat) (w : Word) : TrapRec := { plainTrap 7 0 with aux := BitVec.ofNat 32 e, info := w }

/-- Whether a command's act-2 decrement cannot be made now, and what stops it: its record's page, an access of the engine
(R96, R119, R122, R336). -/
def State.undone (s : State) (e : Nat) (x : CmdCtx) : Option EngStop :=
  let c := x.cmd
  if c.act ≠ 2 || x.undec then none
  else match s.xlate (s.engLook e) c.ctx c.target .write false with
    | .error (kind, rc, level, pte) => some (.fault kind rc level pte c.target)
    | .ok _ => none

/-- Step 3 of a completion for act 2: the record's counter falls, and the entry of a task that it readies goes to the engine's tower and
quadrant (R119, R336, R356; log 121). -/
def State.actTwo (s : State) (e : Nat) (x : CmdCtx) : State :=
  let c := x.cmd
  if c.act = 2 ∧ !x.undec then
    (((s.seeWalk (s.engLook e) c.ctx c.target).settleVa c.ctx c.target 64).fillEng e c.ctx c.target).decrement c.ctx c.target (engTower e) (engQuad e)
      (384 * engTower e + 48 * engQuad e) true
  else s

/-- ENGINE_COMMAND_COMPLETE (R119): the steps of a completion in order, after the last of its writes. A command completes behind those
accepted before it, except across a park (R112). -/
def execEngineCommandComplete (e i : Nat) (s : State) : Out :=
  .next (match s.cmdAt e i with
    | none => s
    | some x =>
      if x.todo ≠ [] then s.firstWrite e i
      else if x.outcome.isNone || x.tok.isSome || x.asked ≠ 0 || !((s.eng e).ctxs.take i).all (fun y => y.tok.isSome) || s.wordHeld x.cmd then s
      else match s.undone e x with
        | some stop => s.engStop e i { x with core := none } stop
        | none =>
          let c := x.cmd
          let g := s.eng e
          let s := (s.setEng e { g with ctxs := g.ctxs.eraseIdx i }).releaseHulls c
          let w := x.word e
          let s := if c.act = 1 ∧ c.target < 2 ^ 30 ∧ s.inService (addrBrick c.target) then s.writeCompletion e c w else s
          let s := s.actTwo e x
          if c.act = 3 ∧ c.firm then s
          else s.complete c.tid .cp x.flags (if x.status ≠ 0 ∧ (c.act = 0 ∨ c.act = 2) then some (copyError e w) else none))

/-! ## Routines (R125, R126) -/

/-- The routine that runs on an engine's stream core, with its place; none while its access is under way or parked, when its watchdog does
not run out either (R126; DESIGN CHOICE, log 135). -/
def State.routine (s : State) (e : Nat) : Option (Nat × CmdCtx) :=
  let i := (s.eng e).ctxs.findIdx (fun x => x.cmd.op == 3 && x.started && x.outcome.isNone && x.tok.isNone && x.core.isNone && !x.ended)
  (s.cmdAt e i).map (fun x => (i, x))

/-- An access to device memory: bit 63 set and bits [62:52] zero (R125). -/
def coreDevice (a : CoreAcc) : Bool := decide (a.addr / 2 ^ 52 = 2 ^ 11)

/-- Whether an access lies in a window of a stream core's map (R125). -/
def coreIn (a : CoreAcc) (base size : Nat) : Bool := decide (base ≤ a.addr) && decide (a.addr + a.len ≤ base + size)

/-- An access that is one request: of bytes of one sector (R321). -/
def coreFits (a : CoreAcc) : Bool :=
  decide (1 ≤ a.len) && decide (a.addr % 32 + a.len ≤ 32) && a.data.all (fun d => d.length == a.len)

/-- A load or store of a stream core: its scratch at once, device memory by ENGINE_COMMAND_START, the routine standing still until
then (R125, R126; log 66). -/
def State.coreAccess (s : State) (e : Nat) (a : CoreAcc) : State :=
  match s.routine e with
  | none => s
  | some (i, x) =>
    if !coreFits a then s
    else if coreDevice a then s.setCmd e i { x with core := some a }
    else if coreIn a 0x20000000 0x4000 then
      (match a.data with
        | none => s.setCmd e i { x with loaded := readBytes (s.eng e).scratch (a.addr - 0x20000000) a.len }
        | some bs => s.setEng e { s.eng e with scratch := writeBytes (s.eng e).scratch (a.addr - 0x20000000) bs })
    else s

/-- The flags of a stream core's fflags, in the layout of `nflg` (R125): NV, DZ, OF, UF and NX are bits 4 to 0 of CSR 1. -/
def coreFlags (r : CoreRegs) : Flags :=
  let w := ((r.csr.find? (fun p => p.1 == 1)).map Prod.snd).getD 0
  flagIf (w.getLsbD 4) fInvalid ||| flagIf (w.getLsbD 3) fDivzero ||| flagIf (w.getLsbD 2) fOverflow ||| flagIf (w.getLsbD 1) fUnderflow |||
    flagIf (w.getLsbD 0) fInexact

/-- a0 of a stream core. -/
def CmdCtx.a0 (x : CmdCtx) : Nat := (vget 0 x.regs.x 10).toNat

/-- A routine's end with status 4 and a count (R126); output it has published and the engine has not written is dropped (log 128). -/
def CmdCtx.routineError (x : CmdCtx) (count : Nat) : CmdCtx :=
  { x.ends 4 0 with count := count, flags := x.flags ||| coreFlags x.regs }

/-- Input bytes consumed (R125, R126). -/
def CmdCtx.pop (x : CmdCtx) (clk n : Nat) : CmdCtx :=
  if n ≤ x.ringIn.length then
    { x with ringIn := x.ringIn.drop n, inPos := (x.inPos + n) % 32768, idle := if n = 0 then x.idle else clk }
  else x.routineError x.a0

/-- Free bytes of the output ring (R125). -/
def CmdCtx.outRoom (x : CmdCtx) : Nat := 32768 - x.ringOut.length

/-- Output bytes published (R125, R126). -/
def CmdCtx.publish (x : CmdCtx) (clk : Nat) (data : Bytes) : CmdCtx :=
  if data.length ≤ x.outRoom then
    { x with ringOut := x.ringOut ++ data, outPos := (x.outPos + data.length) % 32768, idle := if data = [] then x.idle else clk }
  else x.routineError x.a0

/-- A routine's `ecall` (R126): the command ends once its published output is written; a nonzero a0, or output that differs from the
destination nest's length, is an error. -/
def CmdCtx.ecall (x : CmdCtx) (a0 : Word) : CmdCtx :=
  if a0 ≠ 0 ∨ x.sofar + x.ringOut.length ≠ x.cmd.runs * x.cmd.runBytes then x.routineError a0.toNat
  else { x with ended := true, flags := x.flags ||| coreFlags x.regs }

/-- STREAM_SBPOP (R125, R126). -/
def execStreamSbpop (e n : Nat) (s : State) : Out :=
  .next (match s.routine e with
    | none => s
    | some (i, x) => s.setCmd e i (x.pop s.clk n))

/-- STREAM_SBPUSH (R125, R126). -/
def execStreamSbpush (e : Nat) (data : Bytes) (s : State) : Out :=
  .next (match s.routine e with
    | none => s
    | some (i, x) => s.setCmd e i (x.publish s.clk data))

/-- ROUTINE_ECALL (R126). -/
def execRoutineEcall (e : Nat) (a0 : Word) (s : State) : Out :=
  .next (match s.routine e with
    | none => s
    | some (i, x) => s.setCmd e i (x.ecall a0))

/-- ROUTINE_WATCHDOG (R126). -/
def execRoutineWatchdog (e : Nat) (s : State) : Out :=
  .next (match s.routine e with
    | none => s
    | some (i, x) => if x.idle + 2 ^ 24 ≤ s.clk then s.setCmd e i (x.routineError x.a0) else s)

/-- STREAM_CORE_TRAP (R126). -/
def execStreamCoreTrap (e : Nat) (mcause : Word) (s : State) : Out :=
  .next (match s.routine e with
    | none => s
    | some (i, x) => s.setCmd e i (x.routineError mcause.toNat))

/-! ## A routine's own code (R125) -/

/-- The standard's causes of a stream core's traps: access faults of a fetch, a load and a store, and an illegal instruction. -/
def coreFault (a : CoreAcc) : Nat := if a.data.isSome then 7 else 5

/-- A byte of the input ring at an offset: one not yet consumed, else what stands there, which the manual leaves open (log 66). -/
def CmdCtx.inByte (x : CmdCtx) (tick o : Nat) : Byte :=
  let k := (o + 32768 - x.inPos) % 32768
  x.ringIn.getD k (Config.ringStale tick o)

/-- The bytes of the output ring that a publication of n bytes takes. -/
def CmdCtx.outBytes (x : CmdCtx) (n : Nat) : Bytes := (List.range n).map (fun j => cget 0 x.ringMem ((x.outPos + j) % 32768))

/-- The ring registers of a stream core: `sbin` and `sbout` are read, `sbpop` and `sbpush` written; any other use is an illegal
instruction (R125). -/
def State.coreCsr (s : State) (x : CmdCtx) (num : Nat) (write : Option Word) : CmdCtx :=
  let took := fun (y : CmdCtx) (bs : Bytes) => if y.outcome.isSome then y else s.coreTakes { y with stepping := true } bs
  match num, write with
  | 0x800, none => took x (toBytes 8 x.ringIn.length)
  | 0x801, none => took x (toBytes 8 x.outRoom)
  | 0x802, some n => took (x.pop s.clk n.toNat) []
  | 0x803, some n =>
    if n.toNat ≤ x.outRoom then took (x.publish s.clk (x.outBytes n.toNat)) [] else x.routineError x.a0
  | _, _ => x.routineError 2

/-- An access of a stream core's instruction by the map of R125. -/
def State.coreMap (s : State) (e i : Nat) (x : CmdCtx) (a : CoreAcc) : State :=
  let took := fun (s : State) (y : CmdCtx) (bs : Bytes) => s.setCmd e i (s.coreTakes { y with stepping := true } bs)
  let image := ((s.slots.find? (fun p => p.1 == bits x.cmd.aux 15 0)).map Prod.snd).getD []
  let fault := s.setCmd e i (x.routineError (coreFault a))
  if a.len = 0 then took s x []
  else if coreDevice a then s.setCmd e i { x with core := some a, stepping := true }
  else match a.data with
    | none =>
      if coreIn a 0 0x10000 then took s x ((List.range a.len).map (fun j => image.getD (a.addr + j) 0))
      else if coreIn a 0x10000000 0x8000 then
        { took s x ((List.range a.len).map (fun j => x.inByte s.tick (a.addr - 0x10000000 + j))) with tick := s.tick + 1 }
      else if coreIn a 0x20000000 0x4000 then took s x (readBytes (s.eng e).scratch (a.addr - 0x20000000) a.len)
      else fault
    | some bs =>
      let bs := (List.range a.len).map (fun j => bs.getD j 0)
      if coreIn a 0x10008000 0x8000 then took s { x with ringMem := writeBytes x.ringMem (a.addr - 0x10008000) bs } []
      else if coreIn a 0x20000000 0x4000 then
        took (s.setEng e { s.eng e with scratch := writeBytes (s.eng e).scratch (a.addr - 0x20000000) bs }) x []
      else fault

/-- The next instruction of a routine (R125, R126; log 66). -/
def State.coreNext (s : State) (e : Nat) : State :=
  match s.routine e with
  | none => s
  | some (i, x) =>
    match s.coreFetch x with
    | none => s.setCmd e i (x.routineError 1)
    | some w =>
      match Config.coreDo x.regs w with
      | .go r => s.setCmd e i { x with regs := r }
      | .access a => s.coreMap e i x { a with data := a.data.map (fun d => (List.range a.len).map (fun j => d.getD j 0)) }
      | .csr num write => s.setCmd e i (s.coreCsr x num write)
      | .ecall => s.setCmd e i (x.ecall (vget 0 x.regs.x 10))
      | .illegal => s.setCmd e i (x.routineError 2)

/-- A routine slot loaded by dome firmware (R126, R441); no content leaves the slot empty. -/
def State.loadSlot (s : State) (slot : Nat) (image : Bytes) : State :=
  let rest := s.slots.filter (fun p => p.1 != slot)
  if decide (s.inServ.routines ≤ slot) || decide (0x10000 < image.length) then s
  else { s with slots := if image = [] then rest else rest ++ [(slot, image)] }

/-! ## Collectives and the host (R127, R429) -/

/-- COLLECTIVE_ABORT (R127): the first collective under way ends with status 5. -/
def State.abortCollective (s : State) (e : Nat) : State :=
  let i := (s.eng e).ctxs.findIdx (fun x => x.cmd.op == 4 && x.outcome.isNone)
  match s.cmdAt e i with
  | some x => s.setCmd e i { x with outcome := some (5, 0), tok := none, asked := 0 }
  | none => s

/-- COLLECTIVE_ABORT (R127). -/
def execCollectiveAbort (e : Nat) (s : State) : Out :=
  .next (
    let t := s.abortCollective e
    { t with toks := t.toks.filter (fun k => match k.who with
        | .engine x seq => !(x == e && !(t.eng e).ctxs.any (fun c => c.cmd.seq == seq && c.tok.isSome))
        | _ => true) })

/-- The device-side line of an answer: that of the destination position, or of the stream core's own access (R86). -/
def CmdCtx.lineAt (x : CmdCtx) : Nat :=
  if let some a := x.core then a.addr % 2 ^ 52 / 64 * 64 else
  let d : Int := x.cmd.dst + x.cmd.runOff true x.k + (x.off * x.cmd.unit : Nat)
  d.toNat % 2 ^ 52 / 64 * 64

/-- An answer of the host or another module reaching a command: data of a read, whose word is made and checked here, or an
acknowledgement (R65, R82, R84). -/
def State.answer (s : State) (e i : Nat) (ok : Bool) (data : Bytes) (bad : Bool) (kind : Nat) : State :=
  match s.cmdAt e i with
  | none => s
  | some x =>
    if x.asked = 0 then s
    else if !ok then
      { s.setCmd e i { x.ends 2 kind with asked := 0, got := [], tok := none, undec := x.outcome.isSome && x.tok.isSome } with
        toks := s.toks.filter (fun t => some t.tok != x.tok) }
    else if x.outcome.isSome || x.tok.isSome then s.setCmd e i { x with asked := x.asked - 1 }
    else if x.reading then
      if data.length = x.want then
        let (s, bad) := match s.mismatch [8] x.cmd.ctx x.lineAt (engTower e) data with
          | some (_, s) => (s, true)
          | none => (s, bad)
        s.setCmd e i { x with asked := 0, got := x.got ++ [(data, bad)] }
      else s
    else s.setCmd e i { x with asked := x.asked - 1 }

/-- HOST_RESPONSE (R423, R429): a read response, an acknowledgement, or a NAK. -/
def execHostResponse (e i : Nat) (ok : Bool) (data : Bytes) (s : State) : Out := .next (s.answer e i ok data false 9)

/-- RETRY_EXHAUSTION (R429). -/
def execRetryExhaustion (e i : Nat) (s : State) : Out := .next (s.answer e i false [] false 9)

end Sys2Proof.Machine
end

