-- ==== Sys2Proof/Machine/Walker.lean ====
section
/-!
DEFINITION. The walkers (R94 to R96, R102, R103), the release of parked accesses (R99, R103, R122, R213, R275, R325,
R424), and invalidation (R105).
-/

namespace Sys2Proof.Machine

open Sys2Proof

/-! ## The tower walker (R94) -/

/-- What an access does to the page it names; none where it names no page by itself (R92). -/
def DevKind.use : DevKind → Option Use
  | .load _ => some .read
  | .tread => some .read
  | .msd _ _ => none
  | .rst _ _ _ => none
  | .marker => none
  | _ => some .write

/-- The comparison of the word of the entry that ends a walk: its level and the entry, where the word is wrong (R84, R95). -/
def State.entryBad (s : State) (tower ctx va : Nat) : Option (Nat × Word × State) :=
  match s.lastEntry ctx va with
  | some (level, a) =>
    match s.mismatch [1, 2, 3] ctx (a / 64 * 64) tower (s.readPhys a 8) with
    | some (p, t) => some (level, s.readEntry a, t.hurt p (a / 64 * 64))
    | none => none
  | none => none

/-- TOWER_WALK (R94, R96, R100, R101, R213): the walk for an access whose turn has come. A leaf that permits it fills the
brick's buffers, unless it is a later step of a chain, and the walker's cache; an access released by a retry walks from
level 3 (R99). An entry that comes with a wrong word comes poisoned (R84, R86, R95). -/
def execTowerWalk (id : Nat) (s : State) : Out :=
  .next (match s.b.op? id with
    | none => s
    | some op =>
      match op.kind.use with
      | none => s
      | some use =>
        if !s.ready s.b op then s
        else
          let later := op.kind.isChain && op.bytes != 0
          let tower := if op.kind.isChain then op.chainTower s.b.bid else towerOf s.b.bid
          let look : Look := ⟨[], if op.isParked then none else some tower⟩
          let s := s.seeWalk look op.ctx op.va
          let w := s.look look op.ctx op.va
          match s.entryBad tower op.ctx op.va with
          | some (level, e, s) => s.opFault look s.b.bid op op.va tower (8, 0, level, e)
          | none =>
            match s.useWalk w op.ctx op.va use false with
            | .ok _ =>
              (if later then s else s.onB (fun b => b.fillData op.ctx w)).fillWalks tower op.ctx op.va
            | .error f => s.opFault look s.b.bid op op.va tower f)

/-! ## The shadow context (R102, R275, R276, R387) -/

/-- The place in the queue of the exposed product whose B a hold waits for: the first one. -/
def Brick.heldAt (b : Brick) : Nat := b.mxq.findIdx (fun op => op.exposed && op.code.isProduct && !op.frozen)

/-- The exposed product whose B a hold waits for. -/
def Brick.heldOp (b : Brick) : Option MxOp := b.mxq[b.heldAt]?

/-- The context whose page a hold misses: its product's, or the task's own for a fetch. -/
def Brick.holdCtx (b : Brick) (h : Hold) : Nat :=
  if h.fetch then b.t.ctx else (b.heldOp.map MxOp.ctx).getD b.t.ctx

/-- The task a hold keeps waiting: the brick's own, or the one that left an exposed product behind. -/
def Brick.holdTid (b : Brick) (h : Hold) : Nat :=
  if h.fetch then b.t.tid else (b.heldOp.map MxOp.tid).getD b.t.tid

/-- The product that a page of B holds stopped at the column of that page's block, with a report (R276). -/
def Brick.stopStream (b : Brick) (va : Nat) (r : TrapRec) : Brick :=
  match b.heldOp with
  | some op => b.setOp b.heldAt (op.stopAt (op.colAtVa va) r)
  | none => b

/-- A hold ended by a fault that is not waited for: a fetch traps its bundle, a product stops (R102, R276). -/
def State.endHold (s : State) (h : Hold) (tok kind : Nat) : State :=
  let s := s.onB (fun b => { b with hold := none })
  if h.fetch then (s.trapNow 0 (fetchFault h.va tok kind)).onB (fun b => { b with iss := Issue.idle })
  else s.onB (fun b => b.stopStream h.va (streamReport h.va tok kind))

/-- A hold that has to give way: the task is saved whole, or a product left behind by a task stops (R102, R103, R387). -/
def State.escalate (s : State) (h : Hold) (tok : Nat) : State :=
  if s.b.running then s.beginSave .park tok
  else (s.dropToken tok).endHold { h with fetch := false } tok 0

/-- A hold ended by a walk's success; a product's next requested page that misses holds the domain in its turn (R102,
R274). -/
def State.releaseHold (s : State) (h : Hold) : State :=
  let s := s.onB (fun b =>
    let w := s.walk (b.holdCtx h) h.va
    { (if h.fetch then b.fillFetch (b.holdCtx h) w else b.fillStream (b.holdCtx h) w) with hold := none })
  if h.fetch then s else s.requestB 0

/-- Whether the task of a hold was killed, or ended by a trap: the product it left behind stops at once (R387). -/
def Brick.holdGone (b : Brick) (tasks : List Task) (h : Hold) : Bool := !b.running && !tasks.any (fun t => t.tid == b.holdTid h)

/-- SHADOW_WALK (R102, R387). -/
def execShadowWalk (s : State) : Out :=
  .next (match s.b.hold with
    | none => s
    | some h =>
      if h.tok.isSome then s
      else
        let ctx := s.b.holdCtx h
        let path := if h.fetch then 2 else 3
        let s := (s.settleTask.seeWalk ⟨[], none⟩ ctx h.va).onB (fun b => b.plant 9 shadowWords)
        match s.resolve ctx h.va (if h.fetch then .fetch else .read) false with
        | .ok _ => s.releaseHold h
        | .error (kind, rc, level, pte) =>
          let w := s.faultTower ⟨[], none⟩ ctx h.va kind (towerOf s.b.bid)
          if !s.faultRoom w then s
          else if kind = 0 then
            let (tok, s) := s.park (.hold s.b.bid (s.b.holdTid h)) h.va
            let s := s.postFault w (faultRecord s.clk pte.toNat tok s.b.bid ctx rc level 0 path h.va)
            let h := { h with tok := some tok }
            let s := s.onB (fun b => { b with hold := some h })
            if rc = 1 || s.b.holdGone s.tasks h then s.escalate h tok else s
          else
            (s.postFault w (faultRecord s.clk pte.toNat 0xFFFF s.b.bid ctx rc level kind path h.va)).endHold h 0xFFFF kind)

/-- PARK_LIMIT (R103, R387). -/
def execParkLimit (s : State) : Out :=
  .next (match s.b.hold with
    | some h =>
      (match h.tok with
        | some tok => if 67200 ≤ h.cycles ∧ s.b.saving = none then s.escalate h tok else s
        | none => s)
    | none => s)

/-! ## Release of parked accesses (R99) -/

/-- A token changed. -/
def State.onToken (s : State) (tok : Nat) (f : Token → Token) : State :=
  { s with toks := s.toks.map (fun t => if t.tok = tok then f t else t) }

/-- A matrix operation that waits on a token changed, on every brick and in every image. -/
def State.onMxTok (s : State) (tok : Nat) (f : MxOp → MxOp) : State :=
  let g := fun (b : Brick) => { b with mxq := b.mxq.map (fun op => if op.tok = some tok then f { op with tok := none } else op) }
  let s := s.mapBricks g
  { s with images := s.images.map (fun x => { x with image := g x.image }) }

/-- A command context that waits on a token changed. -/
def State.onEngTok (s : State) (tok : Nat) (f : CmdCtx → CmdCtx) : State :=
  { s with engs := s.engs.map (fun (e : Engine) =>
      { e with ctxs := e.ctxs.map (fun c => if c.tok = some tok then f { c with tok := none } else c) }) }

/-- The memory of the ring entry a parked ring access was to write, written again (R362). -/
def State.ringRetry (s : State) (tower prio va : Nat) : State :=
  (s.dome tower).rings.foldl (fun s r =>
    if r.prio = prio then
      (let (quota, base) := s.queueWord r.ctx
       match (List.range r.ents.length).find? (fun i => ringVa base quota tower prio (r.head + i) == va) with
       | some i => ((r.ents[i]?).map (fun e => s.spillWrite tower e va)).getD s
       | none => s)
    else s) s

/-- A retry of a parked access, which an aborted one no longer is (R99, R100, R102, R103, R122, R275, R325, R362, R424). -/
def State.retry (s : State) (t : Token) : State :=
  if t.aborted then s
  else match t.who with
  | .dev _ _ => s.onToken t.tok (fun t => { t with released := true })
  | .hold n _ =>
    let b := s.brick n
    if b.hold.any (fun h => h.tok == some t.tok) && b.saving.isNone then
      ((s.dropToken t.tok).setBrick n { b with hold := b.hold.map (fun h => { h with tok := none }) })
    else s.onToken t.tok (fun t => { t with released := true })
  | .mx _ _ => (s.dropToken t.tok).onMxTok t.tok id
  | .engine _ _ => (s.dropToken t.tok).onEngTok t.tok id
  | .det _ _ _ => s.dropToken t.tok
  | .ring tower prio => (s.dropToken t.tok).ringRetry tower prio t.va
  | .port port qp => (s.dropToken t.tok).portRetry port qp t.tok
  | .packet tower p => s.packetRetry tower t.tok p

/-- FREPL_RETRY (R99). -/
def execFreplRetry (tok : Nat) (s : State) : Out :=
  .next (match s.token tok with
    | some t => s.retry t
    | none => s)

/-- An access of a brick aborted: it completes with kind 0x9 (R99, R213), with those combined behind it (R299); a must-save declaration is
told (R416). -/
def State.abortOp (s : State) (t : Token) (n id : Nat) : State :=
  match (s.brick n).op? id with
  | none => s.dropToken t.tok
  | some op =>
    match op.kind with
    | .msd _ _ => s.onToken t.tok (fun t => { t with aborted := true })
    | k =>
      let report := fun (o : DevOp) => faultReport k.ctr (if o.id = op.id then t.va else o.va) t.tok k.path 9
      match s.treeOf n op with
      | .leaf _ _ _ => (s.dropToken t.tok).putOp n (op.fail (report op))
      | tree => (s.dropToken t.tok).failTree tree 1 9 report

/-- An abort of a parked access, which a retried one no longer is (R99, R102, R103, R122, R276, R325, R424). -/
def State.abort (s : State) (t : Token) : State :=
  if t.released || t.aborted then s
  else match t.who with
  | .dev n id => s.abortOp t n id
  | .hold n _ =>
    let b := s.brick n
    match b.hold with
    | some h =>
      if h.tok == some t.tok && b.saving.isNone then (s.dropToken t.tok).withFocus n (fun s => s.endHold h t.tok 9)
      else s.onToken t.tok (fun t => { t with aborted := true })
    | none => s.onToken t.tok (fun t => { t with aborted := true })
  | .mx _ _ => (s.dropToken t.tok).onMxTok t.tok (fun op => op.stopAt op.nextBlock.2 (streamReport t.va t.tok 9))
  | .engine _ _ => (s.dropToken t.tok).onEngTok t.tok (fun c => { c.ends 2 9 with undec := c.outcome.isSome })
  | .det _ _ _ => s.onToken t.tok (fun t => { t with aborted := true })
  | .ring _ _ => s.dropToken t.tok
  | .port port qp => (s.dropToken t.tok).portAbort port qp t.tok
  | .packet _ p => s.packetAbort t.tok p

/-- FREPL_ABORT (R99). -/
def execFreplAbort (tok : Nat) (s : State) : Out :=
  .next (match s.token tok with
    | some t => s.abort t
    | none => s)

/-! ## Invalidation (R105) -/

/-- The range a `tlbinv` value names: context, first address and length (R426). -/
def invRange (v : Word) : Nat × Nat × Nat :=
  let n := match fld v 62 60 with
    | 0 => 4096
    | 1 => 65536
    | 2 => 2 ^ 21
    | 3 => 2 ^ 30
    | _ => 2 ^ 52
  (fld v 15 0, fld v 55 16 * 4096 / n * n, n)

/-- Whether a cached translation overlaps a range. -/
def TlbEnt.inRange (e : TlbEnt) (r : Nat × Nat × Nat) : Bool := e.ctx == r.1 && overlaps e.va e.size r.2.1 r.2.2

/-- TLBINV (R105, R426): the request is taken and its done bit cleared; a reserved size has no effect. -/
def execTlbinv (tower : Nat) (val : Word) (s : State) : Out :=
  .next (
    if 4 < fld val 62 60 then s
    else s.setDome tower { s.dome tower with tlbReq := some val, tlbDone := false })

/-- Whether a request of a tower reaches a tower: its own, or the module's (R426). -/
def invReaches (tower : Nat) (val : Word) (t : Nat) : Bool := bit val.toNat 63 || t == tower % 2

/-- Whether an access that used a translation of the range is still on its way: at a slice's queue or another module
(R105). -/
def DevOp.usesRange (op : DevOp) (r : Nat × Nat × Nat) : Bool :=
  op.ctx == r.1 && Machine.overlaps op.va (max 1 op.len) r.2.1 r.2.2 && (op.stage == .queued || op.isRemote)

/-- Whether a command of the range's context has accesses under way that used its translations: they wait for another module's answer,
or are writes still to be made (R105). -/
def CmdCtx.usesRange (c : CmdCtx) (r : Nat × Nat × Nat) : Bool :=
  c.cmd.ctx == r.1 && ((decide (0 < c.asked) && !c.nodes.isEmpty) || !c.todo.isEmpty)

/-- Whether an engine belongs to the scope of a request of a tower (R93, R426). -/
def engReached (tower : Nat) (v : Word) (e : Nat) : Bool := invReaches tower v (if e < 32 then e / 16 else e - 32)

/-- TLBINV_DONE (R105): no access that used a translation of the range is on its way, and the buffers and walk caches of the
scope hold the range no more, nor do the pages that a product keeps for its B (R93, R274). -/
def execTlbinvDone (tower : Nat) (s : State) : Out :=
  .next (match (s.dome tower).tlbReq with
    | none => s
    | some v =>
      let r := invRange v
      let here := fun (b : Brick) => invReaches tower v (towerOf b.bid)
      if s.allBricks.any (fun b => here b && b.dev.any (fun op => op.usesRange r)) then s
      else if (List.range 34).any (fun e => engReached tower v e && (s.eng e).ctxs.any (fun c => c.usesRange r)) then s
      else
        let keep := fun (l : List TlbEnt) => l.filter (fun e => !e.inRange r)
        let s := s.mapBricks (fun b => if here b then ({ b with itlb := keep b.itlb, dtlb := keep b.dtlb, stlb := keep b.stlb, tlb := keep b.tlb } : Brick).dropPages
          (fun ctx page => ctx == r.1 && overlaps (4096 * page) 4096 r.2.1 r.2.2) else b)
        let s := { s with engs := Vector.ofFn (fun (i : Fin 34) =>
          let e : Engine := s.engs[i]
          if engReached tower v i.val then { e with tlb := keep e.tlb, coreTlb := keep e.coreTlb } else e) }
        let s := [0, 1].foldl (fun s t =>
          if invReaches tower v t then s.setDome t { s.dome t with walks := keep (s.dome t).walks } else s) s
        s.setDome tower { s.dome tower with tlbReq := none, tlbDone := true })

end Sys2Proof.Machine
end

