-- ==== Sys2Proof/Machine/Domes.lean ====
section
/-!
DEFINITION. Dome registers (R426), the power manager's events (R110, R400 to R405), and the ends of gating and ungating
(R396, R397).
-/

namespace Sys2Proof.Machine

open Sys2Proof

/-! ## Dome registers (R426) -/

/-- The value a dome register reads as; none for a number with no readable register. -/
def State.domeReg (s : State) (tower num : Nat) : Option Word :=
  let d := s.dome tower
  if num = 1 then some (ofBool d.tlbDone)
  else if num = 3 then some d.shbase
  else if num = 4 then some (BitVec.ofNat 64 d.acthr)
  else if num = 6 then some (BitVec.ofNat 64 d.twarn)
  else if num = 7 then some (BitVec.ofNat 64 d.tcrit)
  else if num = 8 then some (BitVec.ofNat 64 d.cwin)
  else if num = 9 then some (BitVec.ofNat 64 d.tslice)
  else if num = 0xA then some (BitVec.ofNat 64 d.gslice)
  else if num = 0xB then some (BitVec.ofNat 64 d.gskew)
  else if 0x10 ≤ num ∧ num ≤ 0x17 then some (BitVec.ofNat 64 (vget 0 d.dbud (num - 0x10)))
  else if 0x20 ≤ num ∧ num ≤ 0x2F then some (vget 0 d.gang (num - 0x20))
  else none

/-- A dome register of an error log as firmware finds it: from 0x1000 on, the two halves of each log by array and instance (R143; the
numbers are the model's, log 125). -/
def State.logReg (s : State) (num : Nat) : Option Word :=
  if 0x1000 ≤ num then
    some (BitVec.ofNat 64 ((cget 0 s.logs ((num - 0x1000) / 2)).toNat / 2 ^ (64 * (num % 2))))
  else none

/-- A write of such a register by firmware: of zero, it clears the log (R143; log 125). -/
def State.writeLog (s : State) (num : Nat) (v : Word) : State :=
  if 0x1000 ≤ num ∧ v = 0 then { s with logs := cset 0 s.logs ((num - 0x1000) / 2) 0 } else s

/-- A `gang` register as it is kept: its reserved bits are zero (R5, R365). -/
def gangWord (v : Word) : Word := BitVec.ofNat 64 (fld v 63 63 * 2 ^ 63 + fld v 47 16 * 2 ^ 16)

/-- A dome register without an action of its own written; its reserved bits are ignored (R5, R426). -/
def Dome.write (d : Dome) (num : Nat) (v : Word) : Dome :=
  if num = 3 then { d with shbase := BitVec.ofNat 64 (fld v 41 16 * 2 ^ 16) }
  else if num = 4 then { d with acthr := fld v 15 0 }
  else if num = 6 then { d with twarn := fld v 7 0 }
  else if num = 7 then { d with tcrit := fld v 7 0 }
  else if num = 8 then { d with cwin := fld v 3 0 }
  else if num = 9 then { d with tslice := fld v 31 0 }
  else if num = 0xA then { d with gslice := fld v 31 0 }
  else if num = 0xB then { d with gskew := fld v 31 0 }
  else if 0x10 ≤ num ∧ num ≤ 0x17 then { d with dbud := vset d.dbud (num - 0x10) (fld v 15 0) }
  else if 0x20 ≤ num ∧ num ≤ 0x2F then { d with gang := vset d.gang (num - 0x20) (gangWord v) }
  else d

/-- DOME_REGISTER_WRITE (R143, R426). -/
def execDomeRegisterWrite (tower num : Nat) (val : Word) (s : State) : Out :=
  .next ((s.setDome tower ((s.dome tower).write num val)).writeLog num val)

/-- A brick asked to leave its task (R385, R426). -/
def State.askPreempt (s : State) (tower : Nat) (val : Word) : State :=
  let n := fld val 9 0
  if n < 768 ∧ towerOf n = tower % 2 ∧ s.inService n then s.setBrick n { s.brick n with preq := true } else s

/-- PREQ (R385, R426). -/
def execPreq (tower : Nat) (val : Word) (s : State) : Out := .next (s.askPreempt tower val)

/-- Every access counter of a tower cleared (R108). -/
def State.clearCounters (s : State) (tower : Nat) : State :=
  { s with acnt := s.acnt.filter (fun e => paTower (e.1 / 4 * 65536) != tower % 2) }

/-- ACTCLR (R108, R426). -/
def execActclr (tower : Nat) (s : State) : Out := .next (s.clearCounters tower)

/-! ## Throttling (R110, R404, R405) -/

/-- A throttle notice for the context of a running brick whose step has fallen (R405). -/
def State.notice (s : State) (n : Nat) : State :=
  let b := s.brick n
  if b.running then { s with notices := addOnce b.t.ctx s.notices } else s

/-- A brick's thermal step set (R110, R405). -/
def State.setStepN (s : State) (n x : Nat) : State :=
  let b := s.brick n
  if b.stepN = x then s
  else
    let t := s.setBrick n { b with stepN := x }
    if x < b.stepN then t.notice n else t

/-- A brick's budget step set (R404, R405). -/
def State.setStepD (s : State) (n x : Nat) : State :=
  let b := s.brick n
  if b.stepD = x then s
  else
    let t := s.setBrick n { b with stepD := x }
    if x < b.stepD then t.notice n else t

/-- The thermal step after a sample (R110). -/
def thermalStep (d : Dome) (deg n : Nat) : Nat :=
  if d.tcrit ≤ deg then 1
  else if d.twarn ≤ deg then max (n - 1) 1
  else if deg + 3 < d.twarn then min (n + 1) 8
  else n

/-- THERMAL_SAMPLE (R110): a stack's temperature in whole °C. The record of a critical sample waits for room in the fault
queue (R99). -/
def execThermalSample (stack deg : Nat) (s : State) : Out :=
  .next (
    if 12 ≤ stack || !s.inServ.hbm.getLsbD stack then s
    else
      let tower := stack / 6
      let d := s.dome tower
      let crit := decide (d.tcrit ≤ deg)
      if crit && !s.faultRoom tower then s
      else
        let s := if crit then
            s.postFault tower
              (faultRecord s.clk 0 0xFFFF (0x460 + tower) 0xFFFF 0 0 0xF 0xF (stack + deg % 256 * 2 ^ 8))
          else s
        (stackBricks stack).foldl (fun s n => s.setStepN n (thermalStep d deg (s.brick n).stepN)) s)

/-- The 48 bricks of a domain (R395). -/
def domainNumbers (d : Nat) : List Nat :=
  (List.range 48).map (fun i => 384 * (d / 8) + 192 * (d / 4 % 2) + 48 * (d % 4) + i)

/-- Cost of what a domain's undeclared bricks triggered in the window (R404). -/
def State.windowCost (s : State) (d : Nat) : Nat :=
  ((s.domainBricks d).map (fun b => if b.cls.isNone then (b.hiCls.map classCost).getD 0 else 0)).sum

/-- The budget step after a window (R404). -/
def budgetStep (sum dbud d : Nat) : Nat :=
  if dbud < sum then max (d - 1) 1 else if 8 * sum < 7 * dbud then min (d + 1) 8 else d

/-- Whether a domain's window has lasted its 8,192 cycles (R404). -/
def State.windowOver (s : State) (d : Nat) : Bool := decide ((s.domain d).winAt + 8192 ≤ s.clk)

/-- BUDGET_WINDOW (R404): the window of a domain ends, and the next begins. -/
def execBudgetWindow (d : Nat) (s : State) : Out :=
  .next (
    if 16 ≤ d || !s.windowOver d then s
    else
      let s := s.setDomain d { s.domain d with winAt := s.clk }
      let sum := s.heldSum d + s.windowCost d
      let dbud := s.dbud d
      let s := (domainNumbers d).foldl (fun s n =>
        let b := s.brick n
        if b.cls.isNone then s.setStepD n (budgetStep sum dbud b.stepD) else s) s
      s.mapBricks (fun b => if domainOf b.bid = d then { b with hiCls := none } else b))

/-! ## Grants (R401, R403) -/

/-- The first request of a domain's grant queue. -/
def State.headGrant (s : State) (d : Nat) : Option Grant :=
  (s.dome (d / 8)).grants.find? (fun g => domainOf g.brick == d)

/-- POWER_GRANT (R401, R403): the first request of a domain is granted when it fits the budget. -/
def execPowerGrant (d : Nat) (s : State) : Out :=
  .next (match s.headGrant d with
    | none => s
    | some g =>
      let b := s.brick g.brick
      if s.dbud d < s.heldSum d - b.heldCost + classCost g.cls then s
      else
        let w := d / 8
        (s.setDome w { s.dome w with grants := (s.dome w).grants.erase g }).setBrick g.brick
          { b with cls := some g.cls, grant := some true, stepD := 8 })

/-! ## Gating (R396, R397) -/

/-- A brick whose power is cut: what it held is gone; what its departed tasks have in flight completes elsewhere
(R395). -/
def Brick.unpowered (b : Brick) : Brick :=
  { Brick.reset b.bid with
    dev := b.dev, nextId := b.nextId, clk := b.clk, hiCls := b.hiCls, stepN := b.stepN, stepD := b.stepD, preq := b.preq }

/-- Whether the resident work of a gating domain has left it, and the members elsewhere of the teams that it held are saved (R396,
R387). -/
def State.domainClear (s : State) (d : Nat) : Bool :=
  (s.domainBricks d).all (fun b => !b.running && b.saving.isNone && b.mxq.isEmpty && b.push.isEmpty) &&
  s.allBricks.all (fun b => !b.running || !s.images.any (fun x => x.home && domainOf x.image.bid == d && x.task.teamWith b.t))

/-- DOMAIN_GATED (R396). -/
def execDomainGated (d : Nat) (s : State) : Out :=
  .next (
    if d < 16 ∧ (s.domain d).state = 1 ∧ s.domainClear d then
      let s := s.setDomain d { s.domain d with state := 2 }
      s.mapBricks (fun b => if domainOf b.bid = d then b.unpowered else b)
    else s)

/-- DOMAIN_POWER_RETURN (R132, R397). -/
def execDomainPowerReturn (d : Nat) (s : State) : Out :=
  .next (
    if d < 16 ∧ (s.domain d).state = 3 ∧ (s.domain d).returns ≤ s.clk then
      let s := s.mapBricks (fun b => if domainOf b.bid = d then b.unpowered else b)
      (s.setDomain d { s.domain d with state := 0 }).drainRequests d
    else s)

end Sys2Proof.Machine
end

