-- ==== Sys2Proof/Machine/Waits.lean ====
section
/-!
DEFINITION. Counted waits and the ends of a task's run (R189 to R196).
-/

namespace Sys2Proof.Machine

open Sys2Proof

/-- The counter of a `wait` (R191). -/
def waitCtr : Nat → Ctr
  | 0 => .ld
  | 1 => .st
  | 2 => .cp
  | _ => .mx

/-- The first pending report that a wait covers, removed from the pending ones (R193). -/
def takeReport (covers : Ctr → Bool) : List Report → Option (Report × List Report)
  | [] => none
  | r :: rest =>
    if covers r.ctr then some (r, rest)
    else match takeReport covers rest with
      | some (x, l) => some (x, r :: l)
      | none => none

/-- A wait: a report it covers traps first, unless the task is in its handler; then the condition stalls it (R191 to
R193, R375). -/
def State.waitOn (s : State) (covers : Ctr → Bool) (met : Bool) (wake : Nat) : Out :=
  match (if s.b.y.inh then none else takeReport covers s.b.reports) with
  | some (r, rest) =>
    s.unless true ((s.onB (fun b => { b with reports := rest })).raise 5 r.tr) .next
  | none => s.unless (!met) (s.stallFor .countedWait wake false s.contNow) .next

/-- A wait in a handler that watches `cnt.mx` while the held image holds a queued matrix operation (R451). -/
def State.mxBlocked (s : State) : Bool := s.b.y.inh && s.b.mxq.any MxOp.frozen

/-- `wait` (R191). -/
def execSyWait (gd : Guard) (x : Src) (s : State) : Out :=
  s.guarded gd (fun s =>
    let a := s.src x
    let c := waitCtr (fld a 33 32)
    s.valid (decide (fld a 63 34 ≠ 0)) (fun s =>
      if c == .mx && s.mxBlocked then .next (s.illegal 0xC)
      else s.waitOn (fun d => d == c) (decide (s.b.cnt.get c ≤ fld a 31 0))
        (2 ^ 32 * fld a 33 32 + min (fld a 31 0) 65535)))

/-- `waitall` (R189, R191). -/
def execSyWaitall (gd : Guard) (x : Src) (s : State) : Out :=
  s.guarded gd (fun s =>
    s.valid (decide (s.src x ≠ 0)) (fun s =>
      if s.mxBlocked then .next (s.illegal 0xC)
      else s.waitOn (fun _ => true) (decide (s.b.cnt = ⟨0, 0, 0, 0⟩)) (2 ^ 34)))

/-- `exit` (R189, R194). -/
def execSyExit (gd : Guard) (x : Src) (s : State) : Out :=
  s.guarded gd (fun s =>
    s.valid (decide (s.src x ≠ 0)) (fun s => .next (s.onIss (fun i => { i with leave := some .exit }))))

/-- `yield` or `susp`, which a handler may not use (R189, R449). -/
def State.leaveOp (s : State) (gd : Guard) (x : Src) (f : BitVec 32 → Leave) : Out :=
  s.guarded gd (fun s =>
    let a := s.src x
    s.valid (decide (fld a 63 32 ≠ 0)) (fun s =>
      if s.b.y.inh then .next (s.illegal 0xB)
      else .next (s.onIss (fun i => { i with leave := some (f (a.extractLsb' 0 32)) }))))

/-- `yield` (R195). -/
def execSyYield (gd : Guard) (x : Src) (s : State) : Out := s.leaveOp gd x .yield

/-- `susp` (R196). -/
def execSySusp (gd : Guard) (x : Src) (s : State) : Out := s.leaveOp gd x .susp

end Sys2Proof.Machine
end

