-- ==== Sys2Proof/Machine/Leaving.lean ====
section
/-!
DEFINITION. What follows a task's departure: exit reports (R194, R346, R377), wakes (R192, R224, R332, R335), and saves
by pre-emption (R386 to R392, R403, R409).
-/

namespace Sys2Proof.Machine

open Sys2Proof

/-! ## Exit reports (R194, R377) -/

/-- Whether every store and atomic of a task has been performed, wherever it was issued (R194, R207). -/
def State.storesDone (s : State) (tid : Nat) : Bool :=
  s.allBricks.all (fun b => b.dev.all (fun op => op.tid != tid || op.kind.isLoad || op.done))

/-- Whether every access of a task has come to its end, wherever it was issued: its loads delivered, its stores and atomics performed. -/
def State.accessesDone (s : State) (tid : Nat) : Bool :=
  s.allBricks.all (fun b => b.dev.all (fun op => op.tid != tid || (!op.kind.isLoad && op.done)))

/-- Whether the release of a task's exit is complete: its loads are gone, its stores and atomics are performed, and the
reports of those that failed are recorded (R58, R194, R207, R377). -/
def State.exitReleased (s : State) (tid : Nat) : Bool :=
  s.allBricks.all (fun b => b.dev.all (fun op =>
    op.tid != tid || (!op.kind.isLoad && op.done && !op.hasFailed)))

/-- Whether the exposed matrix operations a task left behind have completed (R387). -/
def State.exposedDone (s : State) (tid : Nat) : Bool :=
  s.allBricks.all (fun b => b.mxq.all (fun op => op.tid != tid || !op.exposed))

/-- The trap-log record of a report that no wait consumed (R377). -/
def Exit.record (e : Exit) (r : Report) : BitVec 256 :=
  ({ r.tr with cause := r.tr.cause + 0x80 } : TrapRec).pack e.pc.toNat e.cbi e.task.ctx e.loop e.pend

/-- An exit's report: its record done, unless a kill came first, its barriers left, its launch told (R194, R335, R346). -/
def State.reportExit (s : State) (e : Exit) (t : Task) : State :=
  let s := t.reports.foldl (fun s r => s.postTrap (towerOf e.brick) (e.record r)) s
  let w := towerOf e.brick
  match s.recIn t.ctx t.recVa [3] with
  | none => s.dropTask t.tid t.launch 0
  | some (pa, r) => ((s.writeRec w t.ctx t.recVa pa (recSet r 6 0 0)).leaveBarriers w t.ctx t.bar).dropTask t.tid t.launch 0

/-- TASK_EXIT_REPORT (R194, R334, R346, R377): once the release of the exit has been performed. -/
def execTaskExitReport (tid : Nat) (s : State) : Out :=
  .next (match s.exits.find? (fun e => e.task.tid == tid) with
    | none => s
    | some e =>
      match s.reg tid with
      | none => { s with exits := s.exits.filter (fun x => x.task.tid != tid) }
      | some t =>
        if s.exitReleased tid && s.exposedDone tid then
          ({ s with exits := s.exits.filter (fun x => x.task.tid != tid) } : State).settleAll.reportExit e t
        else s)

/-! ## Wakes (R192, R224, R332, R335) -/

/-- Whether the wait on a token is over: it names no parked access, or firmware has answered it (R99, R325). -/
def State.tokenOver (s : State) (tok : Nat) : Bool :=
  match s.token tok with
  | some t => t.released || t.aborted
  | none => true

/-- Whether a counted wait is met (R191, R332). -/
def Cnt.meets (c : Cnt) (wake : Nat) : Bool :=
  if bit wake 34 then c == ⟨0, 0, 0, 0⟩ else decide (c.get (waitCtr (bits wake 33 32)) ≤ bits wake 15 0)

/-- Whether a barrier waiter may go on: its generation has advanced, or the barrier is poisoned (R225, R332, R346). -/
def State.barrierWakes (s : State) (ctx : Nat) (w : BarWait) : Bool :=
  w.broken || (match s.readVaNat ctx w.va 16 with
    | some x => bit x 64 || (match w.gen with
        | some g => decide (bits x 127 96 ≠ g.toNat)
        | none => false)
    | none => false)

/-- Whether what a suspended bundle wants has come about on the brick it left, or in its image (R124, R271). -/
def Brick.wantMet (b : Brick) : Want → Bool
  | .none => true
  | .hulls seqs => b.score.all (fun h => !seqs.contains h.seq)
  | .entries n => decide (b.score.length + n ≤ max 4 Config.scoreEntries)
  | .range load space off n => !b.mxHolds load space off n

/-- Whether a wake condition holds for a task that left a brick, or whose image a brick's copy is (R332; log 36). -/
def State.wakeMet (s : State) (t : Task) (b : Brick) (dep : Nat) (reason wake : Nat) : Bool :=
  match reason with
  | 1 => decide (dep = 0)
  | 2 => t.cnt.meets wake
  | 3 => s.tokenOver wake
  | 4 => decide (b.replay.length < 16)
  | 5 => decide (t.cnt.get (waitCtr wake) < 65535)
  | 6 => b.wantMet t.want
  | 7 => decide (b.push.length < 8)
  | 8 => !b.y.wakeQ.isEmpty
  | 9 => ({ b with cnt := t.cnt } : Brick).fenceMet wake
  | 10 => (match t.barWait with
    | some w => s.barrierWakes t.ctx w
    | none => true)
  | 11 => if wake = 0 then decide (b.mxq.length < 4)
    else if wake = 1 then b.mxq.all MxOp.exposed
    else b.wantMet t.want
  | 12 => s.tokenOver wake
  | _ => true

/-- A saved-team entry for the saved members of a task's team that wait for bricks, unless the queues hold one (R344,
R355, R356). -/
def State.queueSaved (s : State) (t : Task) : State :=
  let mates := s.images.filter (fun x => x.task.teamWith t && x.reason == .none && !x.home)
  let va := if t.spawned then t.recVa else t.recVa - 64 * t.member
  let first := ((s.tasks.find? (fun u => u.recVa == va && u.ctx == t.ctx)).map (fun u => towerOf u.brick)).getD t.lead
  let has := fun (d : Dome) =>
    d.hw.any (fun e => e.kind == 2 && e.ctx == t.ctx && e.recVa == va) ||
    d.rings.any (fun r => r.ents.any (fun e => e.kind == 2 && e.ctx == t.ctx && e.recVa == va))
  if mates = [] ∨ has s.dome0 ∨ has s.dome1 then s
  else
    s.enqueue first
      { ctx := t.ctx, seq := 0, cnt := mates.length - 1, kind := 2, quad := 0, prio := t.prio, recVa := va, launch := t.launch
        spawned := t.spawned, made := 0 }

/-- A saved task whose wait is over asks for a brick again (R335, R449); one parked on a translation waits for its own
brick (R103). -/
def State.wakeSaved (s : State) (x : Saved) (t : Task) : State :=
  let b := { x.image with dev := (s.brick t.brick).dev }
  if x.reason == .none || x.reason == .park || !s.wakeMet t b 0 x.reason.code x.wake then s
  else
    ({ s with images := s.images.map (fun y => if y.task.tid = t.tid then { y with reason := .none } else y) } : State).queueSaved t

/-- TASK_WAKE (R335): a suspended task becomes ready, or one saved in its handler asks for a brick. -/
def execTaskWake (tid : Nat) (s : State) : Out :=
  .next (match s.reg tid with
    | none => s
    | some t =>
      let s := s.settleVa t.ctx t.recVa 64
      match s.images.find? (fun x => x.task.tid == tid) with
      | some x => s.wakeSaved x t
      | none =>
        match s.recAt t.ctx t.recVa with
        | none => s
        | some (_, r) =>
          if recState r = 4 ∧ s.wakeMet t (s.brick t.brick) (recDep r) (recReason r) (bits r 163 128) then
            s.makeReady t (towerOf t.brick) (quadOf t.brick)
          else if recState r = 1 ∧ recDep r = 0 then s.makeReady t (towerOf t.brick) (quadOf t.brick)
          else s)

/-! ## Pre-emption (R386, R388 to R392) -/

/-- Whether a task is saved because a member of its team stands on a gating domain (R396), or returns to its brick after
a gang abort (R366). -/
def State.goesHome (s : State) (t : Task) : Bool :=
  s.allBricks.any (fun b => b.running && t.teamWith b.t && decide (s.domState b.bid ≠ 0)) ||
  s.images.any (fun x => x.home && t.teamWith x.task) ||
  s.gangNow.any (fun g => g.aborted && g.prior.contains t.tid)

/-- The brick in focus once its task has been saved: the matrix queue and the scoreboard's entries went with the image
(R386, R408). -/
def Brick.emptied (b : Brick) : Brick := { b.vacate with mxq := [], score := [], dirty := [] }

/-- The saved image of the task in focus, with its slot and generation (R372, R388, R389). -/
def State.imageOf (s : State) (t : Task) (reason : Reason) (wake : Nat) : Saved :=
  { task := t
    image := { s.b with running := false, dirty := [], saving := none, localQ := [], assigned := none, reserved := none,
                        push := [], dev := [], snap := [], ic := [], itlb := [], dtlb := [], stlb := [], tlb := [], preq := false, stall := none, own := [],
                        timer := 0, spTimer := 0, acqTimer := 0, halted := false }
    reason := reason
    wake := wake
    home := s.goesHome t }

/-- What changes of the chains in flight when stores that hold their blocks are saved or restored (R307, R394). -/
def State.moveBlocks (s : State) (f : DevOp → DevOp) : State :=
  s.mapBricks (fun b => if b.dev.any (fun op => op.kind.isChain) then
    { b with dev := b.dev.map (fun op => if op.kind.isChain then f op else op) } else b)

/-- The save of the task in focus (R386 step 6, R392, R403): the image in its slot, the record saved, the brick free. -/
def State.saveTask (s : State) (reason : Reason) (wake : Nat) : State :=
  let slot := s.slotFor s.b.t
  let t := { s.b.capture with nflg := 0, slot := slot, gen := s.b.t.gen + 1 }
  let x := s.imageOf t reason wake
  let fresh := s.b.t.slot.isNone
  let s := s.leaveRec s.b.pc.toNat 5 reason.code wake
  let s := match slot with
    | some n => s.writeImage s.b t.ctx n t.gen.toNat fresh
    | none => s
  let s := s.onReg t.tid (fun _ => t)
  ({ s with images := s.images ++ [x], b := s.b.emptied } : State).moveBlocks (fun op =>
    if op.home = s.b.bid ∧ op.ctx = t.ctx ∧ op.kept = none then { op with kept := some t.tid } else op)

/-- PREEMPT (R386): the drained task is saved; the last member of its team to leave makes the team's entry (R344,
R356). -/
def execPreempt (s : State) : Out :=
  .next (match s.b.saving with
    | none => s
    | some (reason, wake) =>
      if !s.b.running || !s.drained then s
      else
        let t := s.b.t
        let s := s.settleAll.saveTask reason wake
        if s.allBricks.any (fun b => b.running && (b.preq || b.saving.isSome) && t.teamWith b.t) then s
        else match s.reg t.tid with
          | some t => s.queueSaved t
          | none => s)

end Sys2Proof.Machine
end

