-- ==== Sys2Proof/Machine/Sched.lean ====
section
/-!
DEFINITION. From a ready queue to the issue slot: choice and reservations (R357 to R359), dispatch (R132, R157, R360,
R382), restore (R393, R403), recall, refill, balancing and retirement (R358, R362, R364), team slices (R344).
-/

namespace Sys2Proof.Machine

open Sys2Proof

/-! ## Bricks and entries -/

/-- Whether a brick can take a task: it runs none, and nothing of an earlier one is left that has to end first (R387). -/
def Brick.free (b : Brick) : Bool :=
  !b.running && b.saving.isNone && b.hold.isNone && b.r.pipe.isEmpty && b.mxq.all (fun op => !op.exposed) && !b.halted

/-- Whether the dome dispatches onto a brick (R32, R395). -/
def State.usable (s : State) (n : Nat) : Bool := s.power == .on && s.inService n && s.domState n == 0

/-- The registration of the task a record names. -/
def State.taskAt (s : State) (ctx va : Nat) : Option Task := s.tasks.find? (fun t => t.recVa == va && t.ctx == ctx)

/-- Whether a task of another context waits for the wake queue of a brick (R382). -/
def State.keptFor (s : State) (n ctx : Nat) : Bool :=
  s.tasks.any (fun t => t.pin && t.brick == n && t.ctx != ctx)

/-- Whether a task entry may go to a brick: a wake waiter and a bound task return to the brick they left, and none comes back
before its release marker has been performed (R205, R309, R368, R382). -/
def State.eligible (s : State) (n : Nat) (e : QEnt) : Bool :=
  !s.keptFor n e.ctx &&
  (match s.taskAt e.ctx e.recVa with
    | some t => s.storesDone t.tid && (!(t.pin || t.bound) || t.brick == n)
    | none => true)

/-! ## Launches as the queues see them -/

/-- A launch. -/
def State.launch? (s : State) (id : Nat) : Option Launch := s.launches.find? (fun l => l.id == id)

/-- Whether a launch has a die level (R338). -/
def Launch.hasDie (l : Launch) : Bool := (List.range 6).any (fun i => (l.level i).1 == 3)

/-- Whether a launch is bound to a trace (R368). -/
def Launch.bindBit (l : Launch) : Bool := bit l.raw.toNat 45

/-! ## Reservations (R359, R365, R368) -/

/-- The saved tasks that a saved-team entry restores, in member order. -/
def State.savedOf (s : State) (e : QEnt) : List Saved :=
  let mine := fun (x : Saved) => x.task.ctx == e.ctx && x.task.launch == e.launch && x.reason == .none && !x.home &&
    (if e.spawned then x.task.recVa == e.recVa else !x.task.spawned && x.task.recVa == e.recVa + 64 * x.task.member)
  (List.range 768).flatMap (fun j => (s.images.filter mine).filter (fun x => x.task.member == j))

/-- Bricks an entry needs. -/
def State.need (s : State) (e : QEnt) : Nat := if e.kind = 2 then (s.savedOf e).length else e.cnt + 1

/-- The bricks an entry must have, where a trace or a return fixes them, by member (R359, R368). -/
def State.wanted (s : State) (e : QEnt) : Option (List Nat) :=
  match s.launch? e.launch with
  | some l =>
    if l.bindBit then
      some (if e.kind = 2 then (s.savedOf e).map (fun x => x.image.bid)
        else (List.range (e.cnt + 1)).map (fun j =>
          ((l.trace.find? (fun p => p.1 == (e.recVa - l.rbase) / 64 + j)).map Prod.snd).getD 768))
    else none
  | none => none

/-- Whether each member of a bound team is next for its brick (R368). -/
def State.traceReady (s : State) (e : QEnt) : Bool :=
  match s.launch? e.launch with
  | some l =>
    if l.bindBit && e.kind == 1 then
      (List.range (e.cnt + 1)).all (fun j =>
        let x := (e.recVa - l.rbase) / 64 + j
        match l.trace.find? (fun p => p.1 == x) with
        | some p => ((l.trace.find? (fun q => q.2 == p.2)).map Prod.fst) == some x
        | none => false)
    else true
  | none => true

/-- The tasks that an entry dispatches. -/
def State.entryTasks (s : State) (e : QEnt) : List Nat :=
  if e.kind = 2 then (s.savedOf e).map (fun x => x.task.tid)
  else (List.range (e.cnt + 1)).filterMap (fun j => (s.taskAt e.ctx (e.recVa + 64 * j)).map Task.tid)

/-- Whether an entry is the team of a gang slice in force (R365). -/
def State.isGang (s : State) (e : QEnt) : Bool :=
  e.kind != 0 && s.gangNow.any (fun g => !g.aborted && g.ctx == e.ctx && (s.entryTasks e).any (fun t => g.team.contains t))

/-- Whether an entry is the team of an aborted gang slice, which waits for the next start (R366). -/
def State.gangHeld (s : State) (e : QEnt) : Bool :=
  e.kind != 0 && s.gangNow.any (fun g => g.aborted && g.ctx == e.ctx && (s.entryTasks e).any (fun t => g.team.contains t))

/-- The team entry that holds a tower's reservation: a gang team's first; the team of an aborted slice waits for the next start (R359,
R365, R366). -/
def State.holder (s : State) (tower : Nat) : Option QEnt :=
  let d := s.dome tower
  match d.hw.find? s.isGang with
  | some e => some e
  | none => ({ d with hw := d.hw.filter (fun e => !s.gangHeld e) } : Dome).teamEntry

/-- Bricks of a tower in service (R32). -/
def State.towerBricks (s : State) (tower : Nat) : Nat := 384 - (s.inServ.retired.filter (fun n => n / 384 == tower)).length

/-- Whether an entry of a tower makes a module reservation (R359). -/
def State.isModule (s : State) (tower : Nat) (e : QEnt) : Bool :=
  decide (s.towerBricks tower < s.need e) && (s.wanted e).isNone &&
  (match s.launch? e.launch with
    | some l => !l.hasDie
    | none => true)

/-- Whether a tower's module reservation is the one being served: the older of the two (R359); a gang team's stands ahead of every other
(R365). -/
def State.served (s : State) (tower : Nat) (e : QEnt) : Bool :=
  s.isGang e ||
  match s.holder (1 - tower) with
  | some o => !s.isModule (1 - tower) o || (decide (e.made ≤ o.made) && !s.isGang o)
  | none => true

/-- The bricks that an entry's reservation in a tower holds. -/
def State.reservedFor (s : State) (tower : Nat) (e : QEnt) : List Nat :=
  ((s.allBricks.filter (fun b => b.reserved == some (tower, e.made))).map Brick.bid).mergeSort (fun a b => decide (a ≤ b))

/-- Whether a tower's reservation takes a brick of its own tower, or one that a trace or a return names (R359, R368); not one that is
kept for a wake waiter of another context (R382). -/
def State.takesOwn (s : State) (tower : Nat) (e : QEnt) (n : Nat) : Bool :=
  !s.keptFor n e.ctx &&
  match s.wanted e with
  | some l => l.contains n
  | none => towerOf n == tower && decide ((s.reservedFor tower e).length < s.need e) && (!s.isModule tower e || s.served tower e)

/-- Whether a tower's served module reservation, its own tower reserved, takes a brick of the other tower (R359). -/
def State.takesOther (s : State) (tower : Nat) (e : QEnt) (n : Nat) : Bool :=
  !s.keptFor n e.ctx && (s.wanted e).isNone && towerOf n != tower && s.isModule tower e && s.served tower e &&
  decide (s.towerBricks tower ≤ ((s.reservedFor tower e).filter (fun m => towerOf m == tower)).length) &&
  decide ((s.reservedFor tower e).length < s.need e)

/-- The saved teams that return to the bricks they left (R366, R396), once every brick they left is in an active domain. -/
def State.homing (s : State) : List Saved :=
  s.images.filter (fun x => x.home && s.images.all (fun y =>
    !(y.home && y.task.teamWith x.task) || s.domState y.image.bid == 0))

/-- Whether a brick is kept for a saved task that returns to it: a team that goes home, or a task whose translation has
been answered (R103, R366, R396). -/
def State.keptBack (s : State) (n : Nat) : Bool :=
  s.homing.any (fun x => x.image.bid == n) ||
  s.images.any (fun x => x.reason == .park && x.image.bid == n && s.tokenOver x.wake)

/-! ## Choice (R357) -/

/-- What the dome decides for a brick. -/
inductive Choice where
  | reserve (tower made : Nat)
  | take (e : QEnt)
  | none
  deriving DecidableEq, Repr

/-- A tower's reservation where its holder takes a brick. -/
def State.claim (s : State) (tower : Nat) (takes : QEnt → Bool) : Choice :=
  match s.holder tower with
  | some e => if takes e then .reserve tower e.made else .none
  | none => .none

/-- The choice at one priority. -/
def State.chooseAt (s : State) (n p : Nat) : Choice :=
  let w := towerOf n
  let at_ := fun (e : QEnt) => e.prio == p || s.isGang e
  match s.claim w (fun e => at_ e && s.takesOwn w e n) with
  | .none =>
    (match s.claim (1 - w) (fun e => at_ e && (s.wanted e).isSome && s.takesOwn (1 - w) e n) with
      | .none =>
        let d := s.dome w
        (match ({ d with hw := d.hw.filter (s.eligible n) } : Dome).taskEntry p (quadOf n) with
          | some e => .take e
          | none => s.claim (1 - w) (fun e => at_ e && s.takesOther (1 - w) e n))
      | c => c)
  | c => c

/-- The choice for a brick: by strict priority, a returning or gang team before all (R357, R359, R365, R396). -/
def State.choose (s : State) (n : Nat) : Choice :=
  let w := towerOf n
  if s.keptBack n then .none
  else
    ([s.claim w (fun e => s.isGang e && s.takesOwn w e n),
      s.claim (1 - w) (fun e => s.isGang e && s.takesOther (1 - w) e n)] ++
      [3, 2, 1, 0].map (s.chooseAt n)).find? (fun c => c != .none) |>.getD .none

/-- Whether a brick's reservation is one no more: its entry does not hold its tower's reservation, or is a module reservation that is not
being served (R359; log 126). -/
def State.stale (s : State) (b : Brick) : Bool :=
  match b.reserved with
  | some (w, m) =>
    (match s.holder w with
      | some e => e.made != m || (s.isModule w e && !s.served w e)
      | none => true)
  | none => false

/-- Whether a brick was given a saved task that has ended since (R351). -/
def State.dangling (s : State) (b : Brick) : Bool :=
  b.assigned.any (fun e => e.kind == 2 && !s.images.any (fun x => x.task.ctx == e.ctx && x.task.recVa == e.recVa))

/-- BRICK_TAKES_WORK (R357 to R359): a free brick takes the head of its local queue, else what the dome chooses; the local
queue of a running brick is filled ahead of need. -/
def execBrickTakesWork (s : State) : Out :=
  .next (
    let s := if s.stale s.b then s.onB (fun b => { b with reserved := none }) else s
    let s := if s.dangling s.b then s.onB (fun b => { b with assigned := none, cls := none, grant := none }) else s
    let b := s.b
    let w := towerOf b.bid
    if !s.usable b.bid then s
    else if b.running then
      if 8 ≤ b.localQ.length || b.saving.isSome then s
      else match s.choose b.bid with
        | .take e => (s.dropEntry w e).onB (fun b => { b with localQ := b.localQ ++ [e] })
        | _ => s
    else if !b.free || b.assigned.isSome || b.reserved.isSome then s
    else match (if s.keptBack b.bid then none else b.localQ.find? (s.eligible b.bid)) with
      | some e => s.onB (fun b => { b with localQ := b.localQ.erase e, assigned := some e })
      | none =>
        match s.choose b.bid with
        | .take e => (s.dropEntry w e).onB (fun b => { b with assigned := some e })
        | .reserve t m => s.onB (fun b => { b with reserved := some (t, m) })
        | .none => s)

/-! ## Dispatch (R132, R157, R309, R360, R382) -/

/-- The clear before a task of another context (R132), which is a write of every word (R144). -/
def Brick.clearStores (b : Brick) : Brick :=
  let b : Brick := { b with
    loc := Locals.clear, dirty := [], lpois := [], ecc := [], snap := [], ic := []
    y := { b.y with
      tag := Vector.replicate 256 0, thand := 0, wcmp := Vector.replicate 8 0, wlast := Vector.replicate 8 0, wakeQ := []
      arm := Vector.replicate 4 0 } }
  b.injectStores

/-- The accesses still in flight as another task, or the same one anew, takes the brick: no line they bring enters the snapshot
cache any more (R310, R311). -/
def Brick.staleFills (b : Brick) : List DevOp := b.dev.map (fun op => { op with fill := false })

/-- The registers of a task dispatched from its record: those the record carries, the rest zero (R157). -/
def recRegs (r : Nat) (h : Vector Word 16) : Regs :=
  { Regs.reset with
    g := Vector.ofFn (fun (i : Fin 64) => if i.val < 4 then BitVec.ofNat 64 (bits r (319 + 64 * i) (256 + 64 * i)) else 0)
    k := BitVec.ofNat 6 (bits r 7 2)
    h := h }

/-- A task as its record and registration give it (R333, R349). -/
def Task.fromRec (t : Task) (r bid clk : Nat) : Task :=
  { t with
    prio := recPrio r, bar := recBar r, frame := recFrame r, team := recTeam r, member := recMember r
    barWait := none, brick := bid, pin := false, want := .none, since := clk }

/-- A brick that runs a task dispatched from its record (R132, R157, R309, R360, R382). -/
def Brick.start (b : Brick) (t : Task) (r base clk : Nat) : Brick :=
  let b := (if b.lastCtx.isNone || b.lastCtx == some t.ctx then b else b.clearStores).plant 9 regWords
  { b with
    running := true
    t := t.fromRec r b.bid clk
    pc := BitVec.ofNat 32 (recPc r), cbi := recCbi r, codeBase := base
    r := recRegs r b.r.h
    y := { b.y with nflg := t.nflg, tvec := t.tvec, inh := false, trec := Vector.replicate 4 0, held := none }
    cnt := t.cnt, cyc := t.cyc, phase := t.phase, reports := t.reports, barWait := t.barWait
    timer := 0, spTimer := 0, acqTimer := 0, stall := none, own := [], contAt := 0, armTimedOut := false
    snap := [], dev := b.staleFills, hold := none, cls := none, grant := none, saving := none, skip := false
    assigned := none, reserved := none, lastCtx := some t.ctx, clk := max b.clk clk, iss := Issue.idle }

/-- A traced launch's entry for a first dispatch, and a bound launch's place in its trace (R367, R368). -/
def State.traceDispatch (s : State) (t : Task) (va brick : Nat) : State :=
  match s.launch? t.launch with
  | none => s
  | some l =>
    let x := (va - l.rbase) / 64
    if t.spawned then s
    else if l.bindBit then s.onLaunch l.id (fun l => { l with trace := l.trace.filter (fun p => p.1 != x) })
    else if bit l.raw.toNat 44 && !l.trace.any (fun p => p.1 == x) then
      let at_ := bits l.raw.toNat 627 576 + 16 + 8 * l.traced
      (s.writeVa (towerOf brick) t.ctx at_ (toBytes 8 (x % 2 ^ 32 + brick * 2 ^ 54))).onLaunch l.id
        (fun l => { l with trace := l.trace ++ [(x, brick)], traced := l.traced + 1 })
    else s

/-- A dispatch that finds an invalid code-table entry (R335, R376). -/
def State.dispatchFault (s : State) (t : Task) (pa r : Nat) : State :=
  let tr : TrapRec := { plainTrap 0x0F 0 with addr := BitVec.ofNat 64 t.recVa, aux := BitVec.ofNat 32 (recCbi r) }
  let w := towerOf s.b.bid
  let s := (s.writeRec w t.ctx t.recVa pa (recSet r 8 0 0)).poisonBarriers w t.ctx (recBar r)
  (s.postTrap (towerOf s.b.bid) (tr.pack (recPc r) (recCbi r) t.ctx false false)).dropTask t.tid t.launch 1

/-- The chains whose block a brick's stores held, as the brick takes a task of another context: their blocks are gone (R132,
R307); no task has the number 0. -/
def State.loseBlocks (s : State) (ctx : Nat) : State :=
  if s.b.lastCtx = some ctx then s
  else s.moveBlocks (fun op => if op.home = s.b.bid ∧ op.kept = none then { op with kept := some 0 } else op)

/-- An entry dispatched onto the brick in focus (R334, R335, R360, R370): the record is read and set running in one step;
an entry whose record is no longer ready is discarded. -/
def State.dispatch (s : State) (e : QEnt) : State :=
  let w := towerOf s.b.bid
  let s := ((s.onB (fun b => { b with assigned := none, reserved := none })).settleVa e.ctx e.recVa 64).domeSee w e.ctx e.recVa 64
  match s.recAt e.ctx e.recVa, s.taskAt e.ctx e.recVa with
  | some (pa, r), some t =>
    if recState r ≠ 2 then s
    else match s.codeBase e.ctx (recCbi r) with
      | none => s.dispatchFault t pa r
      | some base =>
        let s := s.writeRec w e.ctx e.recVa pa (recSet r 3 0 0)
        let s := s.loseBlocks t.ctx
        let b := s.b.start t r base s.clk
        (({ s with b := b } : State).onReg t.tid (fun _ => b.t)).traceDispatch t e.recVa b.bid
  | _, _ => s

/-- DISPATCH (R360): the entry assigned to the brick in focus. -/
def execDispatch (s : State) : Out :=
  .next (match s.b.assigned with
    | some e => if e.kind = 0 ∧ s.b.free ∧ s.usable s.b.bid then s.dispatch e else s
    | none => s)

/-- A saved member given a brick, which asks again for the class it held (R403). -/
def State.assignSaved (s : State) (x : Saved) (e : QEnt) (n : Nat) : State :=
  let b := s.brick n
  let s := s.setBrick n { b with assigned := some { e with kind := 2, recVa := x.task.recVa }, reserved := none }
  match x.image.cls with
  | some c => s.askClass n x.task.tid c
  | none => s

/-- The entry under which a task returns to the brick it left. -/
def Saved.entry (x : Saved) : QEnt :=
  { ctx := x.task.ctx, seq := 0, cnt := 0, kind := 2, quad := 0, prio := x.task.prio, recVa := x.task.recVa
    launch := x.task.launch, spawned := x.task.spawned, made := 0 }

/-- Whether a brick can be given a member of a context now (R382). -/
def State.open? (s : State) (n ctx : Nat) : Bool :=
  let b := s.brick n
  b.free && b.assigned.isNone && s.usable n && !s.keptFor n ctx

/-- A returning team of a tower all of whose bricks are free (R366, R396). -/
def State.homeTeam (s : State) (tower : Nat) : List Saved :=
  let team := fun (x : Saved) => s.homing.filter (fun y => y.task.teamWith x.task)
  match s.homing.find? (fun x => towerOf x.image.bid == tower && (team x).all (fun y => s.open? y.image.bid y.task.ctx)) with
  | some x => team x
  | none => []

/-- The bricks onto which a holder's members go, once it has them all; a module reservation, only while it is served (R359, R368). -/
def State.teamBricks (s : State) (tower : Nat) (e : QEnt) : Option (List Nat) :=
  let have_ := (s.reservedFor tower e).filter (fun n => s.open? n e.ctx)
  match s.wanted e with
  | some l => if l.all have_.contains && s.traceReady e then some l else none
  | none => if s.need e ≤ have_.length ∧ (!s.isModule tower e || s.served tower e) then some (have_.take (s.need e)) else none

/-- A team's members onto their bricks in one dome step (R343, R359): new members dispatched, saved ones assigned. -/
def State.placeTeam (s : State) (tower : Nat) (e : QEnt) (bs : List Nat) : State :=
  let xs := s.savedOf e
  let s := s.dropEntry tower e
  if e.kind = 2 then
    (xs.zip bs).foldl (fun s p => s.assignSaved p.1 e p.2) s
  else
    ((List.range (e.cnt + 1)).zip bs).foldl (fun s p =>
      s.withFocus p.2 (fun s => s.dispatch { e with kind := 0, cnt := 0, recVa := e.recVa + 64 * p.1 })) s

/-- TEAM_DISPATCH (R343, R359, R367, R368, R396). -/
def execTeamDispatch (tower : Nat) (s : State) : Out :=
  .next (
    let s := s.settleAll
    match s.homeTeam tower with
    | x :: rest => (x :: rest).foldl (fun s y => s.assignSaved y y.entry y.image.bid) s
    | [] =>
      match s.holder tower with
      | none => s
      | some e =>
        if s.need e = 0 then s.dropEntry tower e
        else match s.teamBricks tower e with
          | some bs => s.placeTeam tower e bs
          | none => s)

/-! ## Restore (R103, R335, R384, R393, R403) -/

/-- The words of a queue's entries, written as they stand. -/
def wordsAgain (width n : Nat) : List (Nat × Bool) := (entryWords width 0 n).map (fun w => (w.1, false))

/-- The brick in focus with a saved image on it. What belongs to the brick itself stays; what completed for the task
meanwhile comes from its registration. The image is written word by word into every array (R144). A hold's park
limit counts from 0 again (R103; log 113). -/
def Brick.resume (b img : Brick) (t : Task) (clk : Nat) : Brick :=
  let b : Brick := { img with
    bid := b.bid
    running := true
    t := { t with brick := b.bid, since := clk }
    r := { img.r with h := b.r.h }
    y := { img.y with nflg := img.y.nflg ||| t.nflg, einj := b.y.einj, elog := b.y.elog }
    cnt := t.cnt, cyc := t.cyc, phase := t.phase, reports := t.reports
    timer := 0, spTimer := 0, acqTimer := 0, stall := none, own := []
    ecc := img.ecc.filter (fun e => e.array != 6) ++ b.ecc.filter (fun e => e.array == 6)
    dirty := [], snap := [], ic := b.ic, itlb := b.itlb, dtlb := b.dtlb, stlb := b.stlb, tlb := b.tlb
    hiCls := b.hiCls, hold := img.hold.map (fun h => { h with tok := none, cycles := 0 })
    dev := b.staleFills, landing := b.landing, nextId := b.nextId, push := b.push
    score := b.score ++ img.score.filter (fun h => img.bid == b.bid || h.seq % 2 == 1)
    mxq := b.mxq ++ img.mxq
    spFreed := [], grant := none, stepN := b.stepN, stepD := if img.cls.isSome then 8 else b.stepD
    halted := b.halted, preq := b.preq, saving := none, localQ := b.localQ, assigned := none, reserved := none
    lastCtx := some t.ctx, clk := max b.clk clk, iss := Issue.idle }
  ((b.injectStores.plant 9 (regWords.map (fun w => (w.1, false)))).plant 10 (wordsAgain 32 b.spq.length)).plant 11
    (wordsAgain 1 b.y.wakeQ.length)

/-- A restore that fails ends the task (R376, R393). -/
def State.restoreFault (s : State) (x : Saved) (t : Task) (addr : Nat) : State :=
  let s := match s.recIn t.ctx t.recVa [5] with
    | some (pa, r) => s.writeRec (towerOf s.b.bid) t.ctx t.recVa pa (recSet r 3 0 0)
    | none => s
  let s := s.onB (fun b => { b with
    running := true, t := t, pc := x.image.pc, cbi := x.image.cbi, assigned := none, reserved := none
    r := { b.r with lp := x.image.r.lp, br := x.image.r.br } })
  s.endFaulted { plainTrap 0x0D 2 with addr := BitVec.ofNat 64 addr }

/-- A task saved at its park limit once its token has been answered: an abort is delivered after the restore (R103). -/
def State.afterPark (s : State) (x : Saved) : State :=
  if x.reason == .park then
    match s.token x.wake, s.b.hold with
    | some t, some h =>
      let s := s.dropToken x.wake
      if t.aborted then s.endHold h x.wake 9 else s
    | _, _ => s
  else s

/-- A slot's image as the slices see it read (R67, R84, R108). -/
def State.seeImage (s : State) (tower ctx slot : Nat) : State :=
  let base := s.slotVa ctx slot
  let s := s.seeVaAll tower ctx 3 base 128
  (List.range 405).foldl (fun s i =>
    if bit (s.presentBits ctx slot) i then s.seeVaAll tower ctx 67 (base + 128 + 4128 * i) 4128 else s) s

/-- The image of a saved task onto the brick in focus (R393): checked, read back from its slot, and resumed; a record that is not saved
stays as it is (R335). -/
def State.restore (s : State) (x : Saved) (t : Task) : State :=
  let w := towerOf s.b.bid
  let s := match x.task.slot with
    | some n => s.settleAll.seeImage w t.ctx n
    | none => s
  match (match x.task.slot with
      | some n => (s.readImage t.ctx n).map (fun gs => x.image.loadImage gs)
      | none => .ok x.image) with
  | .error a => s.restoreFault x t a
  | .ok img =>
    let b := s.b.resume img { t with slot := x.task.slot, gen := x.task.gen } s.clk
    let s := s.settleVa t.ctx t.recVa 64
    let s := match s.recIn t.ctx t.recVa [5] with
      | some (pa, r) => s.writeRec w t.ctx t.recVa pa (recSet r 3 0 0)
      | none => s
    let s := ({ s with b := b, images := s.images.filter (fun y => y.task.tid != t.tid) } : State).moveBlocks (fun op =>
      if op.kept = some t.tid then { op with home := b.bid, kept := none } else op)
    (s.onReg t.tid (fun _ => b.t)).afterPark x

/-- Whether a stopped chain has yet to write its header into a saved task's image (R394). -/
def State.headerPending (s : State) (tid : Nat) : Bool :=
  s.allBricks.any (fun b => b.dev.any (fun op => op.kept == some tid && op.hasFailed))

/-- Whether a saved task's own operations have yet to write the stores of the brick it left: a command that it gave, with a completion
word there or entered in that brick's scoreboard (R386, R394). -/
def State.writesPending (s : State) (x : Saved) : Bool :=
  let n := x.image.bid
  let mine := fun (c : Cmd) => c.tid == x.task.tid && ((c.act == 1 && addrBrick c.target == n) ||
    x.image.score.any (fun h => h.seq == c.scoreSeq))
  s.engs.any (fun (e : Engine) => e.queue.any mine || e.ctxs.any (fun c => mine c.cmd)) || s.passed.any mine

/-- Whether a saved task may come onto the brick in focus: it has been given the brick, or its translation is answered and
this is the brick it left (R103, R359). Onto another brick it comes once the accesses and writes that it left behind are done, so that
what it reads there is no older than what they bring (R309, R310, R394; log 127). -/
def State.mayRestore (s : State) (x : Saved) : Bool :=
  (if x.reason == .park then s.tokenOver x.wake && x.image.bid == s.b.bid && s.b.assigned.isNone
   else s.b.assigned.any (fun e => e.kind == 2 && e.ctx == x.task.ctx && e.recVa == x.task.recVa)) &&
  s.b.free && s.usable s.b.bid && !s.keptFor s.b.bid x.task.ctx &&
  (x.task.brick == s.b.bid || (s.accessesDone x.task.tid && !s.writesPending x)) &&
  (x.image.cls.isNone || s.b.grant == some true) && !s.headerPending x.task.tid

/-- RESTORE (R393): of a task, onto the brick in focus. A task that returns to its own brick after a park asks for its
class first (R103, R403). -/
def execRestore (tid : Nat) (s : State) : Out :=
  .next (match s.images.find? (fun x => x.task.tid == tid), s.reg tid with
    | some x, some t =>
      if s.mayRestore x then s.restore x t
      else if x.reason == .park && s.tokenOver x.wake && x.image.bid == s.b.bid && x.image.cls.isSome && s.b.free &&
          s.b.grant.isNone && !(s.dome (towerOf s.b.bid)).grants.any (fun g => g.tid == tid) then
        s.askClass s.b.bid tid (x.image.cls.getD 0)
      else s
    | _, _ => s)

/-! ## Recall, refill, balancing, retirement (R358, R362, R364) -/

/-- LOCAL_QUEUE_RECALL (R358, R370): local entries below the highest priority ready for the brick's quadrant. -/
def execLocalQueueRecall (s : State) : Out :=
  .next (
    let es := (s.dome (towerOf s.b.bid)).hw.filter (fun e => e.kind == 0 && e.quad == quadOf s.b.bid)
    s.recall s.b.bid (fun l => es.any (fun e => decide (l.prio < e.prio))))

/-- The ring of a tower and priority whose head is oldest (R362). -/
def Dome.oldestRing (d : Dome) (prio : Nat) : Option Ring :=
  let rs := d.rings.filter (fun r => r.prio == prio && !r.ents.isEmpty)
  (oldest (rs.filterMap (fun r => r.ents.head?))).bind (fun e => rs.find? (fun r => r.ents.head? == some e))

/-- An entry as its 16 bytes give it; its launch is the registration's (R355, R362). -/
def QEnt.ofWord (w : Nat) (e : QEnt) : QEnt :=
  { e with
    recVa := bits w 45 0 * 64, prio := bits w 47 46, quad := bits w 59 58, kind := bits w 63 62, cnt := bits w 73 64
    seq := bits w 111 80, ctx := bits w 127 112 }

/-- A ring's head read back into hardware; the entries behind it that have been struck out leave with it (R362). -/
def State.refillFrom (s : State) (tower : Nat) (r : Ring) (e : QEnt) : State :=
  let (quota, base) := s.queueWord r.ctx
  let va := ringVa base quota tower r.prio r.head
  let s := s.seeWalk (domeLook tower) r.ctx va
  match s.resolve r.ctx va .read false with
  | .error f => s.ringFault tower r.prio r.ctx va f
  | .ok pa =>
    let s := (s.settle pa 16).domeSee tower r.ctx va 16
    let e := QEnt.ofWord (ofBytes (s.readPhys pa 16)) e
    let d := s.dome tower
    let r' := ({ r with head := r.head + 1, ents := r.ents.tail } : Ring).strike (fun _ => false)
    s.setDome tower { d with hw := d.hw ++ [e], rings := d.rings.map (fun x => if x = r then r' else x) }

/-- QUEUE_REFILL (R362): while no ring access of the tower and priority is parked. One that waited for room in the fault
queue is made again first. -/
def execQueueRefill (tower prio : Nat) (s : State) : Out :=
  .next (match s.toks.find? (fun t => t.who == .ring tower prio) with
    | some t => if t.released then (s.dropToken t.tok).ringRetry tower prio t.va else s
    | none =>
      if 4096 ≤ (s.dome tower).hw.length then s
      else match (s.dome tower).oldestRing prio with
        | some r => (match r.ents.head? with
          | some e => s.refillFrom tower r e
          | none => s)
        | none => s)

/-- Task entries of a quadrant (R364). -/
def Dome.depth (d : Dome) (q : Nat) : Nat := (d.hw.filter (fun e => e.kind == 0 && e.quad == q)).length

/-- The youngest task entry of a quadrant at the highest priority it has (R364). -/
def Dome.toMove (d : Dome) (q : Nat) : Option QEnt :=
  [3, 2, 1, 0].findSome? (fun p =>
    (d.hw.filter (fun e => e.kind == 0 && e.quad == q && e.prio == p)).foldl (fun (y : Option QEnt) e =>
      match y with
      | some x => some (if x.older e then e else x)
      | none => some e) none)

/-- A number of entries moved from one quadrant to another (R364). The entries already moved carry the other tag. -/
def Dome.move (d : Dome) (src dst : Nat) : Nat → Dome
  | 0 => d
  | n + 1 =>
    match d.toMove src with
    | some e => ({ d with hw := d.hw.map (fun x => if x = e then { x with quad := dst } else x) } : Dome).move src dst n
    | none => d

/-- One neighbour pair balanced (R364). -/
def Dome.balance (d : Dome) (p : Nat × Nat) : Dome :=
  let a := d.depth p.1
  let b := d.depth p.2
  if 16 < a - b then d.move p.1 p.2 ((a - b) / 2)
  else if 16 < b - a then d.move p.2 p.1 ((b - a) / 2)
  else d

/-- Whether a tower's balancing round is due: 2,048 cycles after the last (R364). -/
def State.balanceDue (s : State) (tower : Nat) : Bool := decide ((s.dome tower).balAt + 2048 ≤ s.clk)

/-- BALANCING_ROUND (R364, R370). -/
def execBalancingRound (tower : Nat) (s : State) : Out :=
  .next (
    if s.balanceDue tower then
      s.setDome tower { [(0, 1), (2, 3), (0, 2), (1, 3)].foldl Dome.balance (s.dome tower) with balAt := s.clk }
    else s)

/-- A brick's work given back as it leaves service; the team of a saved member that it had been given waits for bricks again
(R344, R358). -/
def State.giveBack (s : State) (brick : Nat) : State :=
  match s.givenTo (s.brick brick) with
  | none => s.unassign brick
  | some x =>
    let s := (s.pullBack x false).unassign brick
    if s.allBricks.any (fun b => b.running && x.task.teamWith b.t) then s else s.queueSaved x.task

/-- BRICK_RETIREMENT (R32, R358): the brick leaves the brick map, and its local queue is recalled. -/
def execBrickRetirement (brick : Nat) (s : State) : Out :=
  .next (
    if 768 ≤ brick then s
    else
      ({ s with inServ := { s.inServ with retired := addOnce brick s.inServ.retired } } : State).giveBack brick)

/-! ## Team slices (R344) -/

/-- Whether a launch has a team that waits for bricks. -/
def State.teamWaits (s : State) (launch : Nat) : Bool :=
  [0, 1].any (fun w => (s.dome w).hw.any (fun e => e.kind != 0 && e.launch == launch) ||
    (s.dome w).rings.any (fun r => r.ents.any (fun e => decide (e.kind = 1 ∨ e.kind = 2) && e.launch == launch)))

/-- The resident team of a launch that has run longest, by a task of it; the gang team is left alone while its slice
lasts (R344, R365). -/
def State.longestTeam (s : State) (launch : Nat) : Option Brick :=
  let gang := fun (b : Brick) => s.gangNow.any (fun g => !g.aborted && g.team.contains b.t.tid)
  (s.allBricks.filter (fun b => b.running && b.t.launch == launch && !b.preq && b.saving.isNone && !gang b)).foldl
    (fun (y : Option Brick) b => match y with
      | some x => some (if b.t.since < x.t.since then b else x)
      | none => some b) none

/-- TEAM_SLICE_END (R344, R370): a launch's longest-running team leaves when its slice is over and another waits; a gang slice that is to
start comes first. -/
def execTeamSliceEnd (launch : Nat) (s : State) : Out :=
  .next (if s.gangNext.any (fun p => decide (p.2 ≤ s.ftime)) then s else match s.longestTeam launch with
    | some b =>
      if s.teamWaits launch && decide (b.t.since + (s.dome (towerOf b.bid)).tslice ≤ s.clk) then s.swapOut b.t else s
    | none => s)

end Sys2Proof.Machine
end

