-- ==== Sys2Proof/Machine/Launch.lean ====
section
/-!
DEFINITION. The launch engine: the launch ring (R430, R431), the checks and the expansion of a launch (R322, R337 to R341,
R345, R361, R369), its completion (R342, R367, R432), and gang slices (R365, R366).
-/

namespace Sys2Proof.Machine

open Sys2Proof

/-! ## The launch ring (R430) -/

/-- Address of a context's ring descriptor (R428). -/
def State.ringVaOf (s : State) (ctx : Nat) : Option Nat := (s.ctxEnt ctx).map (fun e => bits e 89 44 * 64)

/-- A context's ring descriptor, when it can be read (R430). -/
def State.ringDesc (s : State) (ctx : Nat) : Option Nat := (s.ringVaOf ctx).bind (fun va => s.readVaNat ctx va 64)

/-- Ring size (R430). -/
def ringSize (d : Nat) : Nat := 2 ^ (bits d 167 164 + 4)

/-- A launch as it stands before its checks. -/
def Launch.fresh (id ctx raw : Nat) (ring : Option Nat) : Launch :=
  { id := id, ctx := ctx, raw := BitVec.ofNat 2048 raw, ring := ring, status := 0, expanded := false, teamsMade := 0, rbase := 0
    pooled := false, det := none, live := 0, ntask := 0, nfault := 0, nkill := 0, trace := [], traced := 0 }

/-- One ring entry handed to the launch engine (R361, R430). -/
def State.takeEntry (s : State) (ctx d i : Nat) : State :=
  let va := bits d 211 168 * 256 + 256 * (i % ringSize d)
  let s := s.seeVaAll 0 ctx 6 va 256
  let raw := ((s.readVa ctx va 256).map ofBytes).getD 0
  { s with ringQ := s.ringQ ++ [Launch.fresh s.nextLaunch ctx raw (some i)], nextLaunch := s.nextLaunch + 1 }

/-- The entries from head up to the tail taken, and head advanced; none from a descriptor with a reserved bit set (R5, R430;
log 103). -/
def State.takeRing (s : State) (ctx : Nat) : State :=
  let s := s.settleAll.seeVaAll 0 ctx 3 ((s.ringVaOf ctx).getD 0) 64
  match s.ringVaOf ctx, s.ringDesc ctx with
  | some va, some d =>
    let head := bits d 127 64
    let n := (bits d 63 0 + 2 ^ 64 - head) % 2 ^ 64
    if n = 0 ∨ ringSize d < n ∨ bits d 511 264 ≠ 0 ∨ bits d 163 128 ≠ 0 then s
    else
      let s := (List.range n).foldl (fun s k => s.takeEntry ctx d ((head + k) % 2 ^ 64)) s
      match s.paOf ctx (va + 8) .read with
      | some pa => s.domeWrite 0 ctx (va + 8) pa (toBytes 8 (head + n))
      | none => s
  | _, _ => s

/-- LAUNCH_RING_WAKE (R430, R431). -/
def execLaunchRingWake (ctx : Nat) (s : State) : Out := .next (if s.power == .on then s.takeRing ctx else s)

/-! ## The record (R337, R338) -/

/-- A field of the launch record. -/
def Launch.f (l : Launch) (hi lo : Nat) : Nat := bits l.raw.toNat hi lo
/-- Code-table entry. -/
def Launch.cbi (l : Launch) : Nat := l.f 31 20
/-- Barriers per team. -/
def Launch.nbar (l : Launch) : Nat := l.f 40 32
/-- Whether the launch is deterministic. -/
def Launch.detBit (l : Launch) : Bool := bit l.raw.toNat 43
/-- Whether the launch records a trace. -/
def Launch.traceBit (l : Launch) : Bool := bit l.raw.toNat 44
/-- Trace buffer. -/
def Launch.trbase (l : Launch) : Nat := l.f 627 576
/-- Completion word. -/
def Launch.comp (l : Launch) : Nat := l.f 563 512

/-- The other spatial levels, lowest first: kind and trips (R340). -/
def Launch.grid (l : Launch) : List (Nat × Nat) :=
  ((List.range 6).filter (fun i => i != l.teamLevel && decide (2 ≤ (l.level i).1))).map l.level

/-- Number of teams (R340). -/
def Launch.teams (l : Launch) : Nat := (l.grid.map Prod.snd).prod

/-- Number of tasks. -/
def Launch.tasks (l : Launch) : Nat := l.teams * l.tsize

/-- Trips of the temporal levels, in level order (R338). -/
def Launch.times (l : Launch) : List Nat := (l.levels.filter (fun x => x.1 == 1)).map Prod.snd

/-- A team's index at the die level: mixed radix, lowest level fastest (R340). -/
def dieIndex : List (Nat × Nat) → Nat → Nat
  | [], _ => 0
  | (k, n) :: rest, t => if k = 3 then t % n else dieIndex rest (t / n)

/-! ## Checks (R339, R369, R431) -/

/-- Records of a context's pool, and its base (R341, R428). -/
def State.pool (s : State) (ctx : Nat) : Nat × Nat :=
  match s.ctxEnt ctx with
  | some e => if bits e 43 8 = 0 then (0, 0) else (bits e 43 8 * 65536, 1024 * 2 ^ bits e 7 3)
  | none => (0, 0)

/-- Whether a reserved bit of a launch record is set (R337, R338). -/
def Launch.reserved (l : Launch) : Bool :=
  [(2047, 1024), (639, 628), (575, 564), (511, 480), (447, 436), (383, 372), (319, 308), (255, 244), (191, 180), (127, 96),
    (42, 41), (19, 0)].any (fun p => decide (l.f p.1 p.2 ≠ 0)) ||
  (List.range 6).any (fun i => decide (bits l.raw.toNat (703 + 64 * i) (674 + 64 * i) ≠ 0))

/-- Whether the levels break R339. -/
def Launch.levelsBad (l : Launch) : Bool :=
  let ks := l.levels.map Prod.fst
  (List.range 5).any (fun i => ks.getD i 0 == 0 && ks.getD (i + 1) 0 != 0) || !ks.contains 2 ||
  l.levels.any (fun x => decide (2 ≤ x.1) && decide (x.2 = 0)) ||
  decide (1 < (ks.filter (fun k => k == 3)).length) || l.levels.any (fun x => x.1 == 3 && decide (2 < x.2)) ||
  decide (2 ^ 32 ≤ l.tasks)

/-- Bricks a team may have at most (R339). -/
def State.teamRoom (s : State) (l : Launch) : Nat :=
  if l.hasDie then min (s.towerBricks 0) (s.towerBricks 1) else s.towerBricks 0 + s.towerBricks 1

/-- The header of a trace, and its entries (R367). -/
def State.readTrace (s : State) (l : Launch) (n : Nat) : Option (Nat × List Nat) :=
  match s.readVaAll l.ctx 3 l.trbase 16, s.readVaAll l.ctx (8 * n + 1) (l.trbase + 16) (8 * n) with
  | some h, some bs => some (ofBytes h, (List.range n).map (fun i => ofBytes ((bs.drop (8 * i)).take 8)))
  | _, _ => none

/-- A trace entry's task and brick (R367). -/
def traceEntry (e : Nat) : Nat × Nat := (bits e 31 0, bits e 63 54)

/-- The tower in which a launch's task must stand, where it has a die level (R343). -/
def Launch.towerFor (l : Launch) (x : Nat) : Option Nat := if l.hasDie then some (dieIndex l.grid (x / l.tsize)) else none

/-- Whether a bound launch's trace breaks R369, or has a reserved bit set (R5, R367). -/
def State.bindBad (s : State) (l : Launch) : Bool :=
  match s.readTrace l l.tasks with
  | none => true
  | some (h, ws) =>
    let es := ws.map traceEntry
    !bit h 0 || decide (bits h 63 32 ≠ l.tasks) || decide (bits h 127 64 ≠ 0) || decide (bits h 31 1 ≠ 0) ||
    ws.any (fun w => decide (bits w 53 32 ≠ 0)) || es.any (fun e => !s.inService e.2) ||
    es.any (fun e => decide (l.tasks ≤ e.1) || (l.towerFor e.1).any (fun w => towerOf e.2 != w)) ||
    decide (¬ (es.map Prod.fst).Nodup)

/-- Whether tracing or binding breaks R369. -/
def State.traceBad (s : State) (l : Launch) : Bool :=
  let t := l.traceBit
  let b := l.bindBit
  ((t || b) && !l.detBit) || (t && b) || ((t || b) && (decide (l.trbase = 0) || decide (l.trbase % 8 ≠ 0))) ||
  (b && s.bindBad l)

/-- Whether a launch is malformed (R339, R369, R431). -/
def State.launchBad (s : State) (l : Launch) : Bool :=
  decide (l.f 63 48 ≠ l.ctx) || l.reserved || l.levelsBad || decide (s.teamRoom l < l.tsize) || decide (256 < l.nbar) ||
  (decide (0 < l.nbar) && decide (l.f 371 320 = 0)) || (!l.times.isEmpty && decide (l.f 435 384 = 0)) ||
  (decide (l.f 307 256 = 0) && decide ((s.pool l.ctx).2 < l.tasks)) || s.traceBad l

/-! ## Starting a launch (R322, R337, R341, R361) -/

/-- The runs of pool records that launches of a context hold, as first record and end (R341). -/
def State.poolRuns (s : State) (ctx base : Nat) : List (Nat × Nat) :=
  (s.launches.filter (fun l => l.ctx == ctx && l.pooled)).map (fun l =>
    ((l.rbase - base) / 64, (l.rbase - base) / 64 + l.tasks))

/-- The lowest free run of n records of a pool: it starts at the first record or where a held run ends (R341). -/
def State.poolRun (s : State) (ctx n : Nat) : Option Nat :=
  let (base, size) := s.pool ctx
  let held := s.poolRuns ctx base
  let fits := fun a => decide (a + n ≤ size) && held.all (fun r => decide (a + n ≤ r.1) || decide (r.2 ≤ a))
  (((0 :: held.map Prod.snd).filter fits).mergeSort (fun a b => decide (a ≤ b))).head?.map (fun a => base + 64 * a)

/-- Where a launch's records stand, once it has them (R341). -/
def State.recordsFor (s : State) (l : Launch) : Option (Nat × Bool) :=
  if l.f 307 256 ≠ 0 then some (l.f 307 256, false) else (s.poolRun l.ctx l.tasks).map (fun a => (a, true))

/-- Whether a launch waits for others of its context (R322, R361). -/
def State.detWaits (s : State) (l : Launch) : Bool :=
  let running := s.launches.filter (fun x => x.ctx == l.ctx)
  if l.detBit then !running.isEmpty else running.any Launch.detBit

/-- A launch's code-table entry written (R337). -/
def State.writeCode (s : State) (l : Launch) : State :=
  match s.ctxEnt l.ctx with
  | some e => s.writeVa 0 l.ctx (bits e 152 116 * 32768 + 8 * l.cbi) (toBytes 8 (l.f 179 128 / 64 * 64 + 1))
  | none => s

/-- The next deterministic id; as the ids wrap every line tag is cleared (R322; log 37). -/
def State.nextDet (s : State) : Nat × State :=
  let n := (s.detId + 1) % 2 ^ 32
  (n, { s with detId := n, dtag := if n = 0 then [] else s.dtag })

/-- A launch started: code entry written, records found, id given, trace read. -/
def State.startLaunch (s : State) (l : Launch) (rbase : Nat) (pooled : Bool) : State :=
  let s := s.writeCode l
  let trace := if l.bindBit then ((s.readTrace l l.tasks).map (fun p => p.2.map traceEntry)).getD [] else []
  let (id, s) := if l.detBit then (let (n, s) := s.nextDet; (some n, s)) else (none, s)
  { s with
    ringQ := s.ringQ.filter (fun x => x.id != l.id)
    launches := s.launches ++ [{ l with rbase := rbase, pooled := pooled, det := id, trace := trace }] }

/-! ## Expansion (R340, R343, R345, R356, R360) -/

/-- Bytes of a barrier block (R340, R345). -/
def blockSize (nbar : Nat) : Nat := 64 * ceilDiv (16 + 16 * nbar) 64

/-- The bytes of a fresh barrier block (R345). -/
def freshBlock (nbar tsize : Nat) : List Byte :=
  toBytes 16 (nbar + tsize * 2 ^ 32) ++ (List.range nbar).flatMap (fun _ => toBytes 16 tsize)

/-- The record of task x of a launch (R340). -/
def Launch.record (l : Launch) (t j block frame : Nat) : Nat :=
  l.f 95 64 * 2 ^ 32 + l.cbi * 2 ^ 20 + 2 * 2 ^ 16 + l.f 47 46 * 2 ^ 14 + t % 2 ^ 32 * 2 ^ 64 + j * 2 ^ 102 +
  (if 0 < l.nbar then block / 64 % 2 ^ 46 else 0) * 2 ^ 164 + frame / 64 % 2 ^ 46 * 2 ^ 210 + l.f 243 192 * 2 ^ 256 + j * 2 ^ 320 +
  (t + dieIndex l.grid t * 2 ^ 32) * 2 ^ 384 + l.times.length * 2 ^ 448

/-- One task created: its frame's trips, its record and its registration (R333, R340). -/
def State.createTask (s : State) (l : Launch) (tower t j : Nat) : State :=
  let x := t * l.tsize + j
  let block := l.f 371 320 + blockSize l.nbar * t
  let frame := l.f 435 384 + l.f 479 448 * x
  let va := l.rbase + 64 * x
  let s := if l.times = [] then s else s.writeVaAll tower l.ctx 3 frame (l.times.flatMap (toBytes 8))
  let s := s.writeVa tower l.ctx va (toBytes 64 (l.record t j block frame))
  let task : Task := { Task.empty with
    tid := s.nextTid, recVa := va, ctx := l.ctx, launch := l.id, det := l.det, bound := l.bindBit, team := t, member := j
    tsize := l.tsize, bar := if 0 < l.nbar then block else 0, frame := frame, prio := l.f 47 46, brick := 384 * tower }
  { s with tasks := s.tasks ++ [task], nextTid := s.nextTid + 1 }

/-- The tower of a team's entry (R356). -/
def Launch.teamTower (l : Launch) (t : Nat) : Nat := if l.hasDie then dieIndex l.grid t else t % 2

/-- Whether the next team's entry and registrations have room (R360, R361). -/
def State.teamFits (s : State) (l : Launch) : Bool :=
  let w := l.teamTower l.teamsMade
  let d := s.dome w
  (!d.spills (l.f 47 46) || decide (s.ringTotal l.ctx + 1 ≤ (s.queueWord l.ctx).1)) &&
  decide (s.registered w + l.tsize ≤ 65536)

/-- The next team created: its block's header and barriers, frames and records written before its entry is made (R340, R356, R361). -/
def State.makeTeam (s : State) (l : Launch) : State :=
  let t := l.teamsMade
  let w := l.teamTower t
  let block := l.f 371 320 + blockSize l.nbar * t
  let s := s.writeVaAll w l.ctx 3 block (freshBlock l.nbar l.tsize)
  let s := (List.range l.tsize).foldl (fun s j => s.createTask l w t j) s
  let s := s.enqueue w
    { ctx := l.ctx, seq := 0, cnt := l.tsize - 1, kind := 1, quad := 0, prio := l.f 47 46, recVa := l.rbase + 64 * t * l.tsize
      launch := l.id, spawned := false, made := 0 }
  s.onLaunch l.id (fun l => { l with teamsMade := t + 1, live := l.live + l.tsize, expanded := decide (l.teams ≤ t + 1) })

/-- The first launch of each context's ring order: none waits before it (R361). -/
def State.ringHeads (s : State) : List Launch :=
  s.ringQ.filter (fun l => (s.ringQ.find? (fun x => x.ctx == l.ctx)) == some l &&
    !s.launches.any (fun x => x.ctx == l.ctx && !x.expanded))

/-- Whether a launch at the head of its ring can be taken now. -/
def State.canStart (s : State) (l : Launch) : Bool :=
  s.launchBad l || (!s.detWaits l && (s.recordsFor l).isSome)

/-- A launch taken from the head of its ring: malformed ones end at once, others start (R339, R342, R361). -/
def State.takeLaunch (s : State) (l : Launch) : State :=
  if s.launchBad l then
    { s with
      ringQ := s.ringQ.filter (fun x => x.id != l.id)
      launches := s.launches ++ [{ l with status := 2, expanded := true }] }
  else match s.recordsFor l with
    | some (a, p) => s.startLaunch l a p
    | none => s

/-- What the launch engines may do next, at most one thing of a context: make a team of a launch under way, or take the next launch of
its ring (R361). -/
def State.expandable (s : State) : List (Bool × Launch) :=
  (s.launches.filter (fun l => !l.expanded && s.teamFits l)).map (fun l => (true, l)) ++
    (s.ringHeads.filter s.canStart).map (fun l => (false, l))

/-- A bound launch's trace as the slices see it read (R67, R367). -/
def State.seeTrace (s : State) (l : Launch) : State :=
  if l.bindBit then s.seeVaAll 0 l.ctx (l.tasks / 8 + 4) l.trbase (16 + 8 * l.tasks) else s

/-- LAUNCH_EXPAND (R337 to R341, R345, R361): one team of a launch under way, or the next launch of a ring taken; of several contexts'
launches, which expand in parallel, any one (log 129). -/
def execLaunchExpand (s : State) : Out :=
  .next (
    if s.power != .on then s
    else
      let s := s.settleAll
      let l := s.expandable
      match l[Config.expandPick s.tick % l.length]? with
      | some (true, l) => s.makeTeam l
      | some (false, l) => (s.seeTrace l).takeLaunch l
      | none => s)

/-! ## Completion (R342, R367, R432) -/

/-- The completion word (R342). -/
def Launch.word (l : Launch) : Nat :=
  let status := if l.status = 2 then 2 else if 0 < l.nfault + l.nkill then 1 else 0
  status + l.nkill * 2 ^ 16 + l.nfault * 2 ^ 24 + l.ntask * 2 ^ 32

/-- The completion record sent to the host (R432). -/
def State.sendCompletion (s : State) (l : Launch) : State :=
  match l.ring, s.ringDesc l.ctx with
  | some i, some d =>
    let w := bits d 263 256
    let x := (cget 0 s.win w).toNat
    let off := bits d 255 212 + 16 * (i % ringSize d)
    s.sendPort (bits x 91 90) 21 [bits x 115 92, bits x 147 116, (bits x 255 192 + off) % 2 ^ 64, 16,
      ofBytes (toBytes 8 l.word ++ toBytes 8 i)]
  | _, _ => s

/-- LAUNCH_COMPLETE (R342, R367, R432): the trace header, the completion word, and the report to the host. -/
def execLaunchComplete (launch : Nat) (s : State) : Out :=
  .next (match s.launch? launch with
    | none => s
    | some l =>
      if !l.expanded || l.live != 0 then s
      else
        let s := s.settleAll
        let s := if l.traceBit && l.status != 2 then
            s.writeVaAll 0 l.ctx 3 l.trbase (toBytes 16 (1 + l.traced % 2 ^ 32 * 2 ^ 32))
          else s
        let s := if l.comp = 0 then s else s.writeVa 0 l.ctx l.comp (toBytes 8 l.word)
        ({ s with launches := s.launches.filter (fun x => x.id != launch) } : State).sendCompletion l)

/-! ## Gang slices (R365, R366) -/

/-- Gang register i: tower 0's where it is enabled, else tower 1's (R365; log 38). -/
def State.gangReg (s : State) (i : Nat) : Word :=
  let a := vget 0 s.dome0.gang i
  if bit a.toNat 63 then a else vget 0 s.dome1.gang i

/-- The group of a gang register (R365, R438). -/
def State.gangGroup (s : State) (i : Nat) : Option Group :=
  s.groups.find? (fun g => g.index == fld (s.gangReg i) 31 16)

/-- A gang message to every other member of a group; a member that cannot be reached is left out. -/
def State.tellGang (s : State) (g : Group) (fields : List Nat) : State :=
  (List.range g.nodes.length).foldl (fun s r =>
    if r = g.rank then s else (s.sendNode (g.nodes.getD r 0) 9 false fields).getD s) s

/-- GANG_SLICE_BROADCAST (R365): the rank-0 module names the next slice's start, at least 100 µs ahead. -/
def execGangSliceBroadcast (i start : Nat) (s : State) : Out :=
  .next (match s.gangGroup i with
    | some g =>
      if bit (s.gangReg i).toNat 63 && g.rank == 0 && decide (s.ftime + 100000 ≤ start) then
        (let s := s.tellGang g [1, i, start]
         { s with gangNext := s.gangNext.erase (i, start) ++ [(i, start)] })
      else s
    | none => s)

/-- Clock cycles as ns of fabric time: 1.05 GHz (R365). -/
def cyclesNs (n : Nat) : Nat := n * 20 / 21

/-- The team entries of a tower, in hardware and in its rings. -/
def Dome.teams (d : Dome) : List QEnt := (d.hw ++ d.rings.flatMap Ring.ents).filter (fun e => decide (e.kind = 1 ∨ e.kind = 2))

/-- The gang team of a register's context, with its tower: the one an abort put at the head, else the oldest waiting or saved team
(R365, R366). -/
def State.gangTeam (s : State) (i ctx : Nat) : Option (Nat × QEnt) :=
  let es : List (Nat × QEnt) := ((s.dome0.teams.map (fun e => (0, e))) ++ (s.dome1.teams.map (fun e => (1, e)))).filter (fun p => p.2.ctx == ctx)
  let first := es.foldl (fun (y : Option (Nat × QEnt)) e => match y with
    | some x => some (if e.2.made < x.2.made then e else x)
    | none => some e) none
  (es.find? (fun p => s.gangNow.any (fun g => g.aborted && g.idx == i && (s.entryTasks p.2).any (fun t => g.team.contains t)))).or first

/-- A team entry that its tower's hardware takes out of a ring for a gang slice (R362, R365; log 38). -/
def State.bringUp (s : State) (tower : Nat) (e : QEnt) : State :=
  let d := s.dome tower
  if d.hw.contains e then s
  else
    let d := d.strike (fun x => x == e)
    s.setDome tower { d with hw := d.hw ++ [e] }

/-- The bricks on which a gang team will stand: those its launch fixes, else the lowest usable ones of its tower, then of
the other where its launch lets it (R359, R365). -/
def State.gangBricks (s : State) (tower : Nat) (e : QEnt) : List Nat :=
  match s.wanted e with
  | some l => l
  | none =>
    let own := (List.range 384).map (fun i => 384 * tower + i)
    let other := (List.range 384).map (fun i => 384 * (1 - tower) + i)
    let all := (if s.isModule tower e then own ++ other else own).filter s.usable
    all.take (s.need e)

/-- GANG_SLICE_START (R365, R370): at S the gang team is named, and the teams on the bricks it needs are swapped out. A
module with no team of the context takes part as resident. -/
def execGangSliceStart (i : Nat) (s : State) : Out :=
  .next (match s.gangNext.find? (fun p => p.1 == i && decide (p.2 ≤ s.ftime)) with
    | some (_, start) =>
      let ctx := fld (s.gangReg i) 47 32
      let s' := { s with
        gangNext := s.gangNext.erase (i, start), gangNow := s.gangNow.filter (fun g => !(g.idx == i && g.aborted)) }
      if !bit (s.gangReg i).toNat 63 then s'
      else match s.gangTeam i ctx with
        | none => { s' with gangNow := s'.gangNow ++ [⟨i, ctx, start, [], [], false, false⟩] }
        | some (tower, e) =>
          let s' := s'.bringUp tower e
          let bs := s'.gangBricks tower e
          let out := s'.allBricks.filter (fun b => b.running && bs.contains b.bid)
          let prior := (s'.allBricks.filter (fun b => b.running && out.any (fun o => o.t.teamWith b.t))).map (fun b => b.t.tid)
          out.foldl (fun s b => s.swapOut b.t)
            { s' with gangNow := s'.gangNow ++ [⟨i, ctx, start, s'.entryTasks e, prior, false, false⟩] }
    | none => s)

/-- The gang team asked to leave: its running members, and those that were given bricks and have not come there yet. -/
def State.gangOut (s : State) (g : Gang) : State :=
  let s := s.requestPreempt (fun b => g.team.contains b.t.tid)
  match s.images.find? (fun x => g.team.contains x.task.tid &&
      s.allBricks.any (fun b => (s.givenTo b).any (fun y => y.task.tid == x.task.tid))) with
  | some x =>
    let s := s.pullBack x false
    if s.allBricks.any (fun b => b.running && x.task.teamWith b.t) then s else s.queueSaved x.task
  | none => s

/-- Whether a gang slice has lasted its time (R365). -/
def State.gangOver (s : State) (g : Gang) : Bool := !g.aborted && decide (g.start + cyclesNs s.dome0.gslice ≤ s.ftime)

/-- GANG_SLICE_END (R365): at S + gslice the gang team is swapped out. -/
def execGangSliceEnd (s : State) : Out :=
  .next (match s.gangNow.find? s.gangOver with
    | some g => ({ s with gangNow := s.gangNow.erase g } : State).gangOut g
    | none => s)

/-- A gang's collectives end with status 0x05: those under way, and those that no engine has accepted yet (R127, R366). -/
def State.gangCollectives (s : State) (g : Gang) : State :=
  let mine := fun (c : Cmd) => c.op == 4 && g.team.contains c.tid
  let stop := fun (c : Cmd) => if mine c then { c with stopped := true } else c
  let s := s.mapBricks (fun b => if b.push.any mine then { b with push := b.push.map stop } else b)
  { s with
    passed := s.passed.map stop
    engs := s.engs.map (fun (e : Engine) => { e with
      queue := e.queue.map stop
      ctxs := e.ctxs.map (fun c => if mine c.cmd ∧ c.outcome = none then { c with outcome := some (5, 0), tok := none, asked := 0 } else c) })
    toks := s.toks.filter (fun t => match t.who with
      | .engine e seq => !(s.eng e).ctxs.any (fun c => c.cmd.seq == seq && mine c.cmd && c.tok == some t.tok)
      | _ => true) }

/-- Saved members of the prior teams return to the bricks they left, and their entries leave the queues (R366). -/
def State.priorHome (s : State) (g : Gang) : State :=
  let mine := fun (x : Saved) => g.prior.contains x.task.tid && x.reason == .none
  let drop := fun (e : QEnt) => e.kind == 2 && (s.savedOf e).any mine
  { s with
    dome0 := s.dome0.strike drop, dome1 := s.dome1.strike drop
    images := s.images.map (fun x => if mine x then { x with home := true } else x) }

/-- An abort's effect on this module (R366). -/
def State.gangFall (s : State) (g : Gang) : State :=
  let s := { s with gangNow := s.gangNow.map (fun x => if x = g then { g with aborted := true } else x) }
  ((s.gangOut g).gangCollectives g).priorHome g

/-- Whether the gang team is resident: no member of it waits to be dispatched or restored; one that waits for something of its own does
not count (R366). -/
def State.gangRuns (s : State) (g : Gang) : Bool :=
  !s.images.any (fun x => g.team.contains x.task.tid && x.reason == .none) &&
  !(s.dome0.teams ++ s.dome1.teams).any (fun e => (s.entryTasks e).any (fun t => g.team.contains t))

/-- Whether a slice's S + gskew has passed, and it has not been judged yet (R366). -/
def State.gangLate (s : State) (g : Gang) : Bool :=
  !g.aborted && !g.met && decide (g.start + cyclesNs s.dome0.gskew ≤ s.ftime)

/-- GANG_SKEW_EXPIRY (R366): a member not resident at S + gskew broadcasts an abort. -/
def execGangSkewExpiry (s : State) : Out :=
  .next (match s.gangNow.find? s.gangLate with
    | some g =>
      if s.gangRuns g then { s with gangNow := s.gangNow.map (fun x => if x = g then { g with met := true } else x) }
      else
        (match s.gangGroup g.idx with
          | some r => s.tellGang r [2, g.idx, g.start]
          | none => s).gangFall g
    | none => s)

/-- GANG_ABORT (R366): an abort that has been received, of the slice that it names; one of a slice that has ended, or has been aborted,
changes nothing. -/
def execGangAbort (s : State) : Out :=
  .next (match s.gangStops with
    | (i, start) :: rest =>
      let s := { s with gangStops := rest }
      (match s.gangNow.find? (fun g => g.idx == i && g.start == start && !g.aborted) with
        | some g => s.gangFall g
        | none => s)
    | [] => s)

end Sys2Proof.Machine
end

