-- ==== Sys2Proof/Machine/Router.lean ====
section
/-!
DEFINITION. The mortar routers that combine (R15 to R17, R296 to R302, R448).
-/

namespace Sys2Proof.Machine

open Sys2Proof

/-! ## The path of a request (R15 to R17, R448) -/

/-- Column of a brick's router (R15). -/
def columnOf (bid : Nat) : Nat := 8 * (bid % 192 / 48 % 2) + bid % 48 % 8

/-- Row of a brick's router (R15). -/
def rowOf (bid : Nat) : Nat :=
  let l := bid % 48 / 8
  if bid % 192 / 48 < 2 then 5 - l else 6 + l

/-- The brick of the lower layer whose router stands at a column and row of a tower (R9, R15). -/
def routerAt (tower x y : Nat) : Nat :=
  384 * tower + 48 * (x / 8 + 2 * (y / 6)) + 8 * (if y < 6 then 5 - y else y - 6) + x % 8

/-- Column of the router of a line's slice (R448). -/
def sliceColumn (line : Nat) : Nat := 8 * (line / 2 ^ 36 % 6 % 2) + 2 * (line / 64 % 4) + 1

/-- Row of the router of a line's slice (R20, R448). -/
def sliceRow (line : Nat) : Nat :=
  let k := line / 2 ^ 36 % 6
  if k < 2 then 0 else if k < 4 then 11 else 1

/-- The numbers from one to another, both included, in the direction of travel. -/
def span (a b : Nat) : List Nat :=
  if a ≤ b then (List.range (b + 1 - a)).map (fun i => a + i) else (List.range (a + 1 - b)).map (fun i => a - i)

/-- The routers of the lower layers that a packet crosses between two of them: along its row, over the bridge where the towers
differ, then along the column (R16, R17). -/
def between (t x y tt tx ty : Nat) : List Nat :=
  let row := if t = tt then (span x tx).map (fun c => routerAt t c y)
    else
      (span x (if t = 0 then 15 else 0)).map (fun c => routerAt t c y) ++
      (span (if t = 0 then 0 else 15) tx).map (fun c => routerAt tt c y)
  row ++ ((span y ty).drop 1).map (fun r => routerAt tt tx r)

/-- The routers a packet crosses from a brick (R16, R17). -/
def fromBrick (bid tt tx ty : Nat) : List Nat :=
  (if bid % 384 < 192 then [] else [bid]) ++ between (towerOf bid) (columnOf bid) (rowOf bid) tt tx ty

/-- The routers a request crosses from its brick to its line's slice (R16, R17, R448). -/
def pathOf (bid line : Nat) : List Nat := fromBrick bid (line / 2 ^ 36 / 6) (sliceColumn line) (sliceRow line)

/-- The column and row of the router where a dome passes packets of its fabric links; which of its routers that is, and where it
stands, is not in the manual (R18, R24; log 16). -/
def domeRouter (tower : Nat) : Nat × Nat := ((Config.domeRouter tower).1 % 16, (Config.domeRouter tower).2 % 12)

/-- The routers a request crosses from its brick to the dome of its fabric link (R17, R18, R24, R434). -/
def pathOut (bid link : Nat) : List Nat := fromBrick bid (linkTower link) (domeRouter (linkTower link)).1 (domeRouter (linkTower link)).2

/-- The routers that a request of another module crosses from the dome of its fabric link to its line's slice (R17, R18, R24,
R448). -/
def pathIn (link line : Nat) : List Nat :=
  between (linkTower link) (domeRouter (linkTower link)).1 (domeRouter (linkTower link)).2 (line / 2 ^ 36 / 6) (sliceColumn line) (sliceRow line)

/-- The path of a brick's request to a physical address: to the slice of its line, or to the link toward the module that owns
it (R17, R434, R448). -/
def State.pathFor (s : State) (bid pa : Nat) : List Nat :=
  match s.ownerNode pa with
  | some node => ((s.linkTo node).map (pathOut bid)).getD []
  | none => pathOf bid pa

/-! ## Waiting and combining (R296, R297) -/

/-- What a combinable request must agree in, once its address is known (R297). -/
def State.combKey (s : State) (n : Nat) (op : DevOp) : Option CombKey :=
  match op.kind with
  | .amo code true mode _ _ =>
    if op.det.isSome then none
    else
      match s.xlate (s.opLook n op) op.ctx op.va .write false, s.look (s.opLook n op) op.ctx op.va with
      | .ok pa, .leaf pte _ _ =>
        some ⟨pa, op.len == 8, code, if code = .fadd then mode else 0, op.ord, op.scope, op.ctx, leafKey pte⟩
      | _, _ => none
  | _ => none

/-- The entries of a router's wait buffer. -/
def State.buffer (s : State) (r : Nat) : List BufEnt := s.routers.filter (fun e => e.router == r)

/-- Whether a waiting entry has taken a follower in this router: its tree is a pair with no split record elsewhere. -/
def State.pairedHere (s : State) (e : BufEnt) : Bool :=
  match e.tree with
  | .leaf _ _ _ => false
  | .pair _ _ => !s.routers.any (fun x => !x.waiting && x.router != e.router && x.tree == e.tree)

/-- The oldest waiting request of a router that an arriving one can follow (R297). -/
def State.leaderFor (s : State) (r : Nat) (k : CombKey) : Option BufEnt :=
  (s.buffer r).find? (fun e => e.waiting && e.key == k && !s.pairedHere e)

/-- Whether a request that reaches a router is taken there: it follows a waiting leader, or `cwin` makes it wait and an entry
is free (R296, R297). -/
def State.stopsAt (s : State) (k : CombKey) (r : Nat) : Bool :=
  (s.leaderFor r k).isSome || (decide ((s.dome (towerOf r)).cwin ≠ 0) && decide ((s.buffer r).length < 4))

/-- Whether a request goes from where it is to a place of its path, past every router before it (R296). -/
def State.goesTo (s : State) (k : CombKey) (path : List Nat) (op : DevOp) (i : Nat) : Bool :=
  decide (op.routed ≤ i) && ((path.take i).drop op.routed).all (fun r => !s.stopsAt k r)

/-- A request that has come to a router: whether it is taken there, as the follower of a waiting leader or into the buffer, or
passes (R296, R297). -/
def State.takes (s : State) (r : Nat) (k : CombKey) (t : Tree) : Bool × State :=
  match s.leaderFor r k with
  | some e => (true, { s with routers := s.routers.map (fun x => if x = e then { x with tree := .pair e.tree t } else x) })
  | none =>
    let enters := decide ((s.dome (towerOf r)).cwin ≠ 0) || Config.portBusy s.tick
    let s := { s with tick := s.tick + 1 }
    if enters && decide ((s.buffer r).length < 4) then (true, { s with routers := s.routers ++ [⟨r, k, t, s.clk, true, none⟩] })
    else (false, s)

/-- A brick's request that arrives at router i of its path (R296, R297). -/
def State.combine (s : State) (r i n : Nat) (op : DevOp) (k : CombKey) : State :=
  let (taken, t) := s.takes r k (s.treeOf n op)
  t.putOp n (if taken then { op with routed := i + 1, stage := .queued } else { op with routed := i + 1 })

/-- COMBINE_ARRIVAL (R210, R296, R297, R448). -/
def execCombineArrival (r id : Nat) (s : State) : Out :=
  .next (match s.b.op? id with
    | none => s
    | some op =>
      if !s.ready s.b op then s
      else match s.combKey s.b.bid op with
        | none => s
        | some k =>
          let path := s.pathFor s.b.bid k.pa
          let i := path.findIdx (fun x => x == r)
          if path.contains r && s.goesTo k path op i then s.combine r i s.b.bid op k
          else s)

/-- Whether an atomic reaches its slice: a combinable one has passed every router of its path (R296). -/
def State.arrives (s : State) (n : Nat) (op : DevOp) : Bool :=
  match s.combKey n op with
  | some k => (let path := s.pathFor n k.pa; s.goesTo k path op (max op.routed path.length))
  | none => true

/-- SLICE_ATOMIC (R209, R293, R296). -/
def execSliceAtomic (id : Nat) (held : Bool) (s : State) : Out :=
  match s.b.op? id with
  | some op =>
    .next (if s.ready s.b op && op.kind.atomic && s.arrives s.b.bid op then
      (s.seeWalk (s.opLook s.b.bid op) op.ctx op.va).atSlice s.b.bid op held (fun s => s.performAtomic s.b.bid op)
    else s)
  | none => .next s

/-! ## Visiting requests (R296, R297, R433, R437) -/

/-- A key fault of a request of another module, at the base die here: its record, and the kind with which the request is
answered (R79, R80, R96). -/
def State.farKey (s : State) (q : FabReq) (pa : Nat) : Option (Nat × State) :=
  (s.keyFault q.ctx q.key pa false).map (fun kind =>
    (kind, s.postFault (paTower pa) (faultRecord s.clk 0 0xFFFF q.source q.ctx 0 0 kind q.path q.va)))

/-- A visiting atomic at its slice, with those combined behind it (R79, R80, R209, R292 to R294, R299). A poisoned operand leaves
the line poisoned (R86, R87). -/
def State.visitAt (s : State) (v : Visit) (t : Tree) : State :=
  match s.farKey v.req v.pa with
  | some (kind, s) => s.failTree t 1 kind (fun o => faultReport .st o.va 0xFFFF o.kind.path kind)
  | none =>
  let w := if v.w8 then 8 else 4
  let line := v.pa / 64 * 64
  let s := (((s.settle v.pa w).openLines v.req.ctx v.pa w true)).touch v.pa w true (bit (s.descOf v.pa) 6)
  let fail := fun (s : State) => s.failTree t 2 0 (fun o => poisonedReport .st o.va)
  match s.mismatch [1, 2, 3, 0xB] v.req.ctx line (linkTower v.req.link) (toBytes w v.opd) with
  | some (_, s) => fail (s.poison line)
  | none =>
    if s.poisoned v.pa w || v.poisoned then fail (if v.poisoned then s.poison line else s)
    else
      let old := ofBytes (s.readPhys v.pa w)
      let (new, f) := amoNew v.op v.mode w (v.cmp % 2 ^ (8 * w)) old (t.operand v.op v.mode w % 2 ^ (8 * w))
      let s := match new with
        | some x => s.writePhys v.pa (toBytes w x)
        | none => s
      (s.dropTree t v.req.ctx [line] v.req.va w).replyTree t old f

/-- The tree that travels under a visiting request's name (R297). -/
def State.visitTree (s : State) (v : Visit) : Tree :=
  (s.routers.filter (fun e => !e.waiting && e.reply.isNone && e.tree.leader == (visitor, v.id))).foldl
    (fun t e => if t.size < e.tree.size then e.tree else t) (.leaf visitor v.id v.opd)

/-- What a visiting request must agree in with another (R297). -/
def Visit.key (v : Visit) : CombKey :=
  ⟨v.pa, v.w8, v.op, if v.op = .fadd then v.mode else 0, v.req.ord, v.req.scope, v.req.ctx, v.req.key⟩

/-- A visiting request on its way: past the routers of its path until one takes it, else to its slice, where a full write queue
keeps it before its last router (R292, R296). -/
def State.visitOn : List Nat → State → Visit → State
  | [], s, v =>
    if s.queueRoom (v.pa / 64 * 64) then s.visitAt v (s.visitTree v)
    else s
  | r :: rest, s, v =>
    let (taken, s) := s.takes r v.key (s.visitTree v)
    let v := { v with routed := v.routed + 1 }
    let s := { s with visits := s.visits.map (fun x => if x.id = v.id then v else x) }
    if taken then s else State.visitOn rest s v

/-- A visiting request goes on from where it is. -/
def State.visitGo (s : State) (v : Visit) : State := State.visitOn ((pathIn v.req.link v.pa).drop v.routed) s v

/-- Whether a visiting request is held in no router's buffer: it waits for its slice. -/
def State.visitWaits (s : State) (v : Visit) : Bool :=
  !s.routers.any (fun e => e.waiting && e.tree.leaves.contains (visitor, v.id)) &&
  !s.routers.any (fun e => e.tree.leaves.contains (visitor, v.id) && e.tree.leader != (visitor, v.id))

/-- The visiting requests that wait at a slice's input go on while it has room (R292). -/
def State.visitsGo (s : State) : State :=
  s.visits.foldl (fun s v => if s.visitWaits v then s.visitGo v else s) s

/-- SLICE_LINE_ARRIVAL (R293): the requests that wait for a line are performed in order; the room they leave lets in visiting
requests that wait at the slice's input (R292). -/
def execSliceLineArrival (line : Nat) (s : State) : Out := .next (s.lineCame line).visitsGo

/-- WAIT_BUFFER_RELEASE (R296, R297): the oldest waiting request leaves; a pair leaves its split record behind. -/
def execWaitBufferRelease (r : Nat) (s : State) : Out :=
  .next (match (s.buffer r).find? BufEnt.waiting with
    | none => s
    | some e =>
      if s.clk < e.since + (s.dome (towerOf r)).cwin then s
      else
        let (n, id) := e.tree.leader
        let s' : State :=
          if s.pairedHere e then { s with routers := s.routers.map (fun x => if x = e then { x with waiting := false } else x) }
          else { s with routers := s.routers.erase e }
        if n = visitor then
          match s'.visits.find? (fun v => v.id == id) with
          | some v => s'.visitGo v
          | none => s'
        else match (s'.brick n).op? id with
          | some op => s'.putOp n { op with stage := .issued }
          | none => s')

/-- SPLIT_REPLY (R298, R299, R301): the reply that reached a split record goes to both members; the flags of its
roundings go with the leader's. -/
def execSplitReply (r id : Nat) (s : State) : Out :=
  .next (match (s.buffer r).find? (fun e => !e.waiting && e.reply.isSome && e.tree.leader == (s.b.bid, id)) with
    | none => s
    | some e =>
      match e.tree, e.reply with
      | .pair l f, some (v, fl) =>
        let w := if e.key.w8 then 8 else 4
        let dl := l.operand e.key.op e.key.mode w
        let (_, z) := pairOperand e.key.op e.key.mode w dl (f.operand e.key.op e.key.mode w)
        let (x, g) := followerValue e.key.op e.key.mode w v dl
        let s := { s with routers := s.routers.erase e }
        (s.replyTree l v (fl ||| z ||| g)).replyTree f x 0
      | _, _ => s)

end Sys2Proof.Machine
end

