-- ==== Sys2Proof/Machine/Fabric.lean ====
section
/-!
DEFINITION. The fabric (R433 to R438): links and flits, what another module asks of this one's slices, and the answers to
what this one asked.
-/

namespace Sys2Proof.Machine

open Sys2Proof

/-! ## Links (R433, R435 to R437) -/

/-- Whether a link is the module's, in service, and the module has power (R31, R413). -/
def State.linkHere (s : State) (l : Nat) : Bool := decide (l < 36) && s.inServ.fab.getLsbD l && s.power == .on

/-- An acknowledgement flit sent on a link, for the receiver's next number: class 22 of log 19 says what came, class 23 asks for a replay.
It has no number of its own and waits for no acknowledgement (R433; log 40). -/
def State.sayOn (s : State) (l cls : Nat) (fields : List Nat) : State :=
  { s with out := s.out ++ (flitsOf (Config.linkPartner l) ((s.node.map Node.id).getD 0) 10 (Config.streamOf cls fields).toNat false
      ((Config.packetBytes cls fields).take 240)).map (fun f => (4 + l, f)) }

/-- Whether a flit's CRC, class and reserved bits are good (R433). -/
def flitGood (f : Bytes) : Bool :=
  let h := ofBytes (f.take 12)
  decide (ofBytes (f.drop 252) = crc32c (f.take 252)) && decide (bits h 75 72 ≤ 10) && decide (bits h 68 64 = 0)

/-- What an acknowledgement flit does to its link: flits acknowledged leave the buffer, those that waited for room are sent,
and a replay sends the rest again; the replays of its oldest flit are counted (R433, R436; log 40). -/
def State.heard (s : State) (l : Nat) (f : Bytes) : State :=
  let (n, again) := Config.linkAnswer f
  let k := s.link l
  let rest := k.unacked.drop n
  let fresh := (rest.take 1024).drop (1024 - min n 1024)
  let sent := if again then rest.take 1024 else fresh
  { s.setLink l { k with unacked := rest, replays := if again then (if n = 0 then k.replays + 1 else 1) else if n = 0 then k.replays else 0 } with
    out := s.out ++ sent.map (fun p => (4 + l, p.2)) }

/-- FLIT_RECEIVE (R433): a bad flit is counted and asked for again; an acknowledgement is heard; the next flit in sequence is
acknowledged, and any other is not taken. -/
def execFlitReceive (link : Nat) (flit : Bytes) (s : State) : Out :=
  .next (
    let k := s.link link
    if !s.linkHere link || !k.up || decide (flit.length ≠ 256) then s
    else if !flitGood flit then (s.setLink link { k with errs := k.errs + 1 }).sayOn link 23 [k.rseq]
    else if bits (ofBytes (flit.take 12)) 75 72 = 10 then s.heard link flit
    else if bits (ofBytes (flit.take 12)) 47 32 ≠ k.rseq then s
    else
      let r := (k.rseq + 1) % 65536
      (s.setLink link { k with rseq := r }).sayOn link 22 [r])

/-- LINK_TRAINING (R436, R437). -/
def execLinkTraining (link : Nat) (combines : Bool) (s : State) : Out :=
  .next (
    if !s.linkHere link || (s.link link).up then s
    else s.setLink link { s.link link with up := true, lanes := 4, combines := combines, lseq := 0, rseq := 0, replays := 0 })

/-- LINK_LANE_CHANGE (R435): one step down when use, in percent of the current rate, is below a quarter; one up when it
exceeds three quarters. -/
def execLinkLaneChange (link use : Nat) (s : State) : Out :=
  .next (
    let k := s.link link
    if !s.linkHere link || !k.up then s
    else if use < 25 ∧ 1 < k.lanes then s.setLink link { k with lanes := k.lanes / 2 }
    else if 75 < use ∧ k.lanes < 4 then s.setLink link { k with lanes := k.lanes * 2 }
    else s)

/-- Whether a node cannot be reached (R436). -/
def State.lost (s : State) (node : Nat) : Bool := (s.linkTo node).isNone

/-- An access to a node that cannot be reached ends with kind 0xB, which posts no record (R98, R436). -/
def State.loseOp (s : State) (op : DevOp) : DevOp :=
  match op.stage with
  | .remote node => if s.lost node then op.fail (faultReport op.kind.ctr op.va 0xFFFF op.kind.path 0xB) else op
  | _ => op

/-- A command that waits for such a node ends with kind 0xB, and a collective that involves it with status 0x05 (R127,
R436). -/
def State.loseCmd (s : State) (x : CmdCtx) : CmdCtx :=
  if x.cmd.op = 4 then
    if x.outcome.isNone && (s.groupOf x.cmd).any (fun g => (List.range g.nodes.length).any (fun r => r != g.rank && s.lost (g.nodes.getD r 0))) then
      { x with outcome := some (5, 0), tok := none, asked := 0 }
    else x
  else if x.asked ≠ 0 ∧ x.nodes.any s.lost then
    { x.ends 2 0xB with asked := 0, got := [], tok := none, undec := x.outcome.isSome && x.tok.isSome }
  else x

/-- Tokens of commands that wait for them no more dropped (R99). -/
def State.pruneToks (s : State) : State :=
  { s with toks := s.toks.filter (fun t => match t.who with
      | .engine e seq => (s.eng e).ctxs.any (fun c => c.cmd.seq == seq && c.tok == some t.tok)
      | _ => true) }

/-- What becomes of accesses and commands whose node has been lost, the atomics combined behind one among them (R299, R436). -/
def State.loseNodes (s : State) : State :=
  let t := s.mapBricks (fun b => { b with dev := b.dev.map s.loseOp })
  let t := (s.allBricks.flatMap (fun b => (b.dev.filter (fun op => decide (s.loseOp op ≠ op))).map (fun op => (b.bid, op)))).foldl
    (fun t p => match s.treeOf p.1 p.2 with
      | .leaf _ _ _ => t
      | tree => t.failTree tree 1 0xB (fun o => faultReport o.kind.ctr o.va 0xFFFF o.kind.path 0xB)) t
  ({ t with engs := t.engs.map (fun (e : Engine) => { e with ctxs := e.ctxs.map s.loseCmd }) } : State).pruneToks

/-- Whether a link has needed eight replays of one flit (R436). -/
def Link.dead (k : Link) : Bool := k.up && decide (8 ≤ k.replays)

/-- LINK_DOWN (R436): unacknowledged flits go on the next working link of their routes, and what has none left is lost. -/
def execLinkDown (link : Nat) (s : State) : Out :=
  .next (
    let k := s.link link
    if !decide (link < 36) || !k.up then s
    else
      let s := s.setLink link { k with up := false, unacked := [], replays := 0 }
      (k.unacked.foldl (fun s p => match s.linkTo p.1 with
        | some l => s.putFlit l p.1 p.2
        | none => s) s).loseNodes)

/-! ## Requests of other modules (R292, R433, R434, R437) -/

/-- Whether packets are taken: the node is set, and the module has power (R413, R445). -/
def State.fabricOn (s : State) : Bool := s.node.isSome && s.power == .on

/-- A reply sent back; a requester that cannot be reached learns of it from its own links. -/
def State.replyTo (s : State) (node cls : Nat) (bad : Bool) (fields : List Nat) : State :=
  (s.sendNode node cls bad fields).getD s

/-- Whether a request's bytes lie in this module's HBM, which alone other modules reach (R64, R292). -/
def State.ownsRange (s : State) (pa n : Nat) : Bool :=
  decide (0 < n) && !secondTier (pa + n - 1) && (s.ownerNode pa).isNone

/-- A packet that comes in by a link or leaves by it: a word that disagrees at point 0xB is recorded at the link's tower, and the
data are poisoned from there on (R24, R84, R86). -/
def State.linkCheck (s : State) (ctx line link : Nat) (bs : List Byte) : State × Bool :=
  match s.mismatch [0xB] ctx line (linkTower link) bs with
  | some (_, s) => (s, true)
  | none => (s, false)

/-- A sector, or what lies in it, of a store of another module written at its slice (R82, R86, R87, R292, R321). No leaf comes with it: the
block's own descriptor says whether it is compressible (DESIGN CHOICE, log 134). -/
def FabJob.store (j : FabJob) (s : State) (bs : Bytes) (n : Nat) : FabJob × State :=
  let s := ((s.settle j.pa n).openLines j.req.ctx j.pa n true).touch j.pa n true (bit (s.descOf j.pa) 6)
  let (s, kept) := s.writeChecked [1, 2, 3, 0xB] j.req.ctx (linkTower j.req.link) j.pa (bs.take n)
  let (good, s) :=
    if j.bad then (spoil j.good j.pa n, (linesOf j.pa n).foldl State.poison s)
    else if kept then s.cleanse j.good j.pa n
    else (spoil j.good j.pa n, s)
  ({ j with pa := j.pa + n, todo := some (bs.drop n), good := good }, s)

/-- A sector, or what lies in it, of a load of another module read at its slice (R84, R87, R292, R321). -/
def FabJob.load (j : FabJob) (s : State) (n : Nat) : FabJob × State :=
  let s := ((s.settle j.pa n).openLines j.req.ctx j.pa n false).touch j.pa n false (bit (s.descOf j.pa) 6)
  let (s, bad) := s.readChecked [1, 2, 3] j.req.ctx (linkTower j.req.link) j.pa n
  let bs := s.readPhys j.pa n
  let (s, out) := s.linkCheck j.req.ctx (j.pa / 64 * 64) ((s.linkTo j.req.src).getD j.req.link) bs
  ({ j with pa := j.pa + n, left := j.left - n, got := j.got ++ bs, bad := j.bad || bad || out }, s)

/-- The class of the answer to a load or store of another module (R433). -/
def FabJob.answerClass (j : FabJob) : Nat := if j.todo.isSome then 10 else 2

/-- The answer to a load or store of another module once it is done (R87, R433, R434). -/
def FabJob.answer (j : FabJob) (s : State) : State :=
  match j.todo with
  | some _ => s.replyTo j.req.src 10 false [j.req.source, j.req.tag, 0, 0]
  | none => s.replyTo j.req.src 2 j.bad [j.req.source, j.req.tag, 0, 0, ofBytes j.got]

/-- Bytes still to be done. -/
def FabJob.rest (j : FabJob) : Nat :=
  match j.todo with
  | some bs => bs.length
  | none => j.left

/-- A load or store of another module goes on, sector by sector, other agents acting between two sectors where a free value lets them:
behind the requests that wait for its lines, while their slices have room, and refused where a key does not fit (R79, R80, R292, R321,
R434; log 26). -/
def FabJob.run : Nat → FabJob → State → State
  | 0, j, s => { s with jobs := s.jobs ++ [j] }
  | fuel + 1, j, s =>
    if j.rest = 0 then j.answer s
    else match s.farKey j.req j.pa with
      | some (kind, s) => s.replyTo j.req.src j.answerClass false [j.req.source, j.req.tag, 1, kind]
      | none =>
        if !s.queueRoom (j.pa / 64 * 64) && !s.lineWaits (j.pa / 64 * 64) then { s with jobs := s.jobs ++ [j] }
        else
          let n := sectorPart j.pa j.rest
          let (j, s) := match j.todo with
            | some bs => j.store s bs n
            | none => j.load s n
          let s := { s with tick := s.tick + 1 }
          if j.rest ≠ 0 && Config.portYield s.tick then { s with jobs := s.jobs ++ [j] } else FabJob.run fuel j s

/-- Whether two ranges of bytes meet in a line. -/
def FabJob.meets (j : FabJob) (pa n : Nat) : Bool := (linesOf pa n).any (fun l => (linesOf j.pa j.rest).contains l)

/-- A load or store of another module that arrives: behind those not done yet that reach a line of its. -/
def State.jobArrive (s : State) (j : FabJob) : State :=
  if s.jobs.any (fun x => x.meets j.pa j.rest) then { s with jobs := s.jobs ++ [j] } else j.run (j.rest + 2) s

/-- The loads and stores of other modules that are not done go on, in the order in which they came (R292, R321). -/
def State.jobsGo (s : State) : State :=
  s.jobs.foldl (fun s j => s.jobArrive j) { s with jobs := [] }

/-- A store of another module: performed at its slice behind what waits there, and acknowledged; poisoned data leaves its lines
poisoned (R79, R80, R86, R87, R292, R321, R434). -/
def State.farStore (s : State) (q : FabReq) (pa : Nat) (data : Bytes) (poisoned : Bool) : State :=
  if !s.fabricOn || !s.ownsRange pa data.length then s else s.jobArrive ⟨q, pa, some data, 0, [], poisoned, []⟩

/-- FABRIC_STORE (R79, R80, R86, R87, R292, R434). -/
def execFabricStore (src : FabSource) (pa : Nat) (q : FabAccess) (d : FabData) (tag : Nat) (s : State) : Out :=
  .next (s.farStore ⟨src, q, tag⟩ pa d.bytes d.poisoned)

/-- A load of another module: the bytes as they stand at the slice, poisoned where a line is (R79, R80, R84, R87, R321, R433). -/
def State.farLoad (s : State) (q : FabReq) (pa len : Nat) : State :=
  if !s.fabricOn || !s.ownsRange pa len then s else s.jobArrive ⟨q, pa, none, len, [], false, []⟩

/-- FABRIC_LOAD (R79, R80, R84, R87, R433). -/
def execFabricLoad (src : FabSource) (pa : Nat) (q : FabAccess) (len tag : Nat) (s : State) : Out :=
  .next (s.farLoad ⟨src, q, tag⟩ pa len)

/-- An atomic's operation by its place in R209's list. -/
def amoOfCode : Nat → Option AmoOp
  | 0 => some .add
  | 1 => some .and
  | 2 => some .or
  | 3 => some .xor
  | 4 => some .min
  | 5 => some .max
  | 6 => some .minu
  | 7 => some .maxu
  | 8 => some .swap
  | 9 => some .cas
  | 10 => some .fadd
  | _ => none

/-- An atomic of another module: on its way through the routers where it may combine there, else at its slice (R209, R292 to R294,
R296). The reply carries the old value and flags, status 2 for poison, or status 1 and the kind of a key fault (R79, R80). A poisoned
operand leaves the line poisoned (R86, R87). -/
def State.farAtomic (s : State) (q : FabReq) (pa op : Nat) (w8 : Bool) (mode opd cmp : Nat) (poisoned comb : Bool) : State :=
  let w := if w8 then 8 else 4
  match amoOfCode op with
  | none => s
  | some code =>
    if !s.fabricOn || !s.ownsRange pa w || decide (pa % w ≠ 0) then s
    else
      let v : Visit := ⟨s.tick, q, pa, code, w8, mode, opd, cmp, poisoned, if comb then 0 else (pathIn q.link pa).length⟩
      ({ s with tick := s.tick + 1, visits := s.visits ++ [v] } : State).visitGo v

/-- FABRIC_ATOMIC (R209, R292). -/
def execFabricAtomic (q : FabReq) (pa op : Nat) (w8 : Bool) (mode : Nat) (opd cmp : Word) (poisoned : Bool) (s : State) : Out :=
  .next (s.farAtomic q pa op w8 mode opd.toNat cmp.toNat poisoned false)

/-- FABRIC_COMBINABLE_ATOMIC (R210, R296, R300, R437): whether or not switches combined it, it is one request here, and may combine in
this module's routers. A compare-and-swap is not combinable. -/
def execFabricCombinableAtomic (q : FabReq) (pa op : Nat) (w8 : Bool) (mode : Nat) (opd : Word) (poisoned : Bool) (s : State) : Out :=
  .next (if op = 9 then s else s.farAtomic q pa op w8 mode opd.toNat 0 poisoned true)

/-- FABRIC_CHAIN_STEP (R304 to R306, R308). -/
def execFabricChainStep (p : FabPacket) (s : State) : Out :=
  .next (if s.fabricOn then s.packetStep p.link p.bytes else s)

/-! ## Answers (R433, R434) -/

/-- The engine and place of a command that an answer names, when it names one: numbers from 2^20 on do (log 19). -/
def engineOf (id : Nat) : Option (Nat × Nat) := if id < 2 ^ 20 then none else some ((id - 2 ^ 20) / 64, (id - 2 ^ 20) % 64)

/-- An access of the brick in focus that is away at another module. -/
def State.awayOp (s : State) (id : Nat) : Option DevOp := (s.b.op? id).filter (fun op => op.isRemote)

/-- Bytes that come back to a load: its whole lines where it asked for them, from which the snapshot cache may fill; else the
bytes it reads, at their place in their line (R140, R204). -/
def DevOp.loaded (op : DevOp) (data : Bytes) : DevOp :=
  if op.kind = .tread then op.perform (ofBytes data) 0
  else if data.length = (linesOf op.data op.len).length * 64 then op.perform (ofBytes data) 0
  else { op.perform (ofBytes data * 2 ^ (8 * (op.va % 64))) 0 with fill := false }

/-- Whether a reply carries as many bytes as its load asked for: of a 256-byte access, one sector (R321). -/
def DevOp.takesBytes (op : DevOp) (n : Nat) : Bool :=
  if op.wide then decide (n = 32) else decide (n = op.len) || (op.kind != .tread && decide (n = (linesOf op.data op.len).length * 64))

/-- Bytes that come back to a load of the brick in focus: of one sector of a 256-byte access, whose others are still to be asked for, or
of the whole load (R204, R321). -/
def State.loadCame (s : State) (op : DevOp) (data : Bytes) : State :=
  if op.wide then
    let op := op.sectorDone op.turn (op.acc + ofBytes data * 2 ^ (256 * op.turn))
    if op.sectorsLeft = [] then (s.dropLinesOf s.b.bid op.ctx op.data op.len op.va).putOp s.b.bid (op.perform op.acc 0)
    else s.putOp s.b.bid op
  else s.putOp s.b.bid (op.loaded data)

/-- FABRIC_LOAD_REPLY (R84, R87, R204, R433): data, poisoned data (status 2), or a fault (status 1). A brick's load is delivered by
DEVICE_LOAD_COMPLETE. -/
def execFabricLoadReply (id : Nat) (data : Bytes) (r : FabEnd) (s : State) : Out :=
  .next (
    if !s.fabricOn then s
    else
      match engineOf id with
      | some (e, i) =>
        let (s, bad) := s.linkCheck 0xFFFF (((s.cmdAt e i).map CmdCtx.lineAt).getD 0) r.link data
        s.answer e i (r.status != 1) data (r.status == 2 || bad) r.kind
      | none =>
        match s.awayOp id with
        | some op =>
          if !op.kind.isLoad || op.kind.isChain then s
          else if op.kind = .bstream then
            (let (s, bad) := s.linkCheck op.ctx (op.data / 64 * 64) r.link data
             s.streamReply op data (if bad then 2 else r.status) r.kind)
          else if r.status = 1 then s.putOp s.b.bid (op.fail (faultReport .ld op.va 0xFFFF op.kind.path r.kind))
          else if !op.takesBytes data.length then s
          else
            let (s, bad) := s.linkCheck op.ctx (op.data / 64 * 64) r.link data
            if r.status = 2 || bad then s.putOp s.b.bid op.poisoned else s.loadCame op data
        | none => s)

/-- What a reply's status makes of an atomic (R294). -/
def DevOp.replied (op : DevOp) (old : Word) (flags : Flags) (status kind : Nat) : DevOp :=
  match status with
  | 0 => op.perform (old.toNat % 2 ^ (8 * min 8 op.len)) flags
  | 2 => op.poisoned
  | _ => op.fail (faultReport .st op.va 0xFFFF op.kind.path kind)

/-- The lines of an atomic's bytes as its brick finds them. -/
def State.amoLines (s : State) (n : Nat) (op : DevOp) : List Nat :=
  match s.look (s.opLook n op) op.ctx op.va with
  | .leaf pte pva _ => linesOf (leafPa pte pva op.va) op.len
  | .fault _ _ _ _ => []

/-- The reply of another module to an atomic: to it and to those combined behind it, whose lines leave their bricks' snapshots; the bricks
learn of it by DEVICE_ACCESS_REPLY (R294, R295, R299). -/
def State.amoReplied (s : State) (op : DevOp) (old : Word) (flags : Flags) (status kind : Nat) : State :=
  let n := s.b.bid
  let tree := s.treeOf n op
  let s := s.dropTree tree op.ctx (s.amoLines n op) op.va op.len
  match tree with
  | .leaf _ _ _ => s.putOp n (op.replied old flags status kind)
  | _ =>
    match status with
    | 0 => s.replyTree tree (old.toNat % 2 ^ (8 * min 8 op.len)) flags
    | 2 => s.failTree tree 2 0 (fun o => poisonedReport o.kind.ctr o.va)
    | _ => s.failTree tree 1 kind (fun o => faultReport .st o.va 0xFFFF o.kind.path kind)

/-- FABRIC_ATOMIC_REPLY (R58, R294, R295, R433). A barrier arrival's reply carries the generation in which it counted
(log 44). -/
def execFabricAtomicReply (id : Nat) (old : Word) (flags : BitVec 7) (status kind : Nat) (s : State) : Out :=
  .next (
    match (if s.fabricOn then s.awayOp id else none) with
    | some op =>
      if op.kind.isLoad || op.kind = .store then s
      else
        let s := match op.kind with
          | .bar 0 _ _ => s.tellBar op.tid op.va (if status = 0 then some (old.truncate 32) else none)
          | _ => s
        s.amoReplied op old flags status kind
    | none => s)

/-- FABRIC_CHAIN_RETURN (R307): the packet is back; CHAIN_RETURN delivers what it brings. -/
def execFabricChainReturn (id status kind step addr : Nat) (val : Word) (s : State) : Out :=
  .next (
    match (if s.fabricOn then s.awayOp id else none) with
    | some op =>
      if op.kind.isChain then s.putOp s.b.bid (op.chainBack status kind step addr val) else s
    | none => s)

/-- A store of the brick in focus, or one sector of it, that another module has performed: its count falls with the last (R321, R434). -/
def State.storeCame (s : State) (op : DevOp) : State :=
  if op.wide then
    let op := op.sectorDone op.turn op.acc
    if op.sectorsLeft = [] then (s.putOp s.b.bid (op.perform 0 0)).accessReply op.id else s.putOp s.b.bid op
  else (s.putOp s.b.bid (op.perform 0 0)).accessReply op.id

/-- FABRIC_ACKNOWLEDGEMENT (R79, R80, R434): a remote store has been performed, or its key was refused (status 1), and its count
falls. A combined atomic has its value from FABRIC_ATOMIC_REPLY. -/
def execFabricAcknowledgement (a : FabAck) (s : State) : Out :=
  .next (
    if !s.fabricOn then s
    else
      match engineOf a.id with
      | some (e, i) => s.answer e i (a.status != 1) [] false a.kind
      | none =>
        match s.awayOp a.id with
        | some op =>
          if op.kind.isLoad || decide (1 < (s.treeOf s.b.bid op).size) then s
          else if a.status = 1 then
            (s.putOp s.b.bid (op.fail (faultReport .st op.va 0xFFFF op.kind.path a.kind))).accessReply a.id
          else s.storeCame op
        | none => s)

/-! ## Collectives, gangs and time (R127, R365, R438) -/

/-- A contribution taken by the first collective under way that still wants it (R127); poisoned data poison the result (R87). -/
def CmdCtx.takePart (x : CmdCtx) (rank : Nat) (data : Bytes) (poisoned : Bool) : CmdCtx :=
  { x with parts := x.parts ++ [(rank, data)], poisoned := x.poisoned || poisoned }

/-- FABRIC_COLLECTIVE (R84, R87, R127): a rank's contribution reaches the collective engine. One that no command awaits is not
taken yet (log 45). -/
def execFabricCollective (e rank : Nat) (d : FabPart) (s : State) : Out :=
  .next (
    let i := (s.eng e).ctxs.findIdx (fun x => x.cmd.op == 4 && x.outcome.isNone && !x.parts.any (fun p => p.1 == rank) &&
      (s.groupOf x.cmd).any (fun g => decide (rank < g.nodes.length) && rank != g.rank))
    if !s.fabricOn then s
    else match s.cmdAt e i with
      | some x =>
        let (s, bad) := s.linkCheck x.cmd.ctx x.lineAt d.link d.bytes
        s.setCmd e i (x.takePart rank d.bytes (d.poisoned || bad))
      | none => s)

/-- A fabric time within 1 µs of the sender's (R438; log 41). -/
def slewed (time n : Nat) : Nat := (time + 2 ^ 64 - 1000 + n % 2001) % 2 ^ 64

/-- FABRIC_CONTROL (R365, R366, R438): the time of the module with the lowest node id, to which this one slews; a gang slice's start from
its group's rank 0; or, as a number from 16 on, another member's abort of the slice that started then (log 38). -/
def execFabricControl (src : Nat) (gang : Option Nat) (time : Nat) (s : State) : Out :=
  .next (
    if !s.fabricOn then s
    else match gang with
      | none =>
        if s.node.any (fun n => decide (src < n.id)) then
          { s with ftime := slewed time (Config.slew s.tick), tick := s.tick + 1 }
        else s
      | some i =>
        if i < 16 then
          if bit (s.gangReg i).toNat 63 && (s.gangGroup i).any (fun g => g.rank != 0 && g.nodes.head? == some src)
          then { s with gangNext := s.gangNext.erase (i, time) ++ [(i, time)] } else s
        else if (s.gangGroup (i - 16)).any (fun g => g.nodes.contains src) then { s with gangStops := s.gangStops ++ [(i - 16, time)] }
        else s)

/-- Whether the module's node id is the lowest of those it has routes to (R438). -/
def Node.lowest (n : Node) : Bool := (List.range n.id).all (fun d => n.routes.getD d [] == [])

/-- Whether the module has its time to send: it has the lowest node id, and 10 µs have passed (R438). -/
def State.syncDue (s : State) : Bool := s.fabricOn && s.node.any Node.lowest && decide (s.syncAt + 10000 ≤ s.ftime)

/-- FABRIC_TIME_SYNC (R438): every 10 µs the module with the lowest node id sends its time on every link. -/
def execFabricTimeSync (s : State) : Out :=
  .next (
    if s.syncDue then
      (List.range 36).foldl (fun s l => if (s.link l).up then s.putPacket l (Config.linkPartner l) 9 false [0, s.ftime] else s)
        { s with syncAt := s.ftime }
    else s)

end Sys2Proof.Machine
end

