-- ==== Sys2Proof/Machine/HoldUp.lean ====
section
/-!
DEFINITION. Must-save sets (R415, R416), the hold-up sequence and the keep (R413, R414, R417, R419, R444), the restart
report (R418, R422), and reset (R132, R441, R443).
-/

namespace Sys2Proof.Machine

open Sys2Proof

/-! ## Must-save sets (R415, R416) -/

/-- An entry's first page and pages (R415). -/
def mustEntry (w : Nat) : Nat × Nat := (bits w 51 12 * 4096, bits w 83 64 + 1)

/-- Whether a declaration entry has a reserved bit set (R415). -/
def mustReserved (w : Nat) : Bool :=
  decide (bits w 127 84 ≠ 0) || decide (bits w 63 52 ≠ 0) || decide (bits w 11 0 ≠ 0)

/-- Charge of an entry (R416). -/
def mustCharge (e : Nat × Nat) : Nat := 4096 * e.2 + 32 * ceilDiv (4096 * e.2) 65536

/-- Whether two entries of a list overlap (R416). -/
def mustOverlap : List (Nat × Nat) → Bool
  | [] => false
  | e :: rest => rest.any (fun x => overlaps e.1 (4096 * e.2) x.1 (4096 * x.2)) || mustOverlap rest

/-- What a page or an entry of a declaration meets: nothing, a fault to wait for with its address, or a refusal. -/
inductive MustMet where
  | fine
  | park (va : Nat) (f : Nat × Nat × Nat × Word)
  | refused
  deriving DecidableEq, Repr

/-- What reading a declaration entry meets, by a tower's dome (R416). -/
def State.mustRead (s : State) (tower ctx va : Nat) : MustMet :=
  match s.resolveIn tower ctx va .read false with
  | .ok pa => if s.poisoned pa 16 then .refused else .fine
  | .error f => if f.1 = 0 then .park va f else .refused

/-- What a page of the set meets: it must be present and writable (R92, R416). -/
def State.mustPage (s : State) (tower ctx va : Nat) : MustMet :=
  match s.resolveIn tower ctx va .write false with
  | .ok _ => .fine
  | .error f => if f.1 = 0 then .park va f else .refused

/-- Where a list of things met first has to wait. -/
def firstPark (l : List MustMet) : Option (Nat × (Nat × Nat × Nat × Word)) :=
  l.findSome? (fun m => match m with
    | .park va f => some (va, f)
    | _ => none)

/-- A context's set replaced (R416). -/
def State.putMust (s : State) (ctx : Nat) (es : List (Nat × Nat)) : State :=
  let rest := s.musts.filter (fun m => m.ctx != ctx)
  { s with musts := if es = [] then rest else rest ++ [⟨ctx, es, (es.map mustCharge).sum⟩] }

/-- The limit of the module's total charge (R416). -/
def mustLimit : Nat := 335544320

/-- A declaration's end: the result word delivered, its count lowered (R406, R416). -/
def State.mustDone (s : State) (op : DevOp) (status : Nat) : State :=
  let s := match op.stage with
    | .parked t => s.dropToken t
    | _ => s
  ((s.delOp s.b.bid op.id).deliver op.tid op.dst (status + s.charge * 2 ^ 32)).complete op.tid .st 0 none

/-- A declaration examined by the issuer's dome: it is admitted, refused, or waits for a page (R416). -/
def State.mustTry (s : State) (op : DevOp) (n : Nat) : State :=
  let tower := towerOf s.b.bid
  let at_ := fun i => op.va + 16 * i
  let s := (List.range n).foldl (fun s i => s.domeSee tower op.ctx (at_ i) 16) s
  let met := (List.range n).map (fun i => s.mustRead tower op.ctx (at_ i))
  let words := ((List.range n).filter (fun i => met.getD i .refused == .fine)).map
    (fun i => (s.readVaNat op.ctx (at_ i) 16).getD 0)
  let es := words.map mustEntry
  let wait := fun (p : Nat × (Nat × Nat × Nat × Word)) => s.opFault (domeLook tower) s.b.bid op p.1 tower p.2
  if words.any mustReserved || mustOverlap es then s.mustDone op 3
  else match firstPark met with
    | some p => wait p
    | none =>
      if met.contains .refused then s.mustDone op 2
      else
        let pages := es.flatMap (fun e => (List.range e.2).map (fun i => s.mustPage tower op.ctx (e.1 + 4096 * i)))
        if pages.contains .refused then s.mustDone op 2
        else match firstPark pages with
          | some p => wait p
          | none =>
            if mustLimit < s.charge - s.chargeOf op.ctx + (es.map mustCharge).sum then s.mustDone op 1
            else (s.putMust op.ctx es).mustDone op 0

/-- Whether a parked declaration's migration was aborted (R416). -/
def State.mustAborted (s : State) (op : DevOp) : Bool :=
  match op.stage with
  | .parked t => (s.token t).any Token.aborted
  | _ => false

/-- MSD_COMPLETE (R406, R407, R416). -/
def execMsdComplete (id : Nat) (s : State) : Out :=
  .next (match s.b.op? id with
    | none => s
    | some op =>
      match op.kind with
      | .msd n _ =>
        if s.power != .on then s
        else match op.stage with
          | .failed r => (s.delOp s.b.bid id).complete op.tid .st 0 (some r.tr)
          | _ =>
            if s.mustAborted op then s.mustDone op 2
            else if !s.free op then s
            else if 2 ^ 52 ≤ op.va then s.opFault (domeLook (towerOf s.b.bid)) s.b.bid op op.va (towerOf s.b.bid) (4, 0, 0, 0)
            else (s.settleVa op.ctx op.va (16 * n)).mustTry op n
      | _ => s)

/-! ## Freeze (R413, R414, R417) -/

/-- Whether a request travels with its leader's, or its reply is on the way back (R297, R299). -/
def State.carried (s : State) (n id : Nat) : Bool :=
  s.routers.any (fun e => e.tree.leaves.contains (n, id) && (e.tree.leader != (n, id) || e.reply.isSome))

/-- Whether the store path may perform an access as work stops: it meets no fault and waits for none, and no leader
carries it (R413, R414, R419). -/
def State.freezable (s : State) (b : Brick) (op : DevOp) : Bool :=
  (op.stage == .issued || op.stage == .queued) && b.ordered op && !s.carried b.bid op.id &&
  (match s.xlate b.dataLook op.ctx op.va .write false with
    | .ok pa => (s.ownerNode pa).isNone
    | .error _ => false)

/-- A store performed as work stops, every sector of it (R321, R413). -/
def State.freezeStore (s : State) (n id : Nat) : State :=
  (List.range 8).foldl (fun s _ => match (s.brick n).op? id with
    | some op => if op.done then s else s.performStore n op none
    | none => s) s

/-- One access performed as work stops, when it may be (R413, R414). -/
def State.freezeOp (s : State) (n id : Nat) : State :=
  match (s.brick n).op? id with
  | none => s
  | some op =>
    match op.kind with
    | .marker => if (s.brick n).ordered op then s.delOp n id else s
    | .store => if s.freezable (s.brick n) op then (s.putOp n { op with stage := .issued }).freezeStore n id else s
    | .bar _ _ _ =>
      if s.freezable (s.brick n) op then s.reach n { op with stage := .issued } op.va op.len .write (fun pa s => s.arrivalAt n op pa) else s
    | k => if k.atomic && s.freezable (s.brick n) op then s.performAtomic n { op with stage := .issued } else s

/-- Combined requests leave the wait buffers as they stand (R300, R419). -/
def State.releaseBuffers (s : State) : State :=
  { s with routers := s.routers.map (fun e => { e with waiting := false }) }

/-- Every access performed that may be, in the order of each store path (R413, R414): queued lines first. -/
def State.freezeStores (s : State) : State :=
  let s := s.wq.foldl (fun s e => e.reqs.foldl (fun s p => s.freezeOp p.1 p.2) s) { s.releaseBuffers with wq := [] }
  s.allBricks.foldl (fun s b => b.dev.foldl (fun s op => s.freezeOp b.bid op.id) s) s

/-- What holds nothing any more once work has stopped: bricks, engines, ports, queues, and what other modules asked for (R413, R419).
Registers of the domes, contexts and must-save sets stay for the save. -/
def State.stopAll (s : State) : State :=
  let f := fun (d : Dome) => { d with hw := [], rings := [], grants := [], tlbReq := none }
  { s with
    b := Brick.reset s.b.bid, peers := [], wq := [], bufs := [], routers := [], toks := [], dome0 := f s.dome0, dome1 := f s.dome1
    engs := Vector.replicate 34 ⟨[], [], [], [], []⟩, egress := [], hops := [], visits := [], jobs := [], ports := [], launches := [], ringQ := [], tasks := [], exits := []
    images := [], gangNow := [], gangNext := [], gangStops := [], notices := [], passed := [] }

/-- The bank with the newest image of a kind, by sequence (R417, R418). -/
def State.newest (s : State) (ok : Bool → Bool) : Option Nat :=
  let seq := fun (i : Nat) => (vget ⟨none, false, [], false, [], []⟩ s.keep i).hdr.bind (fun h => if ok h.2 then some h.1 else none)
  match seq 0, seq 1 with
  | some a, some b => some (if a < b then 1 else 0)
  | some _, none => some 0
  | none, some _ => some 1
  | none, none => none

/-- A keep bank. -/
def State.bank (s : State) (i : Nat) : Bank := vget ⟨none, false, [], false, [], []⟩ s.keep i

/-- The bank that a hold-up writes (R417). -/
def State.bankToWrite (s : State) : Nat :=
  match s.newest id with
  | some i => 1 - i
  | none =>
    match (s.bank 0).hdr, (s.bank 1).hdr with
    | some a, some b => if a.1 ≤ b.1 then 0 else 1
    | none, some _ => 1
    | _, none => 0

/-- The next hold-up's sequence (R417). -/
def State.nextSeq (s : State) : Nat :=
  let seq := fun (i : Nat) => ((s.bank i).hdr.map (fun h => h.1 + 1)).getD 0
  max (seq 0) (seq 1)

/-- The admitted sets, contexts in increasing number, each with its entries in index order (R417). -/
def State.directory (s : State) : List (Nat × Nat × Nat × Nat) :=
  (s.musts.mergeSort (fun a b => decide (a.ctx ≤ b.ctx))).flatMap (fun m =>
    (List.range m.ents.length).map (fun i =>
      let e := m.ents.getD i (0, 0)
      (m.ctx, i, e.1, e.2)))

/-- HOLDUP_FREEZE (R413, R414, R417, R419): work stops, then the bank's header is written, then its directory. -/
def execHoldupFreeze (s : State) : Out :=
  .next (match s.power with
    | .on => { s.freezeStores.stopAll with power := .freeze }
    | .freeze =>
      { s with
        keep := vset s.keep s.bankToWrite ⟨some (s.nextSeq, false), false, [], s.sec.locked, [], []⟩
        power := .opened }
    | .opened =>
      (match s.newest (fun _ => true) with
        | some i => { s with keep := vset s.keep i { s.bank i with dirDone := true, dir := s.directory }, power := .save }
        | none => s)
    | _ => s)

/-! ## Save and seal (R413, R417, R444) -/

/-- The segments that a directory calls for, in order: context, entry, segment, first address and pages (R417). -/
def dirSegs (dir : List (Nat × Nat × Nat × Nat)) : List (Nat × Nat × Nat × Nat × Nat) :=
  dir.flatMap (fun e =>
    let (ctx, decl, va, pages) := e
    (List.range (ceilDiv pages 16)).map (fun k => (ctx, decl, k, va + 65536 * k, min 16 (pages - 16 * k))))

/-- A segment's memory (R414). -/
def State.segBody (s : State) (ctx va npg : Nat) : List Byte :=
  (s.readVaAll ctx (npg + 1) va (4096 * npg)).getD (List.replicate (4096 * npg) 0)

/-- The segments of a directory that a number of bytes holds: the last one is cut where the bytes end (R417, R418). -/
def State.fillSegs (s : State) : List (Nat × Nat × Nat × Nat × Nat) → Nat → List Seg
  | [], _ => []
  | (ctx, decl, k, va, npg) :: rest, n =>
    if n < 32 then []
    else
      let body := s.segBody ctx va npg
      if n < 32 + body.length then [⟨ctx, decl, k, va, npg, body.take (n - 32), false⟩]
      else ⟨ctx, decl, k, va, npg, body, true⟩ :: s.fillSegs rest (n - 32 - body.length)

/-- Bytes that a bank's segments take (R417). -/
def Bank.written (b : Bank) : Nat := (b.segs.map (fun x => 32 + x.body.length)).sum

/-- Bytes of the whole save (R416, R417). -/
def Bank.size (b : Bank) : Nat := ((dirSegs b.dir).map (fun e => 32 + 4096 * e.2.2.2.2)).sum

/-- A number of further bytes saved in the open bank (R413, R417). -/
def State.saveBytes (s : State) (n : Nat) : State :=
  match s.newest (fun _ => true) with
  | none => s
  | some i =>
    let b := s.bank i
    { s with keep := vset s.keep i { b with segs := s.fillSegs (dirSegs b.dir) (b.written + n) } }

/-- Bytes of the open bank still to save. -/
def State.leftToSave (s : State) : Nat :=
  match s.newest (fun _ => true) with
  | some i => (s.bank i).size - (s.bank i).written
  | none => 0

/-- HOLDUP_SAVE (R413, R414, R417). -/
def execHoldupSave (n : Nat) (s : State) : Out := .next (if s.power == .save then s.saveBytes n else s)

/-- The crc of a segment (R417). -/
def Seg.crc (x : Seg) (hseq : Nat) : Nat :=
  let h := x.npg * 2 ^ 64 + x.seg * 2 ^ 80 + x.decl * 2 ^ 118 + x.ctx * 2 ^ 124 + x.va * 2 ^ 140 + hseq % 2 ^ 32 * 2 ^ 192
  crc32c (toBytes 32 h ++ x.body)

/-- The seal record of a context: its segment count and the crc of its segments' crcs (R417). -/
def Bank.seal (b : Bank) (ctx : Nat) : Nat × Nat × BitVec 32 :=
  let xs := b.segs.filter (fun x => x.ctx == ctx)
  let hseq := (b.hdr.map Prod.fst).getD 0
  (ctx, xs.length, BitVec.ofNat 32 (crc32c (xs.flatMap (fun x => toBytes 4 (x.crc hseq)))))

/-- The open bank sealed (R417). -/
def State.sealBank (s : State) : State :=
  match s.newest (fun _ => true) with
  | none => s
  | some i =>
    let b := s.bank i
    { s with
      keep := vset s.keep i { b with seals := (b.dir.map Prod.fst).dedup.map b.seal, hdr := b.hdr.map (fun h => (h.1, true)) }
      power := .sealed }

/-- Whether every segment of the open bank has been saved. -/
def State.saved (s : State) : Bool := decide (s.leftToSave = 0)

/-- HOLDUP_SEAL (R413, R417). -/
def execHoldupSeal (s : State) : Out := .next (if s.power == .save && s.saved then s.sealBank else s)

/-! ## Reset (R132, R439, R441, R443) -/

/-- Whether a firmware slot holds a bootable image (R441). -/
def bootable (x : Option Bytes) : Bool :=
  match x with
  | some i => Config.firmwareValid i && decide (Config.minVersion ≤ Config.firmwareVersion i)
  | none => false

/-- The slot that boots: the valid one with the higher version (R441). -/
def Sec.bootSlot (c : Sec) : Option Nat :=
  let a := vget none c.fw 0
  let b := vget none c.fw 1
  match bootable a, bootable b with
  | true, true => some (if Config.firmwareVersion (a.getD []) < Config.firmwareVersion (b.getD []) then 1 else 0)
  | true, false => some 0
  | false, true => some 1
  | false, false => none

/-- The security controller after a boot: the debug level and nonce gone, the lock fuse and the flash as they were (R439
to R441). -/
def Sec.boot (c : Sec) : Sec :=
  { Sec.reset with
    locked := c.locked, nonces := c.nonces, fw := c.fw, active := c.bootSlot, recovery := c.bootSlot.isNone, boots := c.boots + 1 }

/-- The module booted: everything at its reset value but the keep, the fuses, the boot flash and the parts in service. -/
def State.boot (s : State) : State :=
  { State.reset with keep := s.keep, sec := s.sec.boot, inServ := s.inServ, tick := s.tick, agenda := s.agenda }

/-- RESET (R132, R441). -/
def execReset (s : State) : Out := .next s.boot

/-- SUPPLY_RETURN (R419): the sequence runs through seal, then the module resets and boots. -/
def execSupplyReturn (s : State) : Out :=
  .next (
    let opened := fun (s : State) => match s.newest (fun _ => true) with
      | some i => ({ s with keep := vset s.keep i { s.bank i with dirDone := true, dir := s.directory } } : State)
      | none => s
    let whole := fun (s : State) => match s.newest (fun _ => true) with
      | some i => s.saveBytes (s.bank i).size
      | none => s
    match s.power with
    | .freeze =>
      let s := { s with keep := vset s.keep s.bankToWrite ⟨some (s.nextSeq, false), false, [], s.sec.locked, [], []⟩ }
      (whole (opened s)).sealBank.boot
    | .opened => (whole (opened s)).sealBank.boot
    | .save => (whole s).sealBank.boot
    | .sealed => s.boot
    | _ => s)

/-- SUPPLY_END (R413, R417): the energy runs out; nothing but the keep, the fuses and the flash holds anything. -/
def execSupplyEnd (s : State) : Out :=
  .next (match s.power with
    | .on => s
    | .off => s
    | _ => { State.reset with keep := s.keep, sec := s.sec, inServ := s.inServ, tick := s.tick, agenda := s.agenda, power := .off })

/-! ## The restart report (R418, R422, R444) -/

/-- Status of a segment that a bank's directory calls for: 0 whole, 1 torn, 2 absent (R418, R444). -/
def Bank.status (b : Bank) (locked : Bool) (e : Nat × Nat × Nat × Nat × Nat) : Nat :=
  match b.segs.find? (fun x => x.ctx == e.1 && x.decl == e.2.1 && x.seg == e.2.2.1) with
  | none => if b.locked == locked then 2 else 1
  | some x =>
    let sealed_ := (b.hdr.map Prod.snd).getD false
    if sealed_ && x.whole && b.locked == locked && b.seals.contains (b.seal e.1) then 0 else 1

/-- A report entry (R418). -/
def reportEntry (e : Nat × Nat × Nat × Nat × Nat) (status : Nat) : List Byte :=
  let (ctx, decl, k, va, npg) := e
  toBytes 16 (status + npg * 2 ^ 33 + k * 2 ^ 38 + decl * 2 ^ 54 + ctx * 2 ^ 60 + va * 2 ^ 76)

/-- The restart report's header and its entries from an index (R418, R422). -/
def State.report (s : State) (start : Nat) : List Byte :=
  match s.newest (fun _ => true) with
  | none => toBytes 16 2
  | some i =>
    let b := s.bank i
    let es := if b.dirDone then dirSegs b.dir else []
    let (seq, sealed_) := b.hdr.getD (0, false)
    toBytes 16 ((if sealed_ then 1 else 0) + es.length % 2 ^ 32 * 2 ^ 32 + seq % 2 ^ 32 * 2 ^ 64) ++
      ((es.drop start).take 4095).flatMap (fun e => reportEntry e (b.status s.sec.locked e))

end Sys2Proof.Machine
end

