-- ==== Sys2Proof/Machine/Host.lean ====
section
/-!
DEFINITION. The management queue pair (R425 to R431, R438 to R443), configuration space (R29 to R32), debug halts and the
lock fuse (R439, R440).
-/

namespace Sys2Proof.Machine

open Sys2Proof

/-! ## Messages (R425) -/

/-- The 16-byte header of a response (R425). -/
def mgmtHeader (h : MgmtHeader) (op status len : Nat) : List Byte :=
  toBytes 16 (op + status * 2 ^ 8 + h.tag.toNat * 2 ^ 16 + len * 2 ^ 32 + h.arg.toNat * 2 ^ 64)

/-- A response sent (R425). -/
def State.respond (s : State) (h : MgmtHeader) (op status : Nat) (payload : List Byte) : State :=
  s.egressOn h.port (mgmtHeader h op status payload.length ++ payload)

/-- Whether a port still performs a command: a Clear key that has not completed (R425, R443). -/
def State.portBusy (s : State) (port : Nat) : Bool :=
  s.keys.any (fun k => (k.clearing.getD []).any (fun h => h.port == port))

/-- Whether the module takes a management command now: its port is in service, the module has power, and the port's command
before it has completed (R32, R413, R425). -/
def State.hears (s : State) (h : MgmtHeader) : Bool :=
  decide (h.port < 4) && s.inServ.eth.getLsbD h.port && s.power == .on && !s.portBusy h.port

/-- Commands that recovery accepts (R441). -/
def inRecovery (op : Nat) : Bool := op == 1 || op == 0xA || op == 0x10 || op == 0x11

/-- A command: not heard, denied in recovery, malformed by its length or its fields, or performed (R425, R427, R441). -/
def State.command? (s : State) (h : MgmtHeader) (pl : Bytes) (op : Nat) (bad : Bool) (k : State → State) : Out :=
  .next (
    if !s.hears h then s
    else if s.sec.recovery && !inRecovery op then s.respond h op 2 []
    else if decide (h.len ≠ pl.length) || decide (65536 < pl.length) || decide (h.status ≠ 0) || bad then s.respond h op 1 []
    else k s)

/-- A management command of an op of no row of R425; those of the table have an event each. -/
def State.manage (s : State) (h : MgmtHeader) (op : Nat) (pl : Bytes) : Out :=
  if 1 ≤ op ∧ op ≤ 0x14 then .next s else s.command? h pl (op % 256) true id

/-- A little-endian number in a payload. -/
def field (pl : Bytes) (off n : Nat) : Nat := ofBytes ((pl.drop off).take n)

/-! ## Configuration space (R29 to R32) -/

/-- A capability entry: its header and its contents in 8-byte words (R30). -/
def capEntry (id next : Nat) (words : List Nat) : List Byte :=
  toBytes 8 (id + 2 ^ 16 + (words.length + 1) * 2 ^ 24 + next * 2 ^ 32) ++ words.flatMap (toBytes 8)

/-- The brick map (R32). -/
def State.brickMap (s : State) : List Nat :=
  (List.range 12).map (fun k => pack 1 (fun j => if s.inServ.retired.contains (64 * k + j) then 0 else 1) 64)

/-- The security state's code (R439). -/
def Sec.code (c : Sec) : Nat := if !c.locked then 0 else if c.level = 0 then 1 else 2

/-- Configuration space: the header, the seven entries of R32 in order from 0x0010, and zeros (R29 to R32; log 39). -/
def State.config (s : State) : List Byte :=
  let v := s.inServ
  let bs :=
    toBytes 16 (0x0C5E + 0x4B02 * 2 ^ 16 + 0xA3 * 2 ^ 32 + 0x10 * 2 ^ 64) ++
    capEntry 1 0x78 s.brickMap ++ capEntry 2 0x88 [v.hbm.toNat] ++ capEntry 3 0x98 [v.channels.toNat + 64 * 2 ^ 32] ++
    capEntry 4 0xA8 [16384 + 40 * 2 ^ 32] ++ capEntry 5 0xB8 [v.eth.toNat + v.fab.toNat * 2 ^ 8] ++
    capEntry 6 0xC8 [v.routines % 65536] ++ capEntry 7 0 [s.sec.code]
  bs ++ List.replicate (65536 - bs.length) 0

/-- READ_CONFIGURATION (R29 to R32, R427). DESIGN CHOICE: it is the one reader of configuration space. The prose beside R29 has
privileged brick code and dome firmware read it through system registers too, but R380 lists none that holds it, and a number R380 does
not list traps (R381), which the model follows: no `rsr` reads configuration space (log 119). Unsafe. -/
def execReadConfiguration (h : MgmtHeader) (pl : Bytes) (s : State) : Out :=
  let off := fld h.arg 31 0
  let n := fld h.arg 63 32
  s.command? h pl 1 (decide (pl ≠ []) || decide (off % 8 ≠ 0) || decide (n % 8 ≠ 0) || decide (n < 8) || decide (65536 < n) ||
      decide (65536 < off + n))
    (fun s => s.respond h 1 0 ((s.config.drop off).take n))

/-! ## Dome registers (R426, R427) -/

/-- READ_DOME_REGISTER (R426, R427). -/
def execReadDomeRegister (h : MgmtHeader) (pl : Bytes) (s : State) : Out :=
  let num := fld h.arg 15 0
  let tower := fld h.arg 16 16
  s.command? h pl 2 (decide (pl ≠ []) || decide (fld h.arg 63 17 ≠ 0) || (s.domeReg tower num).isNone)
    (fun s => s.respond h 2 0 (toBytes 8 ((s.domeReg tower num).getD 0).toNat))

/-- Whether a dome register is listed in R426. -/
def domeListed (num : Nat) : Bool :=
  decide (num ≤ 0xB) || (decide (0x10 ≤ num) && decide (num ≤ 0x17)) || (decide (0x20 ≤ num) && decide (num ≤ 0x2F))

/-- WRITE_DOME_REGISTER (R426, R427): registers that only firmware writes are denied. -/
def execWriteDomeRegister (h : MgmtHeader) (pl : Bytes) (s : State) : Out :=
  let num := fld h.arg 15 0
  let tower := fld h.arg 16 16
  let v : Word := BitVec.ofNat 64 (field pl 0 8)
  s.command? h pl 3 (decide (pl.length ≠ 8) || decide (fld h.arg 63 17 ≠ 0) || !domeListed num)
    (fun s =>
      if num = 0 ∨ num = 1 ∨ num = 3 then s.respond h 3 2 []
      else
        let s := if num = 2 then s.askPreempt tower v
          else if num = 5 then s.clearCounters tower
          else s.setDome tower ((s.dome tower).write num v)
        s.respond h 3 0 [])

/-! ## Contexts (R428) -/

/-- A key slot emptied in every base die: what its key encrypts stays as it is stored, and the Clear key commands that wait for it are
answered (R76, R443). -/
def State.emptySlot (s : State) (slot : Nat) : State :=
  let waits := ((s.keys.find? (fun k => k.slot == slot)).bind KeySlot.clearing).getD []
  let s := s.sealSlot slot
  let s : State := { s with keys := s.keys.filter (fun x => x.slot != slot) }
  waits.foldl (fun s h => s.respond h 9 0 []) s

/-- Whether an access under a key slot that has reached a base die waits there still: a queued one of a brick or of another module, or
the next write of a command (R443). -/
def State.underSlot (s : State) (slot : Nat) : Bool :=
  s.wq.any (fun e => e.reqs.any (fun p => ((s.brick p.1).op? p.2).any (fun op =>
    s.keyOf (s.opLook p.1 op) op.ctx op.va == slot))) ||
  s.visits.any (fun v => v.req.key == slot && s.visitWaits v) || s.jobs.any (fun j => j.req.key == slot) ||
  s.engs.toList.any (fun g => g.ctxs.any (fun x => match x.todo with
    | .block _ _ key _ _ :: _ => key == slot
    | .phys pa _ _ :: _ => s.frameKey pa == slot
    | _ => false))

/-- A key slot that is to be cleared: at once where no access under it is at a base die, else when the last has been performed (R428,
R443). -/
def State.clearSlot (s : State) (slot : Nat) (hs : List MgmtHeader) : State :=
  let s := { s with keys := s.keys.map (fun k => if k.slot = slot then { k with clearing := some (k.clearing.getD [] ++ hs) } else k) }
  if s.underSlot slot then s else s.emptySlot slot

/-- A task of a destroyed context killed; one whose record cannot be read or is malformed leaves its brick all the same (R351, R428). -/
def State.killTask (s : State) (t : Task) : State :=
  let s := s.killOne (towerOf t.brick) t.ctx t.recVa
  if s.tasks.any (fun x => x.tid == t.tid) then s.stopTask t else s

/-- A context destroyed: its tasks killed, its launches and queue entries gone, its must-save set withdrawn, its key slots cleared
(R428). -/
def State.destroy (s : State) (ctx : Nat) : State :=
  let s := (s.tasks.filter (fun t => t.ctx == ctx)).foldl State.killTask s
  let s := (s.keys.filter (fun k => k.ctx == ctx)).foldl (fun s k => s.clearSlot k.slot []) s
  let strike := fun (d : Dome) => d.strike (fun e => e.ctx == ctx)
  { s with
    dome0 := strike s.dome0
    dome1 := strike s.dome1
    launches := s.launches.filter (fun l => l.ctx != ctx)
    ringQ := s.ringQ.filter (fun l => l.ctx != ctx)
    exits := s.exits.filter (fun e => e.task.ctx != ctx)
    musts := s.musts.filter (fun m => m.ctx != ctx) }

/-- Dome firmware gives a context class 2, which no host command can (R428). -/
def State.startup (s : State) (ctx : Nat) : State :=
  match s.ctxEnt ctx with
  | some e => { s with ctxTab := cset 0 s.ctxTab ctx (BitVec.ofNat 256 (setBits e 2 1 2)) }
  | none => s

/-- A context's entry written; a context that becomes valid has its ring read (R428, R430). -/
def State.putContext (s : State) (ctx : Nat) (e : BitVec 256) : State :=
  let was := (s.ctxEnt ctx).isSome
  let now := bit e.toNat 0
  let s := if was && !now then s.destroy ctx else s
  let s := { s with ctxTab := cset 0 s.ctxTab ctx e, bufs := s.bufs.filter (fun b => b.ctx != ctx) }
  if !was && now then s.takeRing ctx else s

/-- SET_CONTEXT (R416, R428, R430). -/
def execSetContext (h : MgmtHeader) (pl : Bytes) (s : State) : Out :=
  let e := field pl 0 32
  s.command? h pl 4 (decide (pl.length ≠ 32) || decide (4096 ≤ h.arg.toNat) || decide (bits e 2 1 = 3) || decide (22 < bits e 7 3))
    (fun s =>
      if bits e 2 1 = 2 then s.respond h 4 2 []
      else (s.putContext h.arg.toNat (BitVec.ofNat 256 e)).respond h 4 0 [])

/-- SET_WINDOW (R427, R429). -/
def execSetWindow (h : MgmtHeader) (pl : Bytes) (s : State) : Out :=
  let e := field pl 0 32
  s.command? h pl 5 (decide (pl.length ≠ 32) || decide (256 ≤ h.arg.toNat) || decide (bits e 73 1 ≠ 0))
    (fun s => ({ s with win := cset 0 s.win h.arg.toNat (BitVec.ofNat 256 e) } : State).respond h 5 0 [])

/-- SET_REGION (R424, R427): the answer carries the rkey, which the module chooses (log 15). A context that does not exist
is absent. -/
def execSetRegion (h : MgmtHeader) (pl : Bytes) (s : State) : Out :=
  let va := field pl 0 8
  let n := field pl 8 8
  s.command? h pl 6 (decide (pl.length ≠ 16) || decide (4096 ≤ h.arg.toNat) || decide (2 ^ 52 ≤ va) || decide (n = 0))
    (fun s =>
      if (s.ctxEnt h.arg.toNat).isNone then s.respond h 6 4 []
      else
        let key := Config.regionKey s.tick
        ({ s with regions := s.regions ++ [⟨key, h.arg.toNat, va, n⟩], tick := s.tick + 1 } : State).respond h 6 0
          (toBytes 4 key.toNat))

/-! ## Keys (R443) -/

/-- OPEN_KEY_TRANSPORT (R427, R443). -/
def execOpenKeyTransport (h : MgmtHeader) (pl : Bytes) (s : State) : Out :=
  s.command? h pl 7 (decide (pl ≠ []) || decide (h.arg ≠ 0))
    (fun s =>
      let n := s.sec.transports + 1
      ({ s with sec := { s.sec with transports := n } } : State).respond h 7 0 (toBytes 1184 (Config.encapsulationKey n).toNat))

/-- LOAD_KEY (R427, R443): the key is unwrapped against the last transport; a slot in use is busy. -/
def execLoadKey (h : MgmtHeader) (pl : Bytes) (s : State) : Out :=
  let slot := fld h.arg 6 0
  let ctx := fld h.arg 31 16
  s.command? h pl 8 (decide (pl.length ≠ 1128) || decide (slot = 0) || decide (fld h.arg 15 7 ≠ 0) || decide (fld h.arg 63 32 ≠ 0))
    (fun s =>
      if s.keys.any (fun k => k.slot == slot) then s.respond h 8 3 []
      else match (if s.sec.transports = 0 then none else Config.unwrapKey s.sec.transports pl) with
        | some key => ({ s with keys := s.keys ++ [⟨slot, ctx, key, none⟩] } : State).respond h 8 0 []
        | none => s.respond h 8 1 [])

/-- CLEAR_KEY (R427, R443): answered once the slot is empty. -/
def execClearKey (h : MgmtHeader) (pl : Bytes) (s : State) : Out :=
  let slot := fld h.arg 6 0
  s.command? h pl 9 (decide (pl ≠ []) || decide (slot = 0) || decide (fld h.arg 63 7 ≠ 0))
    (fun s => if s.keys.any (fun k => k.slot == slot) then s.clearSlot slot [h] else s.respond h 9 0 [])

/-- KEY_SLOT_CLEARED (R76, R443): every access under the slot that reached a base die has been performed or has faulted; what the
slot's key encrypts stays as it is stored. -/
def execKeySlotCleared (slot : Nat) (s : State) : Out :=
  .next (if s.keys.any (fun k => k.slot == slot && k.clearing.isSome) && !s.underSlot slot then s.emptySlot slot else s)

/-! ## Attestation and debug (R439, R440, R442) -/

/-- What a quote is made over: nonce, firmware digest, the loaded routine slots with their digests, security state, debug level,
digest of configuration space, certificate (R442; log 8). -/
def State.quoteInputs (s : State) (nonce : List Byte) : List Byte :=
  let digest := fun (bs : List Byte) => toBytes 32 (Config.digest bs).toNat
  let fw := match s.sec.active with
    | some i => (vget none s.sec.fw i).getD []
    | none => []
  let slots := (List.range s.inServ.routines).flatMap (fun i =>
    (s.slots.filter (fun p => p.1 == i)).flatMap (fun p => toBytes 2 i ++ digest p.2))
  nonce ++ digest fw ++ slots ++ toBytes 1 s.sec.code ++ toBytes 1 s.sec.level ++ digest s.config ++ Config.certificate s.sec.boots

/-- A quote: what it is made over, then the attestation key's signature over all of it (R442; log 8). -/
def State.quote (s : State) (nonce : List Byte) : List Byte :=
  let msg := s.quoteInputs nonce
  msg ++ toBytes 3309 (Config.attest s.sec.boots msg).toNat

/-- ATTEST (R427, R442). -/
def execAttest (h : MgmtHeader) (pl : Bytes) (s : State) : Out :=
  s.command? h pl 0xA (decide (pl.length ≠ 32) || decide (h.arg ≠ 0)) (fun s => s.respond h 0xA 0 (s.quote pl))

/-- DEBUG_NONCE (R427, R440). -/
def execDebugNonce (h : MgmtHeader) (pl : Bytes) (s : State) : Out :=
  s.command? h pl 0xB (decide (pl ≠ []) || decide (h.arg ≠ 0))
    (fun s =>
      let x := toBytes 32 (Config.nonce s.sec.nonces).toNat
      ({ s with sec := { s.sec with nonce := some x, nonces := s.sec.nonces + 1 } } : State).respond h 0xB 0 x)

/-- Whether an unlock token holds: development needs none (R439, R440). -/
def Sec.tokenHolds (c : Sec) (sig msg : List Byte) : Bool :=
  let level := field msg 64 1
  (level == 1 || level == 2) &&
  (!c.locked || (msg.take 32 == toBytes 32 Config.identityDigest.toNat && c.nonce == some ((msg.drop 32).take 32) && Config.debugTokenValid sig msg))

/-- DEBUG_UNLOCK (R427, R439, R440): a token that uses the last nonce spends it, whether or not it holds. -/
def execDebugUnlock (h : MgmtHeader) (pl : Bytes) (s : State) : Out :=
  s.command? h pl 0xC (decide (pl.length ≠ 3376) || decide (h.arg ≠ 0))
    (fun s =>
      let sig := pl.take 3309
      let msg := pl.drop 3309
      let ok := s.sec.tokenHolds sig msg
      let s := if s.sec.nonce = some ((msg.drop 32).take 32) then { s with sec := { s.sec with nonce := none } } else s
      if ok then
        ({ s with sec := { s.sec with level := field msg 64 1, dbgCtx := field msg 65 2 } } : State).respond h 0xC 0 []
      else s.respond h 0xC 2 [])

/-- DEBUG_REVOKE (R427, R439). -/
def execDebugRevoke (h : MgmtHeader) (pl : Bytes) (s : State) : Out :=
  s.command? h pl 0xD (decide (pl ≠ []) || decide (h.arg ≠ 0))
    (fun s => ({ s with sec := { s.sec with level := 0 } } : State).respond h 0xD 0 [])

/-- Whether the debug level reaches a context: without a token every one, else that of the token (R439, R440). -/
def Sec.reaches (c : Sec) (ctx : Nat) : Bool := !c.locked || c.dbgCtx == 0xFFFF || c.dbgCtx == ctx

/-- The status of what a debugger asks of a brick at a level: 2 denied, 4 where its domain is not active or it runs no task, else 0
(R439; log 130). -/
def State.debugStatus (s : State) (n level : Nat) : Nat :=
  let b := s.brick n
  if s.sec.level < level then 2
  else if !(decide (n < 768) && s.domState n == 0 && b.running) then 4
  else if s.sec.reaches b.t.ctx then 0 else 2

/-- An answer to the debugger: a status, and what it asked for (R439; log 130). -/
def State.tellDebug (s : State) (status : Nat) (bs : List Byte) : State :=
  { s with out := s.out ++ [(40, toBytes 1 status ++ bs)] }

/-- Whether a debugger may halt the task of a brick (R439). -/
def State.mayHalt (s : State) (n : Nat) : Bool := s.power == .on && s.debugStatus n 2 == 0

/-- HALT (R155, R439): suspended during hold-up; one that is refused has its status. -/
def execHalt (brick : Nat) (s : State) : Out :=
  .next (
    if s.power != .on then s
    else if s.mayHalt brick then (s.setBrick brick { s.brick brick with halted := true }).tellDebug 0 []
    else s.tellDebug (s.debugStatus brick 2) [])

/-- The level that an access of a debugger needs: halt for registers and local stores, trace for counters and dispatch (R439). -/
def DebugAcc.level : DebugAcc → Nat
  | .counters => 1
  | .dispatch => 1
  | _ => 2

/-- Whether an access of a debugger names what the brick has, and finds it at rest where it needs that (R128, R439). -/
def DebugAcc.fits (a : DebugAcc) (b : Brick) : Bool :=
  let range := fun (space off len : Nat) => decide (space < 3) && inSpace space off len
  match a with
  | .readReg n => decide (n < 64) && b.halted
  | .writeReg n _ => decide (n < 64) && b.halted
  | .readLocal space off len => range space off len && b.halted
  | .writeLocal space off data => range space off data.length && b.halted
  | .counters => true
  | .dispatch => true

/-- An access of a debugger: what it answers, and the brick it leaves (R439; log 130). -/
def DebugAcc.run (a : DebugAcc) (b : Brick) : List Byte × Brick :=
  match a with
  | .readReg n => (toBytes 8 (vget 0 b.r.g n).toNat, b)
  | .writeReg n v => ([], { b with r := { b.r with g := vset b.r.g n v } })
  | .readLocal space off len => (b.loc.read space off len, b)
  | .writeLocal space off data => ([], b.storeLocal space off data)
  | .counters => ([b.cnt.ld, b.cnt.st, b.cnt.cp, b.cnt.mx, b.cyc].flatMap (toBytes 8), b)
  | .dispatch => ([b.t.ctx, b.t.recVa, b.t.launch].flatMap (toBytes 8), b)

/-- A debugger's access to a brick; suspended during hold-up (R439). -/
def State.debug (s : State) (n : Nat) (a : DebugAcc) : State :=
  if s.power != .on then s
  else
    let status := s.debugStatus n a.level
    if status ≠ 0 then s.tellDebug status []
    else if a.fits (s.brick n) then
      let (bs, b) := a.run (s.brick n)
      (s.setBrick n b).tellDebug 0 bs
    else s.tellDebug 1 []

/-- HALT_RESUME (R439): a gate request that waited goes on. -/
def execHaltResume (brick : Nat) (s : State) : Out :=
  .next (
    if (s.brick brick).halted then
      (s.setBrick brick { s.brick brick with halted := false }).drainRequests (domainOf brick)
    else s)

/-- LOCK_FUSE_BLOW (R439). -/
def execLockFuseBlow (s : State) : Out :=
  .next (if s.sec.locked then s else { s with sec := { s.sec with locked := true, level := 0 } })

/-! ## The keep, firmware and logs (R418, R422, R427, R441) -/

/-- RESTART_REPORT (R418, R422, R427). -/
def execRestartReport (h : MgmtHeader) (pl : Bytes) (s : State) : Out :=
  s.command? h pl 0xE (decide (pl ≠ []) || decide (fld h.arg 31 0 ≠ 0))
    (fun s => s.respond h 0xE 0 (s.report (fld h.arg 63 32)))

/-- READ_KEEP (R427): the body of a segment that stands whole or torn in a bank. -/
def execReadKeep (h : MgmtHeader) (pl : Bytes) (s : State) : Out :=
  s.command? h pl 0xF (decide (pl ≠ []) || decide (fld h.arg 31 1 ≠ 0))
    (fun s =>
      let b := s.bank (fld h.arg 0 0)
      match (dirSegs b.dir)[fld h.arg 63 32]? with
      | some e =>
        (match b.segs.find? (fun x => x.ctx == e.1 && x.decl == e.2.1 && x.seg == e.2.2.1) with
          | some x => if b.locked == s.sec.locked then s.respond h 0xF 0 x.body else s.respond h 0xF 4 []
          | none => s.respond h 0xF 4 [])
      | none => s.respond h 0xF 4 [])

/-- STAGE_FIRMWARE (R427, R441). -/
def execStageFirmware (h : MgmtHeader) (pl : Bytes) (s : State) : Out :=
  s.command? h pl 0x10 (decide (fld h.arg 63 32 ≠ 0))
    (fun s =>
      let off := fld h.arg 31 0
      ({ s with sec := { s.sec with
          staged := writeBytes s.sec.staged off pl, stagedLen := max s.sec.stagedLen (off + pl.length) } } : State).respond h 0x10 0 [])

/-- COMMIT_FIRMWARE (R427, R441): the staged image goes to the inactive slot, which boots only when it verifies. -/
def execCommitFirmware (h : MgmtHeader) (pl : Bytes) (s : State) : Out :=
  s.command? h pl 0x11 (decide (pl ≠ []) || decide (h.arg ≠ 0))
    (fun s =>
      let c := s.sec
      let image := readBytes c.staged 0 c.stagedLen
      let slot := if c.active = some 0 then 1 else 0
      let ok := bootable (some image)
      ({ s with sec := { c with fw := vset c.fw slot (some image), staged := [], stagedLen := 0 } } : State).respond
        h 0x11 (if ok then 0 else 1) [])

/-- Whether collective or gang work uses a group (R438). -/
def State.groupUsed (s : State) (i : Nat) : Bool :=
  s.engs.toList.any (fun e => e.ctxs.any (fun c => c.cmd.op == 4 && bits c.cmd.aux 25 10 == i) ||
    e.queue.any (fun c => c.op == 4 && bits c.aux 25 10 == i)) ||
  s.gangNow.any (fun g => fld (s.gangReg g.idx) 31 16 == i) || s.gangNext.any (fun p => fld (s.gangReg p.1) 31 16 == i)

/-- SET_GROUP (R427, R438). -/
def execSetGroup (h : MgmtHeader) (pl : Bytes) (s : State) : Out :=
  let n := field pl 0 2
  let rank := field pl 2 2
  let nodes := (List.range n).map (fun i => field pl (4 + 2 * i) 2)
  s.command? h pl 0x12 (decide (pl.length ≠ 4 + 2 * n) || decide (65536 ≤ h.arg.toNat) || decide (n = 0) || decide (1024 < n) ||
      decide (n ≤ rank) || nodes.any (fun d => decide (1024 ≤ d)))
    (fun s =>
      if s.groupUsed h.arg.toNat then s.respond h 0x12 3 []
      else
        ({ s with groups := ⟨h.arg.toNat, rank, nodes⟩ :: s.groups.filter (fun g => g.index != h.arg.toNat) } : State).respond h 0x12 0 [])

/-- SET_NODE (R427, R434). -/
def execSetNode (h : MgmtHeader) (pl : Bytes) (s : State) : Out :=
  let node := field pl 0 2
  let entry := fun (d : Nat) => (List.range 4).map (fun i => field pl (4 + 4 * d + i) 1)
  let all := (List.range 1024).map entry
  s.command? h pl 0x13 (decide (pl.length ≠ 4100) || decide (1024 ≤ node) || decide (field pl 2 2 ≠ 0) || decide (h.arg ≠ 0) ||
      all.any (fun r => r.any (fun l => decide (36 ≤ l) && decide (l ≠ 0xFF))))
    (fun s =>
      ({ s with node := some ⟨node, all.map (fun r => r.filter (fun l => decide (l < 36)))⟩ } : State).respond h 0x13 0 [])

/-- Records taken from the front of a queue, as many as a response holds (R425, R427). -/
def takeLog {n : Nat} (q : List (BitVec n)) (most : Nat) : List Byte × List (BitVec n) :=
  let k := min most (65536 / (n / 8))
  ((q.take k).flatMap (fun r => toBytes (n / 8) r.toNat), q.drop k)

/-- READ_LOGS (R86, R96, R109, R376, R427). -/
def execReadLogs (h : MgmtHeader) (pl : Bytes) (s : State) : Out :=
  let q := fld h.arg 3 0
  let tower := fld h.arg 4 4
  let most := fld h.arg 63 32
  s.command? h pl 0x14 (decide (pl ≠ []) || decide (3 < q) || decide (fld h.arg 31 5 ≠ 0))
    (fun s =>
      let d := s.dome tower
      let (bs, d) := match q with
        | 0 => (let (bs, l) := takeLog d.faultQ most; (bs, ({ d with faultQ := l } : Dome).moveOwed))
        | 1 => (let (bs, l) := takeLog d.trapLog most; (bs, { d with trapLog := l }))
        | 2 => (let (bs, l) := takeLog d.hintQ most; (bs, { d with hintQ := l }))
        | _ => (let (bs, l) := takeLog d.cwQ most; (bs, { d with cwQ := l }))
      (s.setDome tower d).respond h 0x14 0 bs)

end Sys2Proof.Machine
end

