-- ==== Sys2Proof/Machine/Integer.lean ====
section
/-!
DEFINITION. The integer units (R170 to R173).
-/

namespace Sys2Proof.Machine

open Sys2Proof

/-- The operand latch of a unit (R170). -/
def iaOperand : Ia → OpdL
  | .ia0 => .ia0o
  | .ia1 => .ia1o

/-- The result latches of a unit (R170). -/
def iaResults : Ia → ResL × ResL
  | .ia0 => (.ia0r, .ia0h)
  | .ia1 => (.ia1r, .ia1h)

/-- The carry into `adc` and `sbc`: bit 0 of the unit's `h` at the start of the cycle (R173). -/
def State.iaCarry (s : State) (u : Ia) : Bool := bit (s.b.r.res.get (iaResults u).2).toNat 0

/-- An integer operation: both results of the moved value, the unit's operand and its carry, after L cycles (R170). -/
def State.ia (s : State) (gd : Guard) (u : Ia) (x : Src) (L : Nat) (f : Word → Word → Bool → Word × Word) : Out :=
  s.guarded gd (fun s =>
    let p := f (s.src x) (s.opd (iaOperand u)) (s.iaCarry u)
    .next ((s.launchOp L (.res (iaResults u).1 p.1)).launchOp L (.res (iaResults u).2 p.2)))

/-- The most negative value. -/
def minInt : Word := 0x8000000000000000

/-- The carry of a sum (R172, R173). -/
def carry (a b : Word) (c : Bool) : Word := ofBool (decide (2 ^ 64 ≤ a.toNat + b.toNat + c.toNat))

/-- The borrow of a difference (R172, R173). -/
def borrow (a b : Word) (c : Bool) : Word := ofBool (decide (a.toNat < b.toNat + c.toNat))

/-- A signed value clamped to 64 bits, and whether it was (R172). -/
def clampInt (i : Int) : Word × Word :=
  if i < -(2 ^ 63) then (minInt, 1)
  else if 2 ^ 63 ≤ i then (~~~minInt, 1)
  else (BitVec.ofInt 64 i, 0)

/-- The low and high halves of a 128-bit product (R172). -/
def wide (i : Int) : Word × Word := (BitVec.ofInt 64 i, BitVec.ofInt 64 (i / 2 ^ 64))

/-- The field of `bext` and `bexts`, with its width (R173). -/
def fieldOf (a b : Word) : Nat × Nat :=
  let w := min (fld b 14 8) 64
  (a.toNat / 2 ^ fld b 5 0 % 2 ^ w, w)

/-- The signed quotient and remainder (R173). -/
def divS (a b : Word) : Word × Word :=
  if b = 0 then (-1, a)
  else (BitVec.ofInt 64 (a.toInt.tdiv b.toInt), BitVec.ofInt 64 (a.toInt.tmod b.toInt))

/-- The unsigned quotient and remainder (R173). -/
def divU (a b : Word) : Word × Word :=
  if b = 0 then (-1, a) else (BitVec.ofNat 64 (a.toNat / b.toNat), BitVec.ofNat 64 (a.toNat % b.toNat))

/-- Whether an entry in flight is a division of a unit. -/
def Pend.isDiv (e : Pend) (u : Ia) : Bool :=
  match e.w with
  | .div v _ _ => v == u
  | _ => false

/-- A division: the one in flight on the unit is abandoned (R171). -/
def State.divide (s : State) (gd : Guard) (u : Ia) (x : Src) (f : Word → Word → Word × Word) : Out :=
  s.guarded gd (fun s =>
    let p := f (s.src x) (s.opd (iaOperand u))
    let s := s.onR (fun r => { r with pipe := r.pipe.filter (fun e => !e.isDiv u) })
    .next (s.launchOp 20 (.div u p.1 p.2)))

/-- `add`: a + b, and its carry (R172). -/
def execIaAdd (gd : Guard) (u : Ia) (x : Src) (s : State) : Out := s.ia gd u x 1 (fun a b _ => (a + b, carry a b false))

/-- `sub`: a − b, and its borrow (R172). -/
def execIaSub (gd : Guard) (u : Ia) (x : Src) (s : State) : Out := s.ia gd u x 1 (fun a b _ => (a - b, borrow a b false))

/-- `adc`: a + b + c, and its carry (R173) (R172). -/
def execIaAdc (gd : Guard) (u : Ia) (x : Src) (s : State) : Out := s.ia gd u x 1 (fun a b c => (a + b + ofBool c, carry a b c))

/-- `sbc`: a − b − c, and its borrow (R173) (R172). -/
def execIaSbc (gd : Guard) (u : Ia) (x : Src) (s : State) : Out := s.ia gd u x 1 (fun a b c => (a - b - ofBool c, borrow a b c))

/-- `adds`: the signed sum, clamped (R172). -/
def execIaAdds (gd : Guard) (u : Ia) (x : Src) (s : State) : Out := s.ia gd u x 1 (fun a b _ => clampInt (a.toInt + b.toInt))

/-- `subs`: the signed difference, clamped (R172). -/
def execIaSubs (gd : Guard) (u : Ia) (x : Src) (s : State) : Out := s.ia gd u x 1 (fun a b _ => clampInt (a.toInt - b.toInt))

/-- `min`: the signed minimum (R172). -/
def execIaMin (gd : Guard) (u : Ia) (x : Src) (s : State) : Out := s.ia gd u x 1 (fun a b _ => (if a.toInt ≤ b.toInt then a else b, 0))

/-- `max`: the signed maximum (R172). -/
def execIaMax (gd : Guard) (u : Ia) (x : Src) (s : State) : Out := s.ia gd u x 1 (fun a b _ => (if a.toInt ≤ b.toInt then b else a, 0))

/-- `minu`: the unsigned minimum (R172). -/
def execIaMinu (gd : Guard) (u : Ia) (x : Src) (s : State) : Out := s.ia gd u x 1 (fun a b _ => (if a.toNat ≤ b.toNat then a else b, 0))

/-- `maxu`: the unsigned maximum (R172). -/
def execIaMaxu (gd : Guard) (u : Ia) (x : Src) (s : State) : Out := s.ia gd u x 1 (fun a b _ => (if a.toNat ≤ b.toNat then b else a, 0))

/-- `abs`: the magnitude; `h` tells −2^63 (R172). -/
def execIaAbs (gd : Guard) (u : Ia) (x : Src) (s : State) : Out := s.ia gd u x 1 (fun a _ _ => (BitVec.ofNat 64 a.toInt.natAbs, ofBool (a == minInt)))

/-- `mul`: the signed product, low and high (R172). -/
def execIaMul (gd : Guard) (u : Ia) (x : Src) (s : State) : Out := s.ia gd u x 3 (fun a b _ => wide (a.toInt * b.toInt))

/-- `mulu`: the unsigned product, low and high (R172). -/
def execIaMulu (gd : Guard) (u : Ia) (x : Src) (s : State) : Out := s.ia gd u x 3 (fun a b _ => wide ((a.toNat : Int) * b.toNat))

/-- `mulsu`: the product of signed a and unsigned b (R172). -/
def execIaMulsu (gd : Guard) (u : Ia) (x : Src) (s : State) : Out := s.ia gd u x 3 (fun a b _ => wide (a.toInt * b.toNat))

/-- `div` (R171, R173). -/
def execIaDiv (gd : Guard) (u : Ia) (x : Src) (s : State) : Out := s.divide gd u x divS

/-- `divu` (R171, R173). -/
def execIaDivu (gd : Guard) (u : Ia) (x : Src) (s : State) : Out := s.divide gd u x divU

/-- `and`: a and b (R172). -/
def execIaAnd (gd : Guard) (u : Ia) (x : Src) (s : State) : Out := s.ia gd u x 1 (fun a b _ => (a &&& b, 0))

/-- `or`: a or b (R172). -/
def execIaOr (gd : Guard) (u : Ia) (x : Src) (s : State) : Out := s.ia gd u x 1 (fun a b _ => (a ||| b, 0))

/-- `xor`: a xor b (R172). -/
def execIaXor (gd : Guard) (u : Ia) (x : Src) (s : State) : Out := s.ia gd u x 1 (fun a b _ => (a ^^^ b, 0))

/-- `andn`: a and not b (R172). -/
def execIaAndn (gd : Guard) (u : Ia) (x : Src) (s : State) : Out := s.ia gd u x 1 (fun a b _ => (a &&& ~~~b, 0))

/-- `shl`: a shifted left by b mod 64 (R172). -/
def execIaShl (gd : Guard) (u : Ia) (x : Src) (s : State) : Out := s.ia gd u x 1 (fun a b _ => (a <<< (b.toNat % 64), 0))

/-- `shr`: a shifted right by b mod 64 (R172). -/
def execIaShr (gd : Guard) (u : Ia) (x : Src) (s : State) : Out := s.ia gd u x 1 (fun a b _ => (a >>> (b.toNat % 64), 0))

/-- `sar`: a shifted right with its sign by b mod 64 (R172). -/
def execIaSar (gd : Guard) (u : Ia) (x : Src) (s : State) : Out := s.ia gd u x 1 (fun a b _ => (a.sshiftRight (b.toNat % 64), 0))

/-- `rol`: a rotated left by b mod 64 (R172). -/
def execIaRol (gd : Guard) (u : Ia) (x : Src) (s : State) : Out := s.ia gd u x 1 (fun a b _ => (a.rotateLeft (b.toNat % 64), 0))

/-- `ror`: a rotated right by b mod 64 (R172). -/
def execIaRor (gd : Guard) (u : Ia) (x : Src) (s : State) : Out := s.ia gd u x 1 (fun a b _ => (a.rotateRight (b.toNat % 64), 0))

/-- `clz`: the leading zeros of a (R172). -/
def execIaClz (gd : Guard) (u : Ia) (x : Src) (s : State) : Out := s.ia gd u x 1 (fun a _ _ => (BitVec.ofNat 64 (clz64 a.toNat), 0))

/-- `ctz`: the trailing zeros of a (R172). -/
def execIaCtz (gd : Guard) (u : Ia) (x : Src) (s : State) : Out := s.ia gd u x 1 (fun a _ _ => (BitVec.ofNat 64 (ctz 64 a.toNat), 0))

/-- `popc`: the one bits of a (R172). -/
def execIaPopc (gd : Guard) (u : Ia) (x : Src) (s : State) : Out := s.ia gd u x 1 (fun a _ _ => (BitVec.ofNat 64 (popcount 64 a.toNat), 0))

/-- `bext`: a field of a, zero-extended (R173) (R172). -/
def execIaBext (gd : Guard) (u : Ia) (x : Src) (s : State) : Out := s.ia gd u x 1 (fun a b _ => (BitVec.ofNat 64 (fieldOf a b).1, 0))

/-- `bexts`: a field of a, sign-extended (R173) (R172). -/
def execIaBexts (gd : Guard) (u : Ia) (x : Src) (s : State) : Out := s.ia gd u x 1 (fun a b _ => (sext (fieldOf a b).1 (fieldOf a b).2, 0))

/-- `seq`: a = b (R172). -/
def execIaSeq (gd : Guard) (u : Ia) (x : Src) (s : State) : Out := s.ia gd u x 1 (fun a b _ => (ofBool (a == b), 0))

/-- `sne`: a ≠ b (R172). -/
def execIaSne (gd : Guard) (u : Ia) (x : Src) (s : State) : Out := s.ia gd u x 1 (fun a b _ => (ofBool (a != b), 0))

/-- `slt`: s(a) < s(b) (R172). -/
def execIaSlt (gd : Guard) (u : Ia) (x : Src) (s : State) : Out := s.ia gd u x 1 (fun a b _ => (ofBool (decide (a.toInt < b.toInt)), 0))

/-- `sltu`: u(a) < u(b) (R172). -/
def execIaSltu (gd : Guard) (u : Ia) (x : Src) (s : State) : Out := s.ia gd u x 1 (fun a b _ => (ofBool (decide (a.toNat < b.toNat)), 0))

/-- `sle`: s(a) ≤ s(b) (R172). -/
def execIaSle (gd : Guard) (u : Ia) (x : Src) (s : State) : Out := s.ia gd u x 1 (fun a b _ => (ofBool (decide (a.toInt ≤ b.toInt)), 0))

/-- `sleu`: u(a) ≤ u(b) (R172). -/
def execIaSleu (gd : Guard) (u : Ia) (x : Src) (s : State) : Out := s.ia gd u x 1 (fun a b _ => (ofBool (decide (a.toNat ≤ b.toNat)), 0))

/-- `sext`: the low n bits of a, sign-extended; 0 for n = 0 (R172). -/
def execIaSext (gd : Guard) (u : Ia) (x : Src) (s : State) : Out := s.ia gd u x 1 (fun a b _ => (sext a.toNat (min (fld b 6 0) 64), 0))

/-- `zext`: the low n bits of a, zero-extended; 0 for n = 0 (R172). -/
def execIaZext (gd : Guard) (u : Ia) (x : Src) (s : State) : Out := s.ia gd u x 1 (fun a b _ => (zext a.toNat (min (fld b 6 0) 64), 0))

/-- `bswap`: the bytes of a in reverse order (R172). -/
def execIaBswap (gd : Guard) (u : Ia) (x : Src) (s : State) : Out := s.ia gd u x 1 (fun a _ _ => (BitVec.ofNat 64 (ofBytes (toBytes 8 a.toNat).reverse), 0))

end Sys2Proof.Machine
end

