-- ==== Sys2Proof/Machine/Matrix.lean ====
section
/-!
DEFINITION. The triggers of the matrix unit (R249, R250, R260 to R271, R278 to R280).
-/

namespace Sys2Proof.Machine

open Sys2Proof

/-- A matrix operation as its trigger queues it (R249, R262). -/
def MxOp.queued (s : State) (code : MxCode) (desc : Word) : MxOp :=
  { code := code, desc := desc, pcw := s.opd .mxpcw, o := s.opd .mxo, tid := s.b.t.tid, ctx := s.b.t.ctx,
    det := s.detTuple, frozen := false, snap := none, elapsed := 0, waits := 0, col := 0, colAt := 0, bbuf := [],
    bgot := 0, bpois := [], pages := [], waiting := false, tok := none, req := 0, stop := none, aRel := false, bRel := false }

/-- Whether the unit runs in the cycle of the trigger: nothing is queued ahead (R269). -/
def Brick.enqueueMx (b : Brick) (op : MxOp) : Brick :=
  let idle := b.mxq.isEmpty
  let b := { b with mxq := b.mxq ++ [op] }
  if idle then b.mxStart else b

/-- The power class of a product: by ceil(p/2) for plane limit p (R399). -/
def Prod.cls (P : Prod) : Nat :=
  match ceilDiv P.p 2 with
  | 0 | 1 => 4
  | 2 => 3
  | _ => 2

/-- A queued matrix operation: its descriptor's reserved bits, its control word and limits, the wait that no handler may make,
alignment, power class, counter and matrix waits, then its place in the queue (R159, R250, R260, R268, R271, R450, R451). -/
def State.mx (s : State) (gd : Guard) (x : Src) (code : MxCode) (reserved : Word → Bool) (bad : Word → Word → Word → Bool)
    (align : Word → Bool) (cls : Word → Word → Word → Nat) : Out :=
  s.guarded gd (fun s =>
    let desc := s.src x
    let pcw := s.opd .mxpcw
    let o := s.opd .mxo
    let exposed := bit pcw.toNat 20
    let full := decide (4 ≤ s.b.mxq.length)
    let behind := exposed && s.b.mxq.any (fun op => !op.exposed)
    s.valid (reserved desc) (fun s => s.limit (!pcwOk pcw || bad desc pcw o) (fun s =>
      if (full || behind) && s.b.y.inh && s.b.mxq.any MxOp.frozen then .next (s.illegal 0xC)
      else if align o then .next (s.misaligned o 4)
      else s.powered (cls desc pcw o) (fun s => s.counted .mx 1 (fun s =>
        s.unless full (s.matrixWait 0 .none) (fun s =>
          s.unless behind (s.matrixWait 1 .none) (fun s =>
            let op := MxOp.queued s code desc
            .next (s.onB (fun b => b.enqueueMx op)))))))))

/-- A product (R261 to R264). -/
def State.product (s : State) (gd : Guard) (x : Src) (code : MxCode) : Out :=
  s.mx gd x code (fun d => decide (fld d 63 55 ≠ 0)) (fun d p o => (Prod.ofOp code d p o).bad d o)
    (fun o => (code == .mms || code == .mmsT || code == .mmcs) && decide (o.toNat % 4 ≠ 0))
    (fun d p o => (Prod.ofOp code d p o).cls)

/-- A region operation (R265). -/
def State.regionOp (s : State) (gd : Guard) (x : Src) (code : MxCode) : Out :=
  s.mx gd x code (fun d => decide (fld d 63 33 ≠ 0)) (fun d _ o => regionBad d || (code == .cscl && decide (fld o 63 9 ≠ 0))) (fun _ => false) (fun _ _ _ => 1)

/-- A drain (R278 to R280). -/
def State.drainOp (s : State) (gd : Guard) (x : Src) (code : MxCode) : Out :=
  s.mx gd x code (fun d => decide (fld d 63 60 ≠ 0)) (fun d p _ => (Drain.ofOp code d p).bad d) (fun _ => false) (fun _ _ _ => 1)

/-- `mm`. -/
def execMxMm (gd : Guard) (x : Src) (s : State) : Out := s.product gd x .mm
/-- `mm.t`. -/
def execMxMmT (gd : Guard) (x : Src) (s : State) : Out := s.product gd x .mmT
/-- `mmc`. -/
def execMxMmc (gd : Guard) (x : Src) (s : State) : Out := s.product gd x .mmc
/-- `mms`. -/
def execMxMms (gd : Guard) (x : Src) (s : State) : Out := s.product gd x .mms
/-- `mms.t`. -/
def execMxMmsT (gd : Guard) (x : Src) (s : State) : Out := s.product gd x .mmsT
/-- `mmcs`. -/
def execMxMmcs (gd : Guard) (x : Src) (s : State) : Out := s.product gd x .mmcs
/-- `cclr`. -/
def execMxCclr (gd : Guard) (x : Src) (s : State) : Out := s.regionOp gd x .cclr
/-- `cacc`. -/
def execMxCacc (gd : Guard) (x : Src) (s : State) : Out := s.regionOp gd x .cacc
/-- `cscl`. -/
def execMxCscl (gd : Guard) (x : Src) (s : State) : Out := s.regionOp gd x .cscl
/-- `drain`. -/
def execMxDrain (gd : Guard) (x : Src) (s : State) : Out := s.drainOp gd x .drain
/-- `drainq`. -/
def execMxDrainq (gd : Guard) (x : Src) (s : State) : Out := s.drainOp gd x .drainq

/-- `stat`: never queued, never waits (R266). -/
def execMxStat (gd : Guard) (x : Src) (s : State) : Out :=
  s.guarded gd (fun s => s.valid (decide (s.src x ≠ 0)) (fun s => .next (s.defer .stat)))

end Sys2Proof.Machine
end

