-- ==== Sys2Proof/Machine/Slots.lean ====
section
/-!
DEFINITION. Moves, literal slots and the empty slot (R145 to R153).
-/

namespace Sys2Proof.Machine

open Sys2Proof

/-- A move (R145, R150, R152, R153). -/
def execMove (gd : Guard) (x : Src) (d : Dst) (s : State) : Out :=
  s.guarded gd (fun s => .next (s.writeDst d (s.src x)))

/-- One more slot of a run: its payload joins the run's value at the low end (R149). -/
def State.literal (s : State) (signed : Bool) (p : BitVec 20) : State :=
  s.onIss (fun i => { i with litN := i.litN + 1, litV := i.litV * 2 ^ 20 + p.toNat, litS := signed })

/-- A sign-extending literal slot (R149). -/
def execLiteralSignExtending (p : BitVec 20) (s : State) : Out := .next (s.literal true p)

/-- A zero-extending literal slot (R149). -/
def execLiteralZeroExtending (p : BitVec 20) (s : State) : Out := .next (s.literal false p)

/-- The empty slot (R147). -/
def execEmptySlot (s : State) : Out := .next s

end Sys2Proof.Machine
end

