-- ==== Sys2Proof/Machine/Tasks.lean ====
section
/-!
DEFINITION. Task operations (R347 to R354) and the operations of the system registers, traps and the return from a
handler (R379 to R384).
-/

namespace Sys2Proof.Machine

open Sys2Proof

/-- A task operation on a record that writes it: counted as a store, behind a release marker where R348 puts one. -/
def State.recordOp (s : State) (gd : Guard) (x : Src) (rel : Bool) (kind : State → DevKind) : Out :=
  s.guarded gd (fun s =>
    let a := s.src x
    s.refuseDet (fun s => s.aligned a 64 (fun s => s.replayRoom a.toNat (fun s => s.counted .st 1 (fun s =>
      .next (s.place { DevOp.basic (kind s) a.toNat 64 with rel := rel, scope := 4 }))))))

/-- `tspawn` (R349). -/
def execSyTspawn (gd : Guard) (x : Src) (s : State) : Out := s.recordOp gd x true (fun _ => .tspawn)

/-- `tdec` (R350). -/
def execSyTdec (gd : Guard) (x : Src) (s : State) : Out := s.recordOp gd x true (fun _ => .tdec)

/-- `tinc` (R350). -/
def execSyTinc (gd : Guard) (x : Src) (s : State) : Out :=
  s.recordOp gd x false (fun s => .tinc (fld (s.opd .syo) 15 0))

/-- `tkill` (R351). -/
def execSyTkill (gd : Guard) (x : Src) (s : State) : Out :=
  s.recordOp gd x true (fun s => .tkill (bit (s.opd .syo).toNat 0))

/-- `tread` (R352). -/
def execSyTread (gd : Guard) (x : Src) (s : State) : Out :=
  s.guarded gd (fun s =>
    let a := s.src x
    let o := s.opd .syo
    s.refuseDet (fun s => s.aligned a 64 (fun s => s.counted .ld 1 (fun s =>
      .next (s.place { DevOp.basic .tread (a.toNat + 8 * fld o 8 6) 8 with
        dst := .g (physG s.b.r.rrb (fld o 5 0)) })))))

/-- `tself` (R347). -/
def execSyTself (gd : Guard) (x : Src) (s : State) : Out :=
  s.guarded gd (fun s =>
    let a := s.src x
    s.valid (decide (1 < a.toNat)) (fun s =>
      .next (s.launchOp 1 (.res .syr (BitVec.ofNat 64 (if a = 0 then s.b.t.recVa else s.b.t.frame))))))

/-- The word of `tteam` (R353). -/
def Task.teamWord (t : Task) : Word :=
  BitVec.ofNat 64 (t.member % 1024 + 2 ^ 12 * (t.tsize % 1024) + 2 ^ 32 * (t.team % 2 ^ 32))

/-- `tteam` (R353). -/
def execSyTteam (gd : Guard) (x : Src) (s : State) : Out :=
  s.guarded gd (fun s =>
    s.valid (decide (s.src x ≠ 0)) (fun s => .next (s.launchOp 1 (.res .syr s.b.t.teamWord))))

/-- `tprio` (R353). -/
def execSyTprio (gd : Guard) (x : Src) (s : State) : Out :=
  s.guarded gd (fun s =>
    let a := s.src x
    s.valid (decide (3 < a.toNat)) (fun s => .next (s.defer (.prio a.toNat))))

/-! ## System registers (R380, R381) -/

/-- How a system register may be reached: listed, privileged, readable, writable (R380). -/
structure SysAcc where
  priv : Bool
  rd : Bool
  wr : Bool
  deriving DecidableEq, Repr

/-- The access of a register number; none where R380 lists none. -/
def sysAcc (n : Nat) : Option SysAcc :=
  if n = 0x000 ∨ n = 0x001 then some ⟨false, true, true⟩
  else if n = 0x002 ∨ (4 ≤ n ∧ n ≤ 7) ∨ n = 0x008 ∨ n = 0x009 then some ⟨false, true, false⟩
  else if 0x010 ≤ n ∧ n ≤ 0x017 then some ⟨false, true, true⟩
  else if n = 0x040 then some ⟨true, true, true⟩
  else if n = 0x041 then some ⟨true, false, true⟩
  else if 0x102 ≤ n ∧ n ≤ 0x119 then some ⟨true, true, true⟩
  else none

/-- The trap of an access that may not be made: the lowest cause that applies (R381). -/
def State.sysBar (s : State) (n : Nat) (write : Bool) : Option Nat :=
  match sysAcc n with
  | none => some 9
  | some a =>
    if a.priv && decide (s.cls = 0) then some 8
    else if (if write then a.wr else a.rd) then none else some 9

/-- The value of a system register at the start of a cycle (R380). -/
def State.sysReg (s : State) (n : Nat) : Word :=
  let y := s.b.y
  if n = 0x000 then y.nflg
  else if n = 0x001 then y.tvec
  else if n = 0x002 then BitVec.ofNat 64 (y.inh.toNat + 2 * (s.notices.contains s.b.t.ctx).toNat)
  else if n < 8 then vget 0 y.trec (n - 4)
  else if n = 0x008 then BitVec.ofNat 64 (s.b.t.ctx % 2 ^ 16 + 2 ^ 16 * s.cls)
  else if n = 0x009 then
    (match s.ctxEnt s.b.t.ctx with
      | some e => BitVec.ofNat 64 (bits e 115 90 * 2 ^ 16)
      | none => 0)
  else if n < 0x018 then vget 0 y.wcmp (n - 0x010)
  else if n = 0x040 then y.einj
  else
    let e := cget 0 y.elog ((n - 0x100) / 2)
    if n % 2 = 0 then e.extractLsb' 0 64 else e.extractLsb' 64 64

/-- `rsr` (R379, R381). -/
def execSyRsr (gd : Guard) (x : Src) (s : State) : Out :=
  s.guarded gd (fun s =>
    let a := s.src x
    s.valid (decide (fld a 63 12 ≠ 0)) (fun s =>
      match s.sysBar a.toNat false with
      | some c => .next (s.illegal c)
      | none => .next (s.launchOp 1 (.res .syr (s.sysReg a.toNat)))))

/-- `wsr` (R379, R381): the register is written at the end of the cycle. -/
def execSyWsr (gd : Guard) (x : Src) (s : State) : Out :=
  s.guarded gd (fun s =>
    let a := s.src x
    s.valid (decide (fld a 63 12 ≠ 0)) (fun s =>
      match s.sysBar a.toNat true with
      | some c => .next (s.illegal c)
      | none => .next (s.defer (.sys a.toNat (s.opd .syo)))))

/-! ## Software trap and return (R383, R384) -/

/-- `trap` (R383). -/
def execSyTrap (gd : Guard) (x : Src) (s : State) : Out :=
  s.guarded gd (fun s =>
    let a := s.src x
    s.valid (decide (fld a 63 16 ≠ 0)) (fun s =>
      .next (s.raise 3 { plainTrap 0x0E 0 with aux := BitVec.ofNat 32 (fld a 15 0) })))

/-- `tret` (R384). -/
def execSyTret (gd : Guard) (x : Src) (s : State) : Out :=
  s.guarded gd (fun s =>
    let a := s.src x
    s.valid (decide (1 < a.toNat)) (fun s =>
      if !s.b.y.inh then .next (s.illegal 0xA)
      else s.unless (!s.b.tretReady) (s.stallOwn 3 0) (fun s =>
        .next (s.onIss (fun i => { i with tret := some (bit a.toNat 0) })))))

end Sys2Proof.Machine
end

