-- ==== Sys2Proof/Machine/Vector.lean ====
section
/-!
DEFINITION. The vector unit (R227 to R246).
-/

namespace Sys2Proof.Machine

open Sys2Proof

/-! ## Descriptors (R228 to R230) -/

/-- The descriptor fields an operation uses (R230): vd, va, vb, the scalar operand in vb's place, vc, mask selection,
zeroing, the mode and xf. -/
structure VUse where
  d : Bool := false
  a : Bool := false
  b : Bool := false
  sb : Bool := false
  c : Bool := false
  m : Bool := false
  z : Bool := false
  r : Bool := false
  xf : Bool := false
  deriving DecidableEq, Repr

/-- vd, va, vb or the scalar operand, and selection with zeroing. -/
def VUse.two : VUse := { d := true, a := true, b := true, sb := true, m := true, z := true }

/-- vd, va, and selection with zeroing. -/
def VUse.one : VUse := { d := true, a := true, m := true, z := true }

/-- Vector register or index in vd. -/
def vd (d : Word) : Nat := fld d 4 0
/-- Vector register or index in va. -/
def va (d : Word) : Nat := fld d 9 5
/-- Vector register or index in vb. -/
def vb (d : Word) : Nat := fld d 14 10
/-- Vector register or part in vc. -/
def vc (d : Word) : Nat := fld d 19 15
/-- Rounding mode. -/
def vmode (d : Word) : Nat := fld d 27 26
/-- Whether operand b is `vx.o`. -/
def vsb (d : Word) : Bool := bit d.toNat 25
/-- Whether unselected lanes are written with zero. -/
def vzm (d : Word) : Bool := bit d.toNat 24
/-- Whether a mask selects lanes. -/
def vme (d : Word) : Bool := bit d.toNat 23
/-- Lane index, rotation or element format in xf (R229). -/
def vn (d : Word) : Nat := fld d 33 28

/-- Whether a descriptor breaks R230 for an operation that uses `u`. -/
def vxBad (u : VUse) (d : Word) : Bool :=
  decide (fld d 63 40 ≠ 0) || (!u.d && decide (vd d ≠ 0)) || (!u.a && decide (va d ≠ 0)) ||
  (!u.b && decide (vb d ≠ 0)) || (!u.c && decide (vc d ≠ 0)) || (!u.m && decide (fld d 23 20 ≠ 0)) ||
  (vzm d && !(u.z && vme d)) || (vsb d && !(u.sb && decide (vb d = 0))) || (!u.r && decide (vmode d ≠ 0)) ||
  (!u.xf && decide (fld d 39 28 ≠ 0))

/-- A vector operation: its guard, descriptor and power class (R230, R399). -/
def State.vx (s : State) (gd : Guard) (x : Src) (u : VUse) (bad : Word → Bool) (k : Word → State → Out) : Out :=
  s.guarded gd (fun s =>
    let d := s.src x
    if vxBad u d || bad d then .next (s.illegal 2) else s.powered 1 (k d))

/-! ## Selection and operands (R231, R232) -/

/-- Whether lane j is selected (R231). -/
def State.vsel (s : State) (d : Word) (j : Nat) : Bool := !vme d || bit (s.readM (fld d 22 20)).toNat j

/-- Lane j of operand a. -/
def State.la (s : State) (d : Word) (j : Nat) : BitVec 32 := lane (s.readV (va d)) j

/-- `vx.o`[31:0]. -/
def State.vxo (s : State) : BitVec 32 := (s.opd .vxo).extractLsb' 0 32

/-- Lane j of operand b (R228). -/
def State.lb (s : State) (d : Word) (j : Nat) : BitVec 32 := if vsb d then s.vxo else lane (s.readV (vb d)) j

/-- Lane j of operand c. -/
def State.lc (s : State) (d : Word) (j : Nat) : BitVec 32 := lane (s.readV (vc d)) j

/-- A result over the lanes: selected lanes from f, the others kept or zero (R231). -/
def State.lanes (s : State) (d : Word) (f : Nat → BitVec 32) : Vec :=
  mergeLanes (s.vsel d) f (fun j => if vzm d then 0 else lane (s.readV (vd d)) j)

/-- The flags that selected lanes raise (R231, R234). -/
def State.laneFlags (s : State) (d : Word) (f : Nat → Flags) : Flags :=
  (List.range 64).foldl (fun fl j => if s.vsel d j then fl ||| f j else fl) 0

/-- A whole vector register written after L cycles (R232). -/
def State.writeVec (s : State) (d : Word) (L : Nat) (x : Vec) : State :=
  s.launchOp L (.vec (physV s.b.r.rrb (vd d)) (-1) x)

/-- A lane operation that raises nothing. -/
def State.laneOp (s : State) (gd : Guard) (x : Src) (u : VUse) (L : Nat) (f : State → Word → Nat → BitVec 32) : Out :=
  s.vx gd x u (fun _ => false) (fun d s => .next (s.writeVec d L (s.lanes d (f s d))))

/-- A lane operation with flags, recorded together with its result (R234). -/
def State.laneFlagOp (s : State) (gd : Guard) (x : Src) (u : VUse) (L : Nat)
    (f : State → Word → Nat → BitVec 32 × Flags) : Out :=
  s.vx gd x u (fun _ => false) (fun d s =>
    .next ((s.writeVec d L (s.lanes d (fun j => (f s d j).1))).launchOp L
      (.flags (s.laneFlags d (fun j => (f s d j).2)))))

/-! ## Integer lanes (R236) -/

/-- A lane operation on two integers. -/
def State.intOp (s : State) (gd : Guard) (x : Src) (L : Nat) (f : BitVec 32 → BitVec 32 → BitVec 32) : Out :=
  s.laneOp gd x .two L (fun s d j => f (s.la d j) (s.lb d j))

/-- An integer clamped to a format, with saturated where it was (R57, R236). -/
def clampLane (fmt : Fmt) (i : Int) : BitVec 32 × Flags :=
  if i < fmt.range.1 then (BitVec.ofInt 32 fmt.range.1, fSaturated)
  else if fmt.range.2 < i then (BitVec.ofInt 32 fmt.range.2, fSaturated)
  else (BitVec.ofInt 32 i, 0)

/-- A clamping lane operation. -/
def State.clampOp (s : State) (gd : Guard) (x : Src) (f : BitVec 32 → BitVec 32 → BitVec 32 × Flags) : Out :=
  s.laneFlagOp gd x .two 2 (fun s d j => f (s.la d j) (s.lb d j))

/-- `vadd.i32`. -/
def execVxVaddI32 (gd : Guard) (x : Src) (s : State) : Out := s.intOp gd x 2 (fun a b => a + b)
/-- `vsub.i32`. -/
def execVxVsubI32 (gd : Guard) (x : Src) (s : State) : Out := s.intOp gd x 2 (fun a b => a - b)
/-- `vadds.i32`. -/
def execVxVaddsI32 (gd : Guard) (x : Src) (s : State) : Out :=
  s.clampOp gd x (fun a b => clampLane .int32 (a.toInt + b.toInt))
/-- `vsubs.i32`. -/
def execVxVsubsI32 (gd : Guard) (x : Src) (s : State) : Out :=
  s.clampOp gd x (fun a b => clampLane .int32 (a.toInt - b.toInt))
/-- `vaddsu.i32`. -/
def execVxVaddsuI32 (gd : Guard) (x : Src) (s : State) : Out :=
  s.clampOp gd x (fun a b => clampLane .uint32 ((a.toNat : Int) + b.toNat))
/-- `vsubsu.i32`. -/
def execVxVsubsuI32 (gd : Guard) (x : Src) (s : State) : Out :=
  s.clampOp gd x (fun a b => clampLane .uint32 ((a.toNat : Int) - b.toNat))
/-- `vmul.i32`. -/
def execVxVmulI32 (gd : Guard) (x : Src) (s : State) : Out := s.intOp gd x 3 (fun a b => a * b)
/-- `vmulh.i32`. -/
def execVxVmulhI32 (gd : Guard) (x : Src) (s : State) : Out :=
  s.intOp gd x 3 (fun a b => BitVec.ofInt 32 (a.toInt * b.toInt / 2 ^ 32))
/-- `vmin.i32`. -/
def execVxVminI32 (gd : Guard) (x : Src) (s : State) : Out := s.intOp gd x 2 (fun a b => if b.toInt < a.toInt then b else a)
/-- `vmax.i32`. -/
def execVxVmaxI32 (gd : Guard) (x : Src) (s : State) : Out := s.intOp gd x 2 (fun a b => if a.toInt < b.toInt then b else a)
/-- `vminu.i32`. -/
def execVxVminuI32 (gd : Guard) (x : Src) (s : State) : Out := s.intOp gd x 2 (fun a b => if b.toNat < a.toNat then b else a)
/-- `vmaxu.i32`. -/
def execVxVmaxuI32 (gd : Guard) (x : Src) (s : State) : Out := s.intOp gd x 2 (fun a b => if a.toNat < b.toNat then b else a)
/-- `vand`. -/
def execVxVand (gd : Guard) (x : Src) (s : State) : Out := s.intOp gd x 2 (fun a b => a &&& b)
/-- `vor`. -/
def execVxVor (gd : Guard) (x : Src) (s : State) : Out := s.intOp gd x 2 (fun a b => a ||| b)
/-- `vxor`. -/
def execVxVxor (gd : Guard) (x : Src) (s : State) : Out := s.intOp gd x 2 (fun a b => a ^^^ b)
/-- `vshl`. -/
def execVxVshl (gd : Guard) (x : Src) (s : State) : Out := s.intOp gd x 2 (fun a b => a <<< (b.toNat % 32))
/-- `vshr`. -/
def execVxVshr (gd : Guard) (x : Src) (s : State) : Out := s.intOp gd x 2 (fun a b => a >>> (b.toNat % 32))
/-- `vsar`. -/
def execVxVsar (gd : Guard) (x : Src) (s : State) : Out := s.intOp gd x 2 (fun a b => a.sshiftRight (b.toNat % 32))

/-- `vsel`: mask m chooses, and every lane is written (R236). -/
def execVxVsel (gd : Guard) (x : Src) (s : State) : Out :=
  s.vx gd x { d := true, a := true, b := true, sb := true, m := true } vme (fun d s =>
    .next (s.writeVec d 2 (ofLanes (fun j => if bit (s.readM (fld d 22 20)).toNat j then s.la d j else s.lb d j))))

/-! ## Floating lanes (R237, R238) -/

/-- An exact value rounded to FP32, with the flags of both. -/
def roundLane (mode : Nat) (p : Val × Flags) : BitVec 32 × Flags :=
  let (c, f) := round32 mode p.1
  (c, p.2 ||| f)

/-- A rounding lane operation of two operands. -/
def State.floatOp (s : State) (gd : Guard) (x : Src) (L : Nat) (f : Val → Val → Val × Flags) : Out :=
  s.laneFlagOp gd x { VUse.two with r := true } L (fun s d j =>
    roundLane (vmode d) (f (read32 (s.la d j)) (read32 (s.lb d j))))

/-- A rounding lane operation of one operand. -/
def State.floatOp1 (s : State) (gd : Guard) (x : Src) (L : Nat) (f : Val → Val × Flags) : Out :=
  s.laneFlagOp gd x { VUse.one with r := true } L (fun s d j => roundLane (vmode d) (f (read32 (s.la d j))))

/-- A product and a sum with one rounding; any NaN operand gives NaN and no flag (R237). -/
def fmaNum (a b c : Val) : Val × Flags :=
  if a.isNan || b.isNan || c.isNan then (.nan, 0)
  else
    let (p, f1) := mulNum a b
    let (y, f2) := addNum p c
    (y, f1 ||| f2)

/-- A multiply-add lane operation. -/
def State.fmaOp (s : State) (gd : Guard) (x : Src) (f : Val → Val) : Out :=
  s.laneFlagOp gd x { VUse.two with c := true, r := true } 4 (fun s d j =>
    roundLane (vmode d) (fmaNum (read32 (s.la d j)) (read32 (s.lb d j)) (f (read32 (s.lc d j)))))

/-- The smaller of two FP32 codes, −0 below +0, canonical NaN for any NaN (R237). -/
def minLane (a b : BitVec 32) : BitVec 32 :=
  if (read32 a).isNan || (read32 b).isNan then 0x7FC00000 else if beforeNum (read32 b) (read32 a) then b else a

/-- The larger of two FP32 codes (R237). -/
def maxLane (a b : BitVec 32) : BitVec 32 :=
  if (read32 a).isNan || (read32 b).isNan then 0x7FC00000 else if beforeNum (read32 a) (read32 b) then b else a

/-- An estimate over the lanes (R238). -/
def State.estOp (s : State) (gd : Guard) (x : Src) (f : Val → Nat × Flags) : Out :=
  s.laneFlagOp gd x .one 4 (fun s d j =>
    let (c, fl) := f (read32 (s.la d j))
    (BitVec.ofNat 32 c, fl))

/-- `vadd.f32`. -/
def execVxVaddF32 (gd : Guard) (x : Src) (s : State) : Out := s.floatOp gd x 4 addNum
/-- `vsub.f32`. -/
def execVxVsubF32 (gd : Guard) (x : Src) (s : State) : Out := s.floatOp gd x 4 (fun a b => addNum a b.negate)
/-- `vmul.f32`. -/
def execVxVmulF32 (gd : Guard) (x : Src) (s : State) : Out := s.floatOp gd x 4 mulNum
/-- `vfma.f32`. -/
def execVxVfmaF32 (gd : Guard) (x : Src) (s : State) : Out := s.fmaOp gd x id
/-- `vfms.f32`. -/
def execVxVfmsF32 (gd : Guard) (x : Src) (s : State) : Out := s.fmaOp gd x Val.negate
/-- `vmin.f32`. -/
def execVxVminF32 (gd : Guard) (x : Src) (s : State) : Out := s.intOp gd x 4 minLane
/-- `vmax.f32`. -/
def execVxVmaxF32 (gd : Guard) (x : Src) (s : State) : Out := s.intOp gd x 4 maxLane
/-- `vdiv.f32`. -/
def execVxVdivF32 (gd : Guard) (x : Src) (s : State) : Out := s.floatOp gd x 10 divNum
/-- `vsqrt.f32`. -/
def execVxVsqrtF32 (gd : Guard) (x : Src) (s : State) : Out := s.floatOp1 gd x 10 sqrtNum
/-- `vabs.f32`. -/
def execVxVabsF32 (gd : Guard) (x : Src) (s : State) : Out := s.laneOp gd x .one 2 (fun s d j => s.la d j &&& 0x7FFFFFFF)
/-- `vneg.f32`. -/
def execVxVnegF32 (gd : Guard) (x : Src) (s : State) : Out := s.laneOp gd x .one 2 (fun s d j => s.la d j ^^^ 0x80000000)
/-- `vrcpe.f32`. -/
def execVxVrcpeF32 (gd : Guard) (x : Src) (s : State) : Out := s.estOp gd x rcpe
/-- `vrsqrte.f32`. -/
def execVxVrsqrteF32 (gd : Guard) (x : Src) (s : State) : Out := s.estOp gd x rsqrte
/-- `vexp2.f32`. -/
def execVxVexp2F32 (gd : Guard) (x : Src) (s : State) : Out := s.floatOp1 gd x 8 exp2Num
/-- `vlog2.f32`. -/
def execVxVlog2F32 (gd : Guard) (x : Src) (s : State) : Out := s.floatOp1 gd x 8 log2Num
/-- `vtanh.f32`. -/
def execVxVtanhF32 (gd : Guard) (x : Src) (s : State) : Out := s.floatOp1 gd x 8 tanhNum

/-! ## Compares, masks and votes (R239 to R241) -/

/-- A 64-bit mask from its bits. -/
def maskOf (p : Nat → Bool) : Word := BitVec.ofNat 64 (pack 1 (fun j => (p j).toNat) 64)

/-- A compare into a mask register (R239). -/
def State.cmpOp (s : State) (gd : Guard) (x : Src) (p : BitVec 32 → BitVec 32 → Bool) : Out :=
  s.vx gd x { d := true, a := true, b := true, sb := true, m := true } (fun d => decide (8 ≤ vd d)) (fun d s =>
    .next (s.launchOp 2 (.mask (vd d) (maskOf (fun j => s.vsel d j && p (s.la d j) (s.lb d j))))))

/-- A relation of FP32 numbers, false where either is NaN (R239). -/
def ordered (p : Val → Val → Bool) (a b : BitVec 32) : Bool :=
  !(read32 a).isNan && !(read32 b).isNan && p (read32 a) (read32 b)

/-- `vceq.i32`. -/
def execVxVceqI32 (gd : Guard) (x : Src) (s : State) : Out := s.cmpOp gd x (fun a b => a == b)
/-- `vclt.i32`. -/
def execVxVcltI32 (gd : Guard) (x : Src) (s : State) : Out := s.cmpOp gd x (fun a b => decide (a.toInt < b.toInt))
/-- `vcle.i32`. -/
def execVxVcleI32 (gd : Guard) (x : Src) (s : State) : Out := s.cmpOp gd x (fun a b => decide (a.toInt ≤ b.toInt))
/-- `vcltu.i32`. -/
def execVxVcltuI32 (gd : Guard) (x : Src) (s : State) : Out := s.cmpOp gd x (fun a b => decide (a.toNat < b.toNat))
/-- `vcleu.i32`. -/
def execVxVcleuI32 (gd : Guard) (x : Src) (s : State) : Out := s.cmpOp gd x (fun a b => decide (a.toNat ≤ b.toNat))
/-- `vceq.f32`. -/
def execVxVceqF32 (gd : Guard) (x : Src) (s : State) : Out := s.cmpOp gd x (ordered eqNum)
/-- `vclt.f32`. -/
def execVxVcltF32 (gd : Guard) (x : Src) (s : State) : Out := s.cmpOp gd x (ordered ltNum)
/-- `vcle.f32`. -/
def execVxVcleF32 (gd : Guard) (x : Src) (s : State) : Out := s.cmpOp gd x (ordered (fun a b => !ltNum b a))
/-- `vcun.f32`. -/
def execVxVcunF32 (gd : Guard) (x : Src) (s : State) : Out := s.cmpOp gd x (fun a b => (read32 a).isNan || (read32 b).isNan)

/-- An operation of two whole mask registers (R240). -/
def State.maskOp (s : State) (gd : Guard) (x : Src) (f : Word → Word → Word) : Out :=
  s.vx gd x { d := true, a := true, b := true } (fun d => decide (8 ≤ vd d) || decide (8 ≤ va d) || decide (8 ≤ vb d))
    (fun d s => .next (s.launchOp 1 (.mask (vd d) (f (s.readM (va d)) (s.readM (vb d))))))

/-- An operation of one mask register into `vx.r` (R240). -/
def State.maskRead (s : State) (gd : Guard) (x : Src) (f : Word → Word) : Out :=
  s.vx gd x { a := true } (fun d => decide (8 ≤ va d)) (fun d s => .next (s.launchOp 1 (.res .vxr (f (s.readM (va d))))))

/-- `mand`. -/
def execVxMand (gd : Guard) (x : Src) (s : State) : Out := s.maskOp gd x (fun a b => a &&& b)
/-- `mor`. -/
def execVxMor (gd : Guard) (x : Src) (s : State) : Out := s.maskOp gd x (fun a b => a ||| b)
/-- `mxor`. -/
def execVxMxor (gd : Guard) (x : Src) (s : State) : Out := s.maskOp gd x (fun a b => a ^^^ b)
/-- `mandn`. -/
def execVxMandn (gd : Guard) (x : Src) (s : State) : Out := s.maskOp gd x (fun a b => a &&& ~~~b)
/-- `mset`. -/
def execVxMset (gd : Guard) (x : Src) (s : State) : Out :=
  s.vx gd x { d := true } (fun d => decide (8 ≤ vd d)) (fun d s => .next (s.launchOp 1 (.mask (vd d) (s.opd .vxo))))
/-- `mget`. -/
def execVxMget (gd : Guard) (x : Src) (s : State) : Out := s.maskRead gd x id
/-- `mpopc`. -/
def execVxMpopc (gd : Guard) (x : Src) (s : State) : Out := s.maskRead gd x (fun a => BitVec.ofNat 64 (popcount 64 a.toNat))
/-- `mfirst`. -/
def execVxMfirst (gd : Guard) (x : Src) (s : State) : Out := s.maskRead gd x (fun a => BitVec.ofNat 64 (ctz 64 a.toNat))

/-- A vote into a guard (R241). -/
def State.vote (s : State) (gd : Guard) (x : Src) (f : (Nat → Bool) → Word → Bool) : Out :=
  s.vx gd x { d := true, a := true, m := true } (fun d => decide (vd d = 0) || decide (6 < vd d) || decide (8 ≤ va d))
    (fun d s => .next (s.launchOp 2 (.guard (vd d - 1) (f (s.vsel d) (s.readM (va d))))))

/-- `vany`. -/
def execVxVany (gd : Guard) (x : Src) (s : State) : Out :=
  s.vote gd x (fun sel a => (List.range 64).any (fun j => sel j && bit a.toNat j))
/-- `vall`. -/
def execVxVall (gd : Guard) (x : Src) (s : State) : Out :=
  s.vote gd x (fun sel a => (List.range 64).all (fun j => !sel j || bit a.toNat j))

/-! ## Conversions (R242) -/

/-- Source format of a conversion. -/
def cvtFrom (d : Word) : Option Fmt := Fmt.ofCode (fld d 31 28)
/-- Destination format of a conversion. -/
def cvtTo (d : Word) : Option Fmt := Fmt.ofCode (fld d 35 32)

/-- Whether a conversion's formats, parts and saturation break R242. -/
def cvtBad (d : Word) : Bool :=
  match cvtFrom d, cvtTo d with
  | some fs, some fd =>
    decide (8 ≤ vc d) || decide (2048 < 64 * (vc d + 1) * fs.width) || decide (2048 < 64 * (fld d 38 36 + 1) * fd.width) ||
    (bit d.toNat 39 && !fd.hasInf)
  | _, _ => true

/-- A number times 2^k (R242). -/
def Val.scale (x : Val) (k : Int) : Val :=
  match x with
  | .fin s m e => .fin s m (e + k)
  | y => y

/-- A saturating conversion's result: ±max where ±∞ would be given (R242). -/
def saturate (fd : Fmt) (x : Val) (r : Nat × Flags) : Nat × Flags :=
  if r.1 = fd.signed x.neg fd.infCode then
    (fd.signed x.neg fd.maxCode, r.2 ||| fOverflow)
  else r

/-- One converted element. -/
def cvtElem (fd : Fmt) (mode : Nat) (sat : Bool) (x : Val) : Nat × Flags :=
  let r := round fd mode x
  if sat && !x.isNan then saturate fd x r else r

/-- A conversion of 64 elements (R242); `k` is the scale of `vcvt.sc`. -/
def State.cvt (s : State) (gd : Guard) (x : Src) (k : State → Int) : Out :=
  s.vx gd x { VUse.one with c := true, r := true, xf := true } cvtBad (fun d s =>
    match cvtFrom d, cvtTo d with
    | some fs, some fd =>
      let src := (s.readV (va d)).toNat
      let old := (s.readV (vd d)).toNat
      let y := fun j => cvtElem fd (vmode d) (bit d.toNat 39) ((fs.read (elem src fs.width (64 * vc d + j))).scale (k s))
      let first := 64 * fld d 38 36
      let part := pack fd.width (fun j =>
        if s.vsel d j then (y j).1 else if vzm d then 0 else elem old fd.width (first + j)) 64
      let lo := fd.width * first
      let v := old % 2 ^ lo + part * 2 ^ lo + old / 2 ^ (lo + 64 * fd.width) * 2 ^ (lo + 64 * fd.width)
      .next ((s.writeVec d 3 (BitVec.ofNat 2048 v)).launchOp 3 (.flags (s.laneFlags d (fun j => (y j).2))))
    | _, _ => .next s)

/-- `vcvt`. -/
def execVxVcvt (gd : Guard) (x : Src) (s : State) : Out := s.cvt gd x (fun _ => 0)
/-- `vcvt.sc`. -/
def execVxVcvtSc (gd : Guard) (x : Src) (s : State) : Out := s.cvt gd x (fun s => sextInt (s.opd .vxo).toNat 9)

/-! ## Permutes (R243) -/

/-- Whether the lane field of xf has a bit above it set (R229). -/
def vnBad (d : Word) : Bool := decide (fld d 39 34 ≠ 0)

/-- vd, va and vb, with selection and zeroing but no scalar operand. -/
def VUse.perm : VUse := { VUse.one with b := true }

/-- `vmov`. -/
def execVxVmov (gd : Guard) (x : Src) (s : State) : Out := s.laneOp gd x .one 2 (fun s d j => s.la d j)
/-- `vbcast`. -/
def execVxVbcast (gd : Guard) (x : Src) (s : State) : Out :=
  s.laneOp gd x { d := true, m := true, z := true } 2 (fun s _ _ => s.vxo)
/-- `vins`. -/
def execVxVins (gd : Guard) (x : Src) (s : State) : Out :=
  s.vx gd x { d := true, xf := true } vnBad (fun d s =>
    .next (s.writeVec d 2 (ofLanes (fun j => if j = vn d then s.vxo else lane (s.readV (vd d)) j))))
/-- `vext`. -/
def execVxVext (gd : Guard) (x : Src) (s : State) : Out :=
  s.vx gd x { a := true, xf := true } vnBad (fun d s =>
    .next (s.launchOp 2 (.res .vxr ((s.la d (vn d)).zeroExtend 64))))
/-- `vperm`. -/
def execVxVperm (gd : Guard) (x : Src) (s : State) : Out :=
  s.laneOp gd x .perm 2 (fun s d j => s.la d ((s.lb d j).toNat % 64))
/-- `vrot`. -/
def execVxVrot (gd : Guard) (x : Src) (s : State) : Out :=
  s.vx gd x { VUse.one with xf := true } vnBad (fun d s =>
    .next (s.writeVec d 2 (s.lanes d (fun j => s.la d ((j + vn d) % 64)))))
/-- `vzip.lo`. -/
def execVxVzipLo (gd : Guard) (x : Src) (s : State) : Out :=
  s.laneOp gd x .two 2 (fun s d j => if j % 2 = 0 then s.la d (j / 2) else s.lb d (j / 2))
/-- `vzip.hi`. -/
def execVxVzipHi (gd : Guard) (x : Src) (s : State) : Out :=
  s.laneOp gd x .two 2 (fun s d j => if j % 2 = 0 then s.la d (32 + j / 2) else s.lb d (32 + j / 2))
/-- `vcomp`. -/
def execVxVcomp (gd : Guard) (x : Src) (s : State) : Out :=
  s.vx gd x { d := true, a := true, m := true } (fun d => !vme d) (fun d s =>
    let sel := (List.range 64).filter (s.vsel d)
    .next (s.writeVec d 2 (ofLanes (fun j => match sel[j]? with
      | some i => s.la d i
      | none => 0))))

/-! ## Reductions (R244) -/

/-- The selected lanes of operand a. -/
def State.chosen (s : State) (d : Word) : List (BitVec 32) := ((List.range 64).filter (s.vsel d)).map (s.la d)

/-- A reduction into `vx.r`. -/
def State.reduce (s : State) (gd : Guard) (x : Src) (L : Nat) (f : List (BitVec 32) → Word) : Out :=
  s.vx gd x { a := true, m := true } (fun _ => false) (fun d s => .next (s.launchOp L (.res .vxr (f (s.chosen d)))))

/-- A floating minimum or maximum of lanes; canonical NaN where any is NaN (R244). -/
def foldFloat (p : BitVec 32 → BitVec 32 → BitVec 32) (start : BitVec 32) (l : List (BitVec 32)) : Word :=
  (l.foldl p start).zeroExtend 64

/-- `vradd.i32`. -/
def execVxVraddI32 (gd : Guard) (x : Src) (s : State) : Out :=
  s.reduce gd x 4 (fun l => BitVec.ofInt 64 (l.foldl (fun (t : Int) a => t + a.toInt) 0))
/-- `vradd.f32`. -/
def execVxVraddF32 (gd : Guard) (x : Src) (s : State) : Out :=
  s.vx gd x { a := true, m := true, r := true } (fun _ => false) (fun d s =>
    let (c, fl) := roundLane (vmode d) (sumNum ((s.chosen d).map read32))
    .next ((s.launchOp 6 (.res .vxr (c.zeroExtend 64))).launchOp 6 (.flags fl)))
/-- `vrmin.i32`. -/
def execVxVrminI32 (gd : Guard) (x : Src) (s : State) : Out :=
  s.reduce gd x 4 (fun l => BitVec.ofInt 64 (l.foldl (fun (t : Int) a => min t a.toInt) (2 ^ 31 - 1)))
/-- `vrmax.i32`. -/
def execVxVrmaxI32 (gd : Guard) (x : Src) (s : State) : Out :=
  s.reduce gd x 4 (fun l => BitVec.ofInt 64 (l.foldl (fun (t : Int) a => max t a.toInt) (-2 ^ 31)))
/-- `vrminu.i32`. -/
def execVxVrminuI32 (gd : Guard) (x : Src) (s : State) : Out :=
  s.reduce gd x 4 (fun l => BitVec.ofNat 64 (l.foldl (fun t a => min t a.toNat) 0xFFFFFFFF))
/-- `vrmaxu.i32`. -/
def execVxVrmaxuI32 (gd : Guard) (x : Src) (s : State) : Out :=
  s.reduce gd x 4 (fun l => BitVec.ofNat 64 (l.foldl (fun t a => max t a.toNat) 0))
/-- `vrmin.f32`. -/
def execVxVrminF32 (gd : Guard) (x : Src) (s : State) : Out := s.reduce gd x 6 (foldFloat minLane 0x7F800000)
/-- `vrmax.f32`. -/
def execVxVrmaxF32 (gd : Guard) (x : Src) (s : State) : Out := s.reduce gd x 6 (foldFloat maxLane 0xFF800000)

/-! ## Dot product, random bits and index vectors (R245, R246) -/

/-- Groups of a format in a register (R245). -/
def dotGroups (f : Fmt) : Nat := min 64 (2048 / (16 * f.width))

/-- Pairs of group g of two registers (R245). -/
def State.dotPairs (s : State) (d : Word) (f : Fmt) (g : Nat) : List (Val × Val) :=
  (List.range 16).map (fun i => (f.read (elem (s.readV (va d)).toNat f.width (16 * g + i)),
    f.read (elem (s.readV (vb d)).toNat f.width (16 * g + i))))

/-- One lane of `vdot.g16` (R245). -/
def State.dotLane (s : State) (d : Word) (f : Fmt) (g : Nat) : BitVec 32 × Flags :=
  let (S, f1) := groupSum (bodyBits f f) (f.planes.getD 0) (s.dotPairs d f g)
  let (y, f2) := addNum (read32 (s.lc d g)) S
  let (c, f3) := round32 (vmode d) y
  (c, f1 ||| f2 ||| f3)

/-- `vdot.g16`. -/
def execVxVdotG16 (gd : Guard) (x : Src) (s : State) : Out :=
  s.vx gd x { VUse.perm with c := true, r := true, xf := true }
    (fun d => decide (fld d 39 32 ≠ 0) || decide (fld d 31 28 < 2) || decide (8 < fld d 31 28)) (fun d s =>
    match cvtFrom d with
    | some f =>
      let y := s.dotLane d f
      let nG := dotGroups f
      let v := ofLanes (fun g => if nG ≤ g then lane (s.readV (vd d)) g else if s.vsel d g then (y g).1
        else if vzm d then 0 else lane (s.readV (vd d)) g)
      let fl := s.laneFlags d (fun g => if g < nG then (y g).2 else 0)
      .next ((s.writeVec d 6 v).launchOp 6 (.flags fl))
    | none => .next s)

/-- `rnd32`. -/
def execVxRnd32 (gd : Guard) (x : Src) (s : State) : Out :=
  s.laneOp gd x .perm 4 (fun s d j =>
    BitVec.ofNat 32 (rnd32 (s.opd .vxo).toNat ((s.la d j).toNat + 2 ^ 32 * (s.lb d j).toNat)))

/-- `viota`. -/
def execVxViota (gd : Guard) (x : Src) (s : State) : Out :=
  s.laneOp gd x { d := true, m := true, z := true } 2 (fun s _ j => s.vxo + BitVec.ofNat 32 j)

end Sys2Proof.Machine
end

