-- ==== Sys2Proof/Machine/Dispatch.lean ====
section
/-!
DEFINITION. Every instruction and its meaning: one arm per constructor.
-/

namespace Sys2Proof.Machine

open Sys2Proof

/-- One instruction or event performed. -/
def exec (i : Instr) (s : State) : Host.Outcome State Fault Refusal :=
  match i with
  | .move gd x d => Sys2Proof.Machine.execMove gd x d s
  | .literalSignExtending p => Sys2Proof.Machine.execLiteralSignExtending p s
  | .literalZeroExtending p => Sys2Proof.Machine.execLiteralZeroExtending p s
  | .emptySlot => Sys2Proof.Machine.execEmptySlot s
  | .iaAdd gd u x => Sys2Proof.Machine.execIaAdd gd u x s
  | .iaSub gd u x => Sys2Proof.Machine.execIaSub gd u x s
  | .iaAdc gd u x => Sys2Proof.Machine.execIaAdc gd u x s
  | .iaSbc gd u x => Sys2Proof.Machine.execIaSbc gd u x s
  | .iaAdds gd u x => Sys2Proof.Machine.execIaAdds gd u x s
  | .iaSubs gd u x => Sys2Proof.Machine.execIaSubs gd u x s
  | .iaMin gd u x => Sys2Proof.Machine.execIaMin gd u x s
  | .iaMax gd u x => Sys2Proof.Machine.execIaMax gd u x s
  | .iaMinu gd u x => Sys2Proof.Machine.execIaMinu gd u x s
  | .iaMaxu gd u x => Sys2Proof.Machine.execIaMaxu gd u x s
  | .iaAbs gd u x => Sys2Proof.Machine.execIaAbs gd u x s
  | .iaMul gd u x => Sys2Proof.Machine.execIaMul gd u x s
  | .iaMulu gd u x => Sys2Proof.Machine.execIaMulu gd u x s
  | .iaMulsu gd u x => Sys2Proof.Machine.execIaMulsu gd u x s
  | .iaDiv gd u x => Sys2Proof.Machine.execIaDiv gd u x s
  | .iaDivu gd u x => Sys2Proof.Machine.execIaDivu gd u x s
  | .iaAnd gd u x => Sys2Proof.Machine.execIaAnd gd u x s
  | .iaOr gd u x => Sys2Proof.Machine.execIaOr gd u x s
  | .iaXor gd u x => Sys2Proof.Machine.execIaXor gd u x s
  | .iaAndn gd u x => Sys2Proof.Machine.execIaAndn gd u x s
  | .iaShl gd u x => Sys2Proof.Machine.execIaShl gd u x s
  | .iaShr gd u x => Sys2Proof.Machine.execIaShr gd u x s
  | .iaSar gd u x => Sys2Proof.Machine.execIaSar gd u x s
  | .iaRol gd u x => Sys2Proof.Machine.execIaRol gd u x s
  | .iaRor gd u x => Sys2Proof.Machine.execIaRor gd u x s
  | .iaClz gd u x => Sys2Proof.Machine.execIaClz gd u x s
  | .iaCtz gd u x => Sys2Proof.Machine.execIaCtz gd u x s
  | .iaPopc gd u x => Sys2Proof.Machine.execIaPopc gd u x s
  | .iaBext gd u x => Sys2Proof.Machine.execIaBext gd u x s
  | .iaBexts gd u x => Sys2Proof.Machine.execIaBexts gd u x s
  | .iaSeq gd u x => Sys2Proof.Machine.execIaSeq gd u x s
  | .iaSne gd u x => Sys2Proof.Machine.execIaSne gd u x s
  | .iaSlt gd u x => Sys2Proof.Machine.execIaSlt gd u x s
  | .iaSltu gd u x => Sys2Proof.Machine.execIaSltu gd u x s
  | .iaSle gd u x => Sys2Proof.Machine.execIaSle gd u x s
  | .iaSleu gd u x => Sys2Proof.Machine.execIaSleu gd u x s
  | .iaSext gd u x => Sys2Proof.Machine.execIaSext gd u x s
  | .iaZext gd u x => Sys2Proof.Machine.execIaZext gd u x s
  | .iaBswap gd u x => Sys2Proof.Machine.execIaBswap gd u x s
  | .agAdd gd x => Sys2Proof.Machine.execAgAdd gd x s
  | .agIdx gd x => Sys2Proof.Machine.execAgIdx gd x s
  | .agPost gd x => Sys2Proof.Machine.execAgPost gd x s
  | .agPre gd x => Sys2Proof.Machine.execAgPre gd x s
  | .agRing gd x => Sys2Proof.Machine.execAgRing gd x s
  | .agAlign gd x => Sys2Proof.Machine.execAgAlign gd x s
  | .agSlot gd x => Sys2Proof.Machine.execAgSlot gd x s
  | .agAcc gd x => Sys2Proof.Machine.execAgAcc gd x s
  | .lsSldB gd x => Sys2Proof.Machine.execLsSldB gd x s
  | .lsSldBu gd x => Sys2Proof.Machine.execLsSldBu gd x s
  | .lsSldH gd x => Sys2Proof.Machine.execLsSldH gd x s
  | .lsSldHu gd x => Sys2Proof.Machine.execLsSldHu gd x s
  | .lsSldW gd x => Sys2Proof.Machine.execLsSldW gd x s
  | .lsSldWu gd x => Sys2Proof.Machine.execLsSldWu gd x s
  | .lsSldD gd x => Sys2Proof.Machine.execLsSldD gd x s
  | .lsSvld gd x => Sys2Proof.Machine.execLsSvld gd x s
  | .lsSstB gd x => Sys2Proof.Machine.execLsSstB gd x s
  | .lsSstH gd x => Sys2Proof.Machine.execLsSstH gd x s
  | .lsSstW gd x => Sys2Proof.Machine.execLsSstW gd x s
  | .lsSstD gd x => Sys2Proof.Machine.execLsSstD gd x s
  | .lsSvst gd x => Sys2Proof.Machine.execLsSvst gd x s
  | .lsLdB gd x => Sys2Proof.Machine.execLsLdB gd x s
  | .lsLdBu gd x => Sys2Proof.Machine.execLsLdBu gd x s
  | .lsLdH gd x => Sys2Proof.Machine.execLsLdH gd x s
  | .lsLdHu gd x => Sys2Proof.Machine.execLsLdHu gd x s
  | .lsLdW gd x => Sys2Proof.Machine.execLsLdW gd x s
  | .lsLdWu gd x => Sys2Proof.Machine.execLsLdWu gd x s
  | .lsLdD gd x => Sys2Proof.Machine.execLsLdD gd x s
  | .lsLdQ gd x => Sys2Proof.Machine.execLsLdQ gd x s
  | .lsVld gd x => Sys2Proof.Machine.execLsVld gd x s
  | .lsLdWAcq gd x => Sys2Proof.Machine.execLsLdWAcq gd x s
  | .lsLdDAcq gd x => Sys2Proof.Machine.execLsLdDAcq gd x s
  | .lsStB gd x => Sys2Proof.Machine.execLsStB gd x s
  | .lsStH gd x => Sys2Proof.Machine.execLsStH gd x s
  | .lsStW gd x => Sys2Proof.Machine.execLsStW gd x s
  | .lsStD gd x => Sys2Proof.Machine.execLsStD gd x s
  | .lsStQ gd x => Sys2Proof.Machine.execLsStQ gd x s
  | .lsVst gd x => Sys2Proof.Machine.execLsVst gd x s
  | .lsStWRel gd x => Sys2Proof.Machine.execLsStWRel gd x s
  | .lsStDRel gd x => Sys2Proof.Machine.execLsStDRel gd x s
  | .lsRstD gd x => Sys2Proof.Machine.execLsRstD gd x s
  | .lsAmoAdd gd x => Sys2Proof.Machine.execLsAmoAdd gd x s
  | .lsAmoAnd gd x => Sys2Proof.Machine.execLsAmoAnd gd x s
  | .lsAmoOr gd x => Sys2Proof.Machine.execLsAmoOr gd x s
  | .lsAmoXor gd x => Sys2Proof.Machine.execLsAmoXor gd x s
  | .lsAmoMin gd x => Sys2Proof.Machine.execLsAmoMin gd x s
  | .lsAmoMax gd x => Sys2Proof.Machine.execLsAmoMax gd x s
  | .lsAmoMinu gd x => Sys2Proof.Machine.execLsAmoMinu gd x s
  | .lsAmoMaxu gd x => Sys2Proof.Machine.execLsAmoMaxu gd x s
  | .lsAmoSwap gd x => Sys2Proof.Machine.execLsAmoSwap gd x s
  | .lsAmoCas gd x => Sys2Proof.Machine.execLsAmoCas gd x s
  | .lsAmoFadd gd x => Sys2Proof.Machine.execLsAmoFadd gd x s
  | .lsAmoAddC gd x => Sys2Proof.Machine.execLsAmoAddC gd x s
  | .lsAmoAndC gd x => Sys2Proof.Machine.execLsAmoAndC gd x s
  | .lsAmoOrC gd x => Sys2Proof.Machine.execLsAmoOrC gd x s
  | .lsAmoXorC gd x => Sys2Proof.Machine.execLsAmoXorC gd x s
  | .lsAmoMinC gd x => Sys2Proof.Machine.execLsAmoMinC gd x s
  | .lsAmoMaxC gd x => Sys2Proof.Machine.execLsAmoMaxC gd x s
  | .lsAmoMinuC gd x => Sys2Proof.Machine.execLsAmoMinuC gd x s
  | .lsAmoMaxuC gd x => Sys2Proof.Machine.execLsAmoMaxuC gd x s
  | .lsAmoSwapC gd x => Sys2Proof.Machine.execLsAmoSwapC gd x s
  | .lsAmoFaddComb gd x => Sys2Proof.Machine.execLsAmoFaddComb gd x s
  | .lsChld gd x => Sys2Proof.Machine.execLsChld gd x s
  | .lsTlk gd x => Sys2Proof.Machine.execLsTlk gd x s
  | .lsTget gd x => Sys2Proof.Machine.execLsTget gd x s
  | .lsTset gd x => Sys2Proof.Machine.execLsTset gd x s
  | .lsLarm gd x => Sys2Proof.Machine.execLsLarm gd x s
  | .vxVaddI32 gd x => Sys2Proof.Machine.execVxVaddI32 gd x s
  | .vxVsubI32 gd x => Sys2Proof.Machine.execVxVsubI32 gd x s
  | .vxVaddsI32 gd x => Sys2Proof.Machine.execVxVaddsI32 gd x s
  | .vxVsubsI32 gd x => Sys2Proof.Machine.execVxVsubsI32 gd x s
  | .vxVaddsuI32 gd x => Sys2Proof.Machine.execVxVaddsuI32 gd x s
  | .vxVsubsuI32 gd x => Sys2Proof.Machine.execVxVsubsuI32 gd x s
  | .vxVmulI32 gd x => Sys2Proof.Machine.execVxVmulI32 gd x s
  | .vxVmulhI32 gd x => Sys2Proof.Machine.execVxVmulhI32 gd x s
  | .vxVminI32 gd x => Sys2Proof.Machine.execVxVminI32 gd x s
  | .vxVmaxI32 gd x => Sys2Proof.Machine.execVxVmaxI32 gd x s
  | .vxVminuI32 gd x => Sys2Proof.Machine.execVxVminuI32 gd x s
  | .vxVmaxuI32 gd x => Sys2Proof.Machine.execVxVmaxuI32 gd x s
  | .vxVand gd x => Sys2Proof.Machine.execVxVand gd x s
  | .vxVor gd x => Sys2Proof.Machine.execVxVor gd x s
  | .vxVxor gd x => Sys2Proof.Machine.execVxVxor gd x s
  | .vxVshl gd x => Sys2Proof.Machine.execVxVshl gd x s
  | .vxVshr gd x => Sys2Proof.Machine.execVxVshr gd x s
  | .vxVsar gd x => Sys2Proof.Machine.execVxVsar gd x s
  | .vxVsel gd x => Sys2Proof.Machine.execVxVsel gd x s
  | .vxVaddF32 gd x => Sys2Proof.Machine.execVxVaddF32 gd x s
  | .vxVsubF32 gd x => Sys2Proof.Machine.execVxVsubF32 gd x s
  | .vxVmulF32 gd x => Sys2Proof.Machine.execVxVmulF32 gd x s
  | .vxVfmaF32 gd x => Sys2Proof.Machine.execVxVfmaF32 gd x s
  | .vxVfmsF32 gd x => Sys2Proof.Machine.execVxVfmsF32 gd x s
  | .vxVminF32 gd x => Sys2Proof.Machine.execVxVminF32 gd x s
  | .vxVmaxF32 gd x => Sys2Proof.Machine.execVxVmaxF32 gd x s
  | .vxVdivF32 gd x => Sys2Proof.Machine.execVxVdivF32 gd x s
  | .vxVsqrtF32 gd x => Sys2Proof.Machine.execVxVsqrtF32 gd x s
  | .vxVabsF32 gd x => Sys2Proof.Machine.execVxVabsF32 gd x s
  | .vxVnegF32 gd x => Sys2Proof.Machine.execVxVnegF32 gd x s
  | .vxVrcpeF32 gd x => Sys2Proof.Machine.execVxVrcpeF32 gd x s
  | .vxVrsqrteF32 gd x => Sys2Proof.Machine.execVxVrsqrteF32 gd x s
  | .vxVexp2F32 gd x => Sys2Proof.Machine.execVxVexp2F32 gd x s
  | .vxVlog2F32 gd x => Sys2Proof.Machine.execVxVlog2F32 gd x s
  | .vxVtanhF32 gd x => Sys2Proof.Machine.execVxVtanhF32 gd x s
  | .vxVceqI32 gd x => Sys2Proof.Machine.execVxVceqI32 gd x s
  | .vxVcltI32 gd x => Sys2Proof.Machine.execVxVcltI32 gd x s
  | .vxVcleI32 gd x => Sys2Proof.Machine.execVxVcleI32 gd x s
  | .vxVcltuI32 gd x => Sys2Proof.Machine.execVxVcltuI32 gd x s
  | .vxVcleuI32 gd x => Sys2Proof.Machine.execVxVcleuI32 gd x s
  | .vxVceqF32 gd x => Sys2Proof.Machine.execVxVceqF32 gd x s
  | .vxVcltF32 gd x => Sys2Proof.Machine.execVxVcltF32 gd x s
  | .vxVcleF32 gd x => Sys2Proof.Machine.execVxVcleF32 gd x s
  | .vxVcunF32 gd x => Sys2Proof.Machine.execVxVcunF32 gd x s
  | .vxMand gd x => Sys2Proof.Machine.execVxMand gd x s
  | .vxMor gd x => Sys2Proof.Machine.execVxMor gd x s
  | .vxMxor gd x => Sys2Proof.Machine.execVxMxor gd x s
  | .vxMandn gd x => Sys2Proof.Machine.execVxMandn gd x s
  | .vxMset gd x => Sys2Proof.Machine.execVxMset gd x s
  | .vxMget gd x => Sys2Proof.Machine.execVxMget gd x s
  | .vxMpopc gd x => Sys2Proof.Machine.execVxMpopc gd x s
  | .vxMfirst gd x => Sys2Proof.Machine.execVxMfirst gd x s
  | .vxVany gd x => Sys2Proof.Machine.execVxVany gd x s
  | .vxVall gd x => Sys2Proof.Machine.execVxVall gd x s
  | .vxVcvt gd x => Sys2Proof.Machine.execVxVcvt gd x s
  | .vxVcvtSc gd x => Sys2Proof.Machine.execVxVcvtSc gd x s
  | .vxVmov gd x => Sys2Proof.Machine.execVxVmov gd x s
  | .vxVbcast gd x => Sys2Proof.Machine.execVxVbcast gd x s
  | .vxVins gd x => Sys2Proof.Machine.execVxVins gd x s
  | .vxVext gd x => Sys2Proof.Machine.execVxVext gd x s
  | .vxVperm gd x => Sys2Proof.Machine.execVxVperm gd x s
  | .vxVrot gd x => Sys2Proof.Machine.execVxVrot gd x s
  | .vxVzipLo gd x => Sys2Proof.Machine.execVxVzipLo gd x s
  | .vxVzipHi gd x => Sys2Proof.Machine.execVxVzipHi gd x s
  | .vxVcomp gd x => Sys2Proof.Machine.execVxVcomp gd x s
  | .vxVraddI32 gd x => Sys2Proof.Machine.execVxVraddI32 gd x s
  | .vxVraddF32 gd x => Sys2Proof.Machine.execVxVraddF32 gd x s
  | .vxVrminI32 gd x => Sys2Proof.Machine.execVxVrminI32 gd x s
  | .vxVrmaxI32 gd x => Sys2Proof.Machine.execVxVrmaxI32 gd x s
  | .vxVrminuI32 gd x => Sys2Proof.Machine.execVxVrminuI32 gd x s
  | .vxVrmaxuI32 gd x => Sys2Proof.Machine.execVxVrmaxuI32 gd x s
  | .vxVrminF32 gd x => Sys2Proof.Machine.execVxVrminF32 gd x s
  | .vxVrmaxF32 gd x => Sys2Proof.Machine.execVxVrmaxF32 gd x s
  | .vxVdotG16 gd x => Sys2Proof.Machine.execVxVdotG16 gd x s
  | .vxRnd32 gd x => Sys2Proof.Machine.execVxRnd32 gd x s
  | .vxViota gd x => Sys2Proof.Machine.execVxViota gd x s
  | .mxMm gd x => Sys2Proof.Machine.execMxMm gd x s
  | .mxMmT gd x => Sys2Proof.Machine.execMxMmT gd x s
  | .mxMmc gd x => Sys2Proof.Machine.execMxMmc gd x s
  | .mxMms gd x => Sys2Proof.Machine.execMxMms gd x s
  | .mxMmsT gd x => Sys2Proof.Machine.execMxMmsT gd x s
  | .mxMmcs gd x => Sys2Proof.Machine.execMxMmcs gd x s
  | .mxCclr gd x => Sys2Proof.Machine.execMxCclr gd x s
  | .mxCacc gd x => Sys2Proof.Machine.execMxCacc gd x s
  | .mxCscl gd x => Sys2Proof.Machine.execMxCscl gd x s
  | .mxStat gd x => Sys2Proof.Machine.execMxStat gd x s
  | .mxDrain gd x => Sys2Proof.Machine.execMxDrain gd x s
  | .mxDrainq gd x => Sys2Proof.Machine.execMxDrainq gd x s
  | .brTgt gd x => Sys2Proof.Machine.execBrTgt gd x s
  | .brCeq gd x => Sys2Proof.Machine.execBrCeq gd x s
  | .brCne gd x => Sys2Proof.Machine.execBrCne gd x s
  | .brClt gd x => Sys2Proof.Machine.execBrClt gd x s
  | .brCge gd x => Sys2Proof.Machine.execBrCge gd x s
  | .brCltu gd x => Sys2Proof.Machine.execBrCltu gd x s
  | .brCgeu gd x => Sys2Proof.Machine.execBrCgeu gd x s
  | .brJmp gd x => Sys2Proof.Machine.execBrJmp gd x s
  | .brJt gd x => Sys2Proof.Machine.execBrJt gd x s
  | .brCall gd x => Sys2Proof.Machine.execBrCall gd x s
  | .brRet gd x => Sys2Proof.Machine.execBrRet gd x s
  | .brLoop gd x => Sys2Proof.Machine.execBrLoop gd x s
  | .syWait gd x => Sys2Proof.Machine.execSyWait gd x s
  | .syWaitall gd x => Sys2Proof.Machine.execSyWaitall gd x s
  | .syExit gd x => Sys2Proof.Machine.execSyExit gd x s
  | .syYield gd x => Sys2Proof.Machine.execSyYield gd x s
  | .sySusp gd x => Sys2Proof.Machine.execSySusp gd x s
  | .syWtok gd x => Sys2Proof.Machine.execSyWtok gd x s
  | .syArmw gd x => Sys2Proof.Machine.execSyArmw gd x s
  | .syFencex gd x => Sys2Proof.Machine.execSyFencex gd x s
  | .syPhase gd x => Sys2Proof.Machine.execSyPhase gd x s
  | .syBar gd x => Sys2Proof.Machine.execSyBar gd x s
  | .syArrive gd x => Sys2Proof.Machine.execSyArrive gd x s
  | .syBleave gd x => Sys2Proof.Machine.execSyBleave gd x s
  | .syTspawn gd x => Sys2Proof.Machine.execSyTspawn gd x s
  | .syTdec gd x => Sys2Proof.Machine.execSyTdec gd x s
  | .syTinc gd x => Sys2Proof.Machine.execSyTinc gd x s
  | .syTkill gd x => Sys2Proof.Machine.execSyTkill gd x s
  | .syTread gd x => Sys2Proof.Machine.execSyTread gd x s
  | .syTself gd x => Sys2Proof.Machine.execSyTself gd x s
  | .syTteam gd x => Sys2Proof.Machine.execSyTteam gd x s
  | .syTprio gd x => Sys2Proof.Machine.execSyTprio gd x s
  | .syRsr gd x => Sys2Proof.Machine.execSyRsr gd x s
  | .syWsr gd x => Sys2Proof.Machine.execSyWsr gd x s
  | .syTrap gd x => Sys2Proof.Machine.execSyTrap gd x s
  | .syTret gd x => Sys2Proof.Machine.execSyTret gd x s
  | .qpPush gd x => Sys2Proof.Machine.execQpPush gd x s
  | .qpPushw gd x => Sys2Proof.Machine.execQpPushw gd x s
  | .qpPushn gd x => Sys2Proof.Machine.execQpPushn gd x s
  | .qpFree gd x => Sys2Proof.Machine.execQpFree gd x s
  | .spSend gd x => Sys2Proof.Machine.execSpSend gd x s
  | .spSendn gd x => Sys2Proof.Machine.execSpSendn gd x s
  | .spRecv gd x => Sys2Proof.Machine.execSpRecv gd x s
  | .spRecvn gd x => Sys2Proof.Machine.execSpRecvn gd x s
  | .spCnt gd x => Sys2Proof.Machine.execSpCnt gd x s
  | .pwAcq gd x => Sys2Proof.Machine.execPwAcq gd x s
  | .pwRel gd x => Sys2Proof.Machine.execPwRel gd x s
  | .pwCls gd x => Sys2Proof.Machine.execPwCls gd x s
  | .pwDst gd x => Sys2Proof.Machine.execPwDst gd x s
  | .pwGate gd x => Sys2Proof.Machine.execPwGate gd x s
  | .pwUngate gd x => Sys2Proof.Machine.execPwUngate gd x s
  | .pwMsd gd x => Sys2Proof.Machine.execPwMsd gd x s
  | .pwMst gd x => Sys2Proof.Machine.execPwMst gd x s
  | .operationResultWrite => Sys2Proof.Machine.execOperationResultWrite s
  | .stallSuspension => Sys2Proof.Machine.execStallSuspension s
  | .spireFull => Sys2Proof.Machine.execSpireFull s
  | .spireEntryArrival => Sys2Proof.Machine.execSpireEntryArrival s
  | .armwTimeout => Sys2Proof.Machine.execArmwTimeout s
  | .localWritePacket space off data source => Sys2Proof.Machine.execLocalWritePacket space off data source s
  | .deviceLoadComplete d => Sys2Proof.Machine.execDeviceLoadComplete d s
  | .deviceAccessReply id => Sys2Proof.Machine.execDeviceAccessReply id s
  | .sliceWrite id held => Sys2Proof.Machine.execSliceWrite id held s
  | .sliceRead id => Sys2Proof.Machine.execSliceRead id s
  | .sliceAtomic id held => Sys2Proof.Machine.execSliceAtomic id held s
  | .sliceLineArrival line => Sys2Proof.Machine.execSliceLineArrival line s
  | .baseDieAccess ctx key pa whole cmp => Sys2Proof.Machine.execBaseDieAccess ctx key pa whole cmp s
  | .towerWalk id => Sys2Proof.Machine.execTowerWalk id s
  | .shadowWalk => Sys2Proof.Machine.execShadowWalk s
  | .parkLimit => Sys2Proof.Machine.execParkLimit s
  | .freplRetry tok => Sys2Proof.Machine.execFreplRetry tok s
  | .freplAbort tok => Sys2Proof.Machine.execFreplAbort tok s
  | .tlbinv tower val => Sys2Proof.Machine.execTlbinv tower val s
  | .tlbinvDone tower => Sys2Proof.Machine.execTlbinvDone tower s
  | .preq tower val => Sys2Proof.Machine.execPreq tower val s
  | .actclr tower => Sys2Proof.Machine.execActclr tower s
  | .domeRegisterWrite tower num val => Sys2Proof.Machine.execDomeRegisterWrite tower num val s
  | .thermalSample stack deg => Sys2Proof.Machine.execThermalSample stack deg s
  | .budgetWindow d => Sys2Proof.Machine.execBudgetWindow d s
  | .powerGrant d => Sys2Proof.Machine.execPowerGrant d s
  | .grantTimeout => Sys2Proof.Machine.execGrantTimeout s
  | .domainGated d => Sys2Proof.Machine.execDomainGated d s
  | .domainPowerReturn d => Sys2Proof.Machine.execDomainPowerReturn d s
  | .engineCommandAccept e => Sys2Proof.Machine.execEngineCommandAccept e s
  | .pushBufferDrain => Sys2Proof.Machine.execPushBufferDrain s
  | .engineCommandStart e => Sys2Proof.Machine.execEngineCommandStart e s
  | .engineCommandComplete e j => Sys2Proof.Machine.execEngineCommandComplete e j s
  | .streamSbpop e n => Sys2Proof.Machine.execStreamSbpop e n s
  | .streamSbpush e data => Sys2Proof.Machine.execStreamSbpush e data s
  | .routineEcall e a0 => Sys2Proof.Machine.execRoutineEcall e a0 s
  | .routineWatchdog e => Sys2Proof.Machine.execRoutineWatchdog e s
  | .collectiveAbort e => Sys2Proof.Machine.execCollectiveAbort e s
  | .combineArrival r id => Sys2Proof.Machine.execCombineArrival r id s
  | .waitBufferRelease r => Sys2Proof.Machine.execWaitBufferRelease r s
  | .splitReply r id => Sys2Proof.Machine.execSplitReply r id s
  | .chainStep id => Sys2Proof.Machine.execChainStep id s
  | .chainReturn id => Sys2Proof.Machine.execChainReturn id s
  | .mxOpStart => Sys2Proof.Machine.execMxOpStart s
  | .mxRangeRelease => Sys2Proof.Machine.execMxRangeRelease s
  | .mxStreamWait => Sys2Proof.Machine.execMxStreamWait s
  | .mxOpComplete => Sys2Proof.Machine.execMxOpComplete s
  | .barrierArrival id => Sys2Proof.Machine.execBarrierArrival id s
  | .taskExitReport tid => Sys2Proof.Machine.execTaskExitReport tid s
  | .taskWake tid => Sys2Proof.Machine.execTaskWake tid s
  | .brickTakesWork => Sys2Proof.Machine.execBrickTakesWork s
  | .dispatch => Sys2Proof.Machine.execDispatch s
  | .teamDispatch tower => Sys2Proof.Machine.execTeamDispatch tower s
  | .localQueueRecall => Sys2Proof.Machine.execLocalQueueRecall s
  | .queueRefill tower prio => Sys2Proof.Machine.execQueueRefill tower prio s
  | .balancingRound tower => Sys2Proof.Machine.execBalancingRound tower s
  | .teamSliceEnd launch => Sys2Proof.Machine.execTeamSliceEnd launch s
  | .preempt => Sys2Proof.Machine.execPreempt s
  | .restore tid => Sys2Proof.Machine.execRestore tid s
  | .savedImageWrite tid space off data => Sys2Proof.Machine.execSavedImageWrite tid space off data s
  | .gangSliceStart j => Sys2Proof.Machine.execGangSliceStart j s
  | .gangSliceEnd => Sys2Proof.Machine.execGangSliceEnd s
  | .gangSkewExpiry => Sys2Proof.Machine.execGangSkewExpiry s
  | .gangAbort => Sys2Proof.Machine.execGangAbort s
  | .launchRingWake ctx => Sys2Proof.Machine.execLaunchRingWake ctx s
  | .launchExpand => Sys2Proof.Machine.execLaunchExpand s
  | .launchComplete launch => Sys2Proof.Machine.execLaunchComplete launch s
  | .msdComplete id => Sys2Proof.Machine.execMsdComplete id s
  | .holdupFreeze => Sys2Proof.Machine.execHoldupFreeze s
  | .holdupSave n => Sys2Proof.Machine.execHoldupSave n s
  | .holdupSeal => Sys2Proof.Machine.execHoldupSeal s
  | .supplyReturn => Sys2Proof.Machine.execSupplyReturn s
  | .reset => Sys2Proof.Machine.execReset s
  | .rdmaWrite port qp rkey va data => Sys2Proof.Machine.execRdmaWrite port qp rkey va data s
  | .rdmaRead port qp rkey va len => Sys2Proof.Machine.execRdmaRead port qp rkey va len s
  | .atomicFetchAdd port qp rkey va add => Sys2Proof.Machine.execAtomicFetchAdd port qp rkey va add s
  | .atomicCmpSwap port qp rkey va cmp swap => Sys2Proof.Machine.execAtomicCmpSwap port qp rkey va cmp swap s
  | .readConfiguration h pl => Sys2Proof.Machine.execReadConfiguration h pl s
  | .readDomeRegister h pl => Sys2Proof.Machine.execReadDomeRegister h pl s
  | .writeDomeRegister h pl => Sys2Proof.Machine.execWriteDomeRegister h pl s
  | .setContext h pl => Sys2Proof.Machine.execSetContext h pl s
  | .setWindow h pl => Sys2Proof.Machine.execSetWindow h pl s
  | .setRegion h pl => Sys2Proof.Machine.execSetRegion h pl s
  | .openKeyTransport h pl => Sys2Proof.Machine.execOpenKeyTransport h pl s
  | .loadKey h pl => Sys2Proof.Machine.execLoadKey h pl s
  | .clearKey h pl => Sys2Proof.Machine.execClearKey h pl s
  | .keySlotCleared slot => Sys2Proof.Machine.execKeySlotCleared slot s
  | .attest h pl => Sys2Proof.Machine.execAttest h pl s
  | .debugNonce h pl => Sys2Proof.Machine.execDebugNonce h pl s
  | .debugUnlock h pl => Sys2Proof.Machine.execDebugUnlock h pl s
  | .debugRevoke h pl => Sys2Proof.Machine.execDebugRevoke h pl s
  | .restartReport h pl => Sys2Proof.Machine.execRestartReport h pl s
  | .readKeep h pl => Sys2Proof.Machine.execReadKeep h pl s
  | .stageFirmware h pl => Sys2Proof.Machine.execStageFirmware h pl s
  | .commitFirmware h pl => Sys2Proof.Machine.execCommitFirmware h pl s
  | .setGroup h pl => Sys2Proof.Machine.execSetGroup h pl s
  | .setNode h pl => Sys2Proof.Machine.execSetNode h pl s
  | .readLogs h pl => Sys2Proof.Machine.execReadLogs h pl s
  | .flitReceive link flit => Sys2Proof.Machine.execFlitReceive link flit s
  | .fabricStore src pa q d tag => Sys2Proof.Machine.execFabricStore src pa q d tag s
  | .fabricLoad src pa q len tag => Sys2Proof.Machine.execFabricLoad src pa q len tag s
  | .fabricLoadReply id data r => Sys2Proof.Machine.execFabricLoadReply id data r s
  | .fabricAtomic q pa op w8 mode opd cmp poisoned => Sys2Proof.Machine.execFabricAtomic q pa op w8 mode opd cmp poisoned s
  | .fabricCombinableAtomic q pa op w8 mode opd poisoned => Sys2Proof.Machine.execFabricCombinableAtomic q pa op w8 mode opd poisoned s
  | .fabricAtomicReply id old flags status kind => Sys2Proof.Machine.execFabricAtomicReply id old flags status kind s
  | .fabricChainStep p => Sys2Proof.Machine.execFabricChainStep p s
  | .fabricChainReturn id status kind step addr val => Sys2Proof.Machine.execFabricChainReturn id status kind step addr val s
  | .fabricCollective e rank d => Sys2Proof.Machine.execFabricCollective e rank d s
  | .fabricControl src gang time => Sys2Proof.Machine.execFabricControl src gang time s
  | .fabricAcknowledgement a => Sys2Proof.Machine.execFabricAcknowledgement a s
  | .fabricTimeSync => Sys2Proof.Machine.execFabricTimeSync s
  | .linkLaneChange link use => Sys2Proof.Machine.execLinkLaneChange link use s
  | .linkDown link => Sys2Proof.Machine.execLinkDown link s
  | .supplyEnd => Sys2Proof.Machine.execSupplyEnd s
  | .linkTraining link combines => Sys2Proof.Machine.execLinkTraining link combines s
  | .halt brick => Sys2Proof.Machine.execHalt brick s
  | .haltResume brick => Sys2Proof.Machine.execHaltResume brick s
  | .lockFuseBlow => Sys2Proof.Machine.execLockFuseBlow s
  | .brickRetirement brick => Sys2Proof.Machine.execBrickRetirement brick s
  | .bStreamDelivery => Sys2Proof.Machine.execBStreamDelivery s
  | .hostResponse e j ok data => Sys2Proof.Machine.execHostResponse e j ok data s
  | .retryExhaustion e j => Sys2Proof.Machine.execRetryExhaustion e j s
  | .streamCoreTrap e mcause => Sys2Proof.Machine.execStreamCoreTrap e mcause s
  | .gangSliceBroadcast j start => Sys2Proof.Machine.execGangSliceBroadcast j start s
  | .pauseFrame port pause => Sys2Proof.Machine.execPauseFrame port pause s

end Sys2Proof.Machine
end

