-- ==== Sys2Proof/Machine/Protect.lean ====
section
/-!
DEFINITION. The protected words that the slots of a bundle read and write beyond the local stores (R142 to R144): register
files, snapshot cache, spire FIFO, wake queue and range scoreboard.
-/

namespace Sys2Proof.Machine

open Sys2Proof

noncomputable section

/-! ## Register words (R142, R147, R150, R228 to R232) -/

/-- The source of a move slot. -/
def slotX (w : BitVec 24) : Src := (decodeSrc (slotSrc w)).getD .zero

/-- The value of a slot's source. -/
def State.slotSource (s : State) (i : Instr) : Word :=
  match encode i with
  | some w => s.src (slotX w)
  | none => 0

/-- The register word of a g name. -/
def State.gWord (s : State) (n : Nat) : Nat := physG s.b.r.rrb n

/-- The register words of a v name. -/
def State.vWords (s : State) (n : Nat) : List Nat := (vecWords (physV s.b.r.rrb n) (-1)).map Prod.fst

/-- The register words of a source (R150). -/
def State.srcWords (s : State) : Src → List Nat
  | .g n => [s.gWord n.val]
  | .k _ => [guardWord]
  | .kw => [guardWord]
  | _ => []

/-- Whether a code is one of a list or lies in one of its ranges. -/
def codeIn (c : Nat) (l : List (Nat × Nat)) : Bool := l.any (fun r => decide (r.1 ≤ c) && decide (c ≤ r.2))

/-- Vector operations that read v[va] (R236 to R246). -/
def readsA (c : Nat) : Bool :=
  codeIn c [(0x1C0, 0x1D2), (0x1E0, 0x1EA), (0x1F0, 0x1F4), (0x200, 0x208), (0x220, 0x221), (0x230, 0x230),
    (0x233, 0x238), (0x240, 0x247), (0x250, 0x251)]

/-- Vector operations that read v[vb], unless `vx.o` stands for it. -/
def readsB (c : Nat) : Bool :=
  codeIn c [(0x1C0, 0x1D2), (0x1E0, 0x1E7), (0x200, 0x208), (0x234, 0x234), (0x236, 0x237), (0x250, 0x251)]

/-- Vector operations that read v[vc]. -/
def readsC (c : Nat) : Bool := codeIn c [(0x1E3, 0x1E4), (0x250, 0x250)]

/-- Vector operations that read mask va. -/
def readsMa (c : Nat) : Bool := codeIn c [(0x210, 0x213), (0x215, 0x219)]

/-- Vector operations that read mask vb. -/
def readsMb (c : Nat) : Bool := codeIn c [(0x210, 0x213)]

/-- Vector operations that write v[vd] in part whatever is selected: `vcvt`, `vcvt.sc`, `vins`, `vdot.g16`. -/
def keepsD (c : Nat) : Bool := codeIn c [(0x220, 0x221), (0x232, 0x232), (0x250, 0x250)]

/-- Vector operations that write v[vd] lane by lane. -/
def mergesD (c : Nat) : Bool :=
  codeIn c [(0x1C0, 0x1D1), (0x1E0, 0x1EA), (0x1F0, 0x1F4), (0x220, 0x221), (0x230, 0x231), (0x234, 0x237), (0x250, 0x252)]

/-- The register words that a vector operation reads: operands, mask, and the old value of vd where lanes of it stay
(R231, R232). -/
def State.vxWords (s : State) (c : Nat) (d : Word) : List Nat :=
  (if readsA c then s.vWords (fld d 9 5) else []) ++
  (if readsB c && !bit d.toNat 25 then s.vWords (fld d 14 10) else []) ++
  (if readsC c then s.vWords (fld d 19 15) else []) ++
  (if readsMa c then [maskWord (fld d 9 5)] else []) ++
  (if readsMb c then [maskWord (fld d 14 10)] else []) ++
  (if bit d.toNat 23 || c == 0x1D2 then [maskWord (fld d 22 20)] else []) ++
  (if keepsD c || (mergesD c && bit d.toNat 23 && !bit d.toNat 24) then s.vWords (fld d 4 0) else [])

/-- The register words that an operation reads beside its source: vector operands, the register and lanes of a vector
access, the register that `send` moves, and the trip counts of `loop`. -/
def State.opWords (s : State) (i : Instr) (c : Nat) (a : Word) : List Nat :=
  let d := s.opd .lsa
  let lanes := if bit d.toNat 9 then [maskWord (fld d 8 6)] else []
  match i with
  | .lsSvld _ _ => lanes
  | .lsVld _ _ => lanes
  | .lsSvst _ _ => s.vWords (fld d 4 0) ++ lanes
  | .lsVst _ _ => s.vWords (fld d 4 0) ++ lanes
  | .spSend _ _ => s.vWords a.toNat
  | .spSendn _ _ => s.vWords a.toNat
  | .brLoop _ _ => (List.range (fld a 16 14 + 1)).map (fun n => s.gWord (8 + n))
  | _ => if unitOf c = 5 then s.vxWords c a else []

/-! ## Words of the other arrays -/

/-- Bytes of a plain device load, which may read the snapshot cache (R140, R204). -/
def plainLoad : Instr → Option Nat
  | .lsLdB _ _ => some 1
  | .lsLdBu _ _ => some 1
  | .lsLdH _ _ => some 2
  | .lsLdHu _ _ => some 2
  | .lsLdW _ _ => some 4
  | .lsLdWu _ _ => some 4
  | .lsLdD _ _ => some 8
  | .lsLdQ _ _ => some 16
  | .lsVld _ _ => some 256
  | _ => none

/-- The words of held snapshot lines that a plain load reads (R142, array 0x05). -/
def State.loadWords (s : State) (a n : Nat) : List Nat :=
  match s.xlate s.b.dataLook s.b.t.ctx a .read false with
  | .error _ => []
  | .ok pa =>
    if (linesOf pa n).all (fun l => s.b.snap.any (fun x => x.ctx == s.b.t.ctx && x.line == l)) then
      (snapWords s.b.t.ctx pa n).map Prod.fst
    else []

/-- Whether an operation checks the range scoreboard: a local access, or a push (R124). -/
def checksScore : Instr → Bool
  | .lsSldB _ _ => true
  | .lsSldBu _ _ => true
  | .lsSldH _ _ => true
  | .lsSldHu _ _ => true
  | .lsSldW _ _ => true
  | .lsSldWu _ _ => true
  | .lsSldD _ _ => true
  | .lsSvld _ _ => true
  | .lsSstB _ _ => true
  | .lsSstH _ _ => true
  | .lsSstW _ _ => true
  | .lsSstD _ _ => true
  | .lsSvst _ _ => true
  | .lsChld _ _ => true
  | .qpPush _ _ => true
  | .qpPushw _ _ => true
  | .qpPushn _ _ => true
  | _ => false

/-- The words that an operation reads of the arrays other than the register files, as array and word. -/
def State.otherWords (s : State) (i : Instr) (a : Word) : List (Nat × Nat) :=
  (match plainLoad i with
    | some n => (s.loadWords a.toNat n).map (fun w => (5, w))
    | none => []) ++
  (if checksScore i then s.b.score.map (fun h => (11, hullWord h)) else []) ++
  (match i with
    | .spRecv _ _ => if s.b.spAvail = 0 then [] else (List.range 32).map (fun w => (10, w))
    | .spRecvn _ _ => if s.b.spAvail = 0 then [] else (List.range 32).map (fun w => (10, w))
    | .syWtok _ _ => if s.b.y.wakeQ = [] then [] else [(11, 0)]
    | _ => [])

/-- Every protected word that a slot reads: its guard word, which a stage tag does not read (R184), and where that lets it take effect its source and what its
operation reads (log 49). -/
def State.slotWords (s : State) (i : Instr) : List (Nat × Nat) :=
  match encode i, i.guard with
  | some w, some gd =>
    (if s.readsGuard gd then [(9, guardWord)] else []) ++
    (if s.guardOn gd then
      let x := slotX w
      let a := s.src x
      (s.srcWords x ++ s.opWords i (slotDst w) a).map (fun n => (9, n)) ++ s.otherWords i a
    else [])
  | _, _ => []

/-- The trap of an uncorrectable word met at issue (R142): poisoned data for a word that the program addressed, else the
machine check. -/
def State.badWord (s : State) (e : EccErr) (va : Word) : State :=
  if e.array = 5 then s.raise 3 { plainTrap 6 2 with addr := va }
  else s.machineCheck (errOffset e.array e.word) e.array (syndromeOf e.array e.bits)

/-! ## A bundle that has issued -/

/-- The spire FIFO's entries that a bundle sent, protected in the partner's array. -/
def State.protectSent (t s : State) : State :=
  let p := t.partner
  let n := s.partner.spq.length
  if n < p.spq.length then t.setBrick (partnerOf t.b.bid) (p.plant 10 (entryWords 32 n p.spq.length)) else t

/-- The protected words of a bundle whose slots have been performed: what it read is corrected, what it took out of a
queue leaves, and what it put into one is written. `s` is the state before its slots, `ws` the words they read. -/
def State.protect (t s : State) (ws : List (Nat × Nat)) : State :=
  if s.b.ecc = [] ∧ !bit s.b.y.einj.toNat 63 ∧ !bit s.partner.y.einj.toNat 63 ∧ s.partner.ecc = [] then t
  else
    let took := decide (t.b.spq.length < s.b.spq.length)
    let popped := ws.contains (11, 0)
    let t := t.onB (fun b =>
      let b := (b.meet ws b.t.ctx).1
      let b := if took then b.shiftErrs 10 32 else b
      let b := if popped then b.shiftErrs 11 1 else b
      let n := s.b.y.wakeQ.length - (if popped then 1 else 0)
      b.plant 11 (entryWords 1 n b.y.wakeQ.length ++
        ((b.score.filter (fun h => !s.b.score.contains h)).map (fun h => (hullWord h, true)))))
    t.protectSent s

end

end Sys2Proof.Machine
end

