-- ==== Sys2Proof/Machine/Cycle.lean ====
section
/-!
DEFINITION. One clock cycle of the brick in focus: freezing (R155), fetch (R146), the checks of a bundle (R158, R159,
R450), its stalls (R447) and its issue (R153), and the events whose time the clock fixes (R447, R411, R401, R221, R103,
R386).
-/

namespace Sys2Proof.Machine

open Sys2Proof

noncomputable section

/-! ## A bundle's slots -/

/-- A slot of the bundle at issue: its number, its instruction, and the run of literals before it (R149). -/
structure SlotIn where
  slot : Nat
  ins : Instr
  litN : Nat
  litV : Nat
  litS : Bool
  deriving DecidableEq, Repr

/-- A bundle's slots with their literal runs; a slot that decodes to nothing is left out (R149, R159). -/
def slotsFrom : Nat → Nat → Nat → Bool → List (Except BadSlot Instr) → List SlotIn
  | _, _, _, _, [] => []
  | k, n, v, sg, .ok ins :: rest =>
    match ins with
    | .literalSignExtending p => ⟨k, ins, n, v, sg⟩ :: slotsFrom (k + 1) (n + 1) (v * 2 ^ 20 + p.toNat) true rest
    | .literalZeroExtending p => ⟨k, ins, n, v, sg⟩ :: slotsFrom (k + 1) (n + 1) (v * 2 ^ 20 + p.toNat) false rest
    | _ => ⟨k, ins, n, v, sg⟩ :: slotsFrom (k + 1) 0 0 false rest
  | k, _, _, _, .error _ :: rest => slotsFrom (k + 1) 0 0 false rest

/-- The slots of a bundle. -/
def slotsOf (w : BitVec 192) : List SlotIn := slotsFrom 0 0 0 false (decodeBundle w)

/-- Whether a slot moves into an operand latch, which its bundle's triggers already read (R153). -/
def SlotIn.early (x : SlotIn) : Bool :=
  match x.ins with
  | .move _ _ (.opd _) => true
  | _ => false

/-- A slot at issue, its literal run before it. -/
def State.atSlot (s : State) (x : SlotIn) : State :=
  s.onIss (fun i => { i with slot := x.slot, litN := x.litN, litV := x.litV, litS := x.litS })

/-- One slot performed. -/
def State.runSlot (s : State) (x : SlotIn) : Out :=
  exec x.ins (s.atSlot x)

/-- Slots performed in order. -/
def State.runSlots (s : State) : List SlotIn → Out
  | [] => .next s
  | x :: rest =>
    match s.runSlot x with
    | .next s => s.runSlots rest
    | r => r

/-! ## What a bundle meets (R447, R450) -/

/-- What the bundle at issue comes to. -/
inductive Attempt where
  /-- A trap taken. -/
  | trap (s : State)
  /-- It stalls: the stall with a suspension limit, the stalls of limits of their own, whether the domain advances. -/
  | stall (st : Option Stall) (own : List (Nat × Nat)) (advance : Bool) (s : State)
  /-- It issues: the state with every slot performed, before the cycle ends. -/
  | go (s : State)
  /-- A meaning stopped. -/
  | stop (o : Out)

/-- Place of a trap in the order of R159 and R450, with its slot and cause. An illegal-operation cause 0x2 of rank 0 is a check of
R159; of rank 7 it is an operation's own limit, which stands among the other illegal operations. -/
def trapKey (rank slot cause : Nat) : Nat × Nat × Nat :=
  if rank = 0 ∧ cause = 2 then (0, slot, cause) else if rank = 7 then (1, slot, cause) else (rank + 1, slot, cause)

/-- Whether a key comes before another. -/
def keyBefore (a b : Nat × Nat × Nat) : Bool :=
  decide (a.1 < b.1) || (a.1 == b.1 && (decide (a.2.1 < b.2.1) || (a.2.1 == b.2.1 && decide (a.2.2 < b.2.2))))

/-- The first of the traps met, with the state it leaves. -/
def firstTrap : List ((Nat × Nat × Nat) × State) → Option ((Nat × Nat × Nat) × State)
  | [] => none
  | x :: rest =>
    match firstTrap rest with
    | some y => some (if keyBefore y.1 x.1 then y else x)
    | none => some x

/-- A trap met by a slot tried alone. -/
def trapOf (s : State) : Option ((Nat × Nat × Nat) × State) :=
  match s.b.iss.ev with
  | .trapped r k c => some (trapKey r k c, s)
  | _ => none

/-- A stall with a suspension limit met by a slot tried alone. -/
def stallOf (s : State) : Option Stall :=
  match s.b.iss.ev with
  | .stalled st => some st
  | _ => none

/-- A stall of a limit of its own met by a slot tried alone. -/
def ownOf (s : State) : Option (Nat × Nat) :=
  match s.b.iss.ev with
  | .stalledOwn w a => some (w, a)
  | _ => none

/-- Whether a slot tried alone stalls. -/
def stalls (s : State) : Bool := (stallOf s).isSome || (ownOf s).isSome

/-- The stall of the lowest reason code (R447). -/
def lowestStall : List Stall → Option Stall
  | [] => none
  | x :: rest =>
    match lowestStall rest with
    | some y => some (if y.reason.code < x.reason.code then y else x)
    | none => some x

/-- The wait of the bundle after a `bar` (R225): met, broken or not yet. -/
inductive BarState where
  | met
  | broken
  | waiting
  deriving DecidableEq, Repr

/-- How the wait of the bundle after a `bar` stands. -/
def State.barState (s : State) : BarState :=
  match s.b.barWait with
  | none => .met
  | some w =>
    if w.broken then .broken
    else match s.readVaNat s.b.t.ctx w.va 16 with
      | none => .waiting
      | some x =>
        match w.gen with
        | some g => if decide (bits x 127 96 ≠ g.toNat) then .met else if bit x 64 then .broken else .waiting
        | none => .waiting

/-- The barrier-broken trap (R225, R371). -/
def State.barBroken (s : State) : TrapRec :=
  match s.b.barWait with
  | some w => { plainTrap 8 0 with addr := BitVec.ofNat 64 w.va, aux := BitVec.ofNat 32 w.idx }
  | none => plainTrap 8 0

/-- The stall of the bundle after a `bar` (R224, R332): the wake names the barrier and its generation. -/
def State.barStall (s : State) : Option Stall :=
  match s.b.barWait with
  | some w =>
    if s.barState = .waiting then
      some ⟨.barrier, (w.gen.getD 0).toNat % 2 ^ 28 * 256 + w.idx, false, w.cont, .none⟩
    else none
  | none => none

/-- A determinism token of the bundle at issue that firmware aborted: the trap of R325. -/
def State.detAborted (s : State) : Option Token := s.detTokens.find? Token.aborted

/-- The state in which a wait for the checks of deterministic mode ends by an abort (R325, R371). -/
def State.detAbort (s : State) (t : Token) : State :=
  let path := match t.who with
    | .det _ p _ => p
    | _ => 0
  ({ s with toks := s.toks.filter (fun x => x.tok != t.tok) } : State).trapNow 4
    { plainTrap 5 4 with addr := BitVec.ofNat 64 (t.va % 2 ^ 52), aux := BitVec.ofNat 32 t.tok, path := path, fkind := 9 }

/-- The bundle opened: its operand latches as they stood are kept, and the moves into operand latches are made
(R153, R372). -/
def State.openBundle (s : State) (xs : List SlotIn) : Out :=
  (s.onB (fun b => { b with iss := { Issue.idle with opd0 := b.r.opd } })).runSlots (xs.filter SlotIn.early)

/-- The states of slots tried alone; none where a meaning stops. -/
def State.tryEach (s : State) : List SlotIn → Except Out (List State)
  | [] => .ok []
  | x :: rest =>
    match s.runSlot x with
    | .next t => (s.tryEach rest).map (fun l => t :: l)
    | r => .error r

/-- The trap of an uncorrectable word that a slot reads (R142). -/
def State.errTrap (s : State) (x : SlotIn) : Option ((Nat × Nat × Nat) × State) :=
  if s.b.ecc = [] then none
  else
    let s := s.atSlot x
    match s.b.meet (s.slotWords x.ins) s.b.t.ctx with
    | (b, some e) => trapOf ((s.onB (fun _ => b)).badWord e (s.slotSource x.ins))
    | (_, none) => none

/-- Every trap of a bundle: those of its slots, uncorrectable words that they read, an unassigned trigger, an aborted
check, a broken barrier. -/
def State.traps (s : State) (xs : List SlotIn) (bad : Option Nat) (tried : List State) :
    List ((Nat × Nat × Nat) × State) :=
  tried.filterMap trapOf ++ xs.filterMap s.errTrap ++
  (match bad with
    | some k => [((0, k, 1), (s.onIss (fun i => { i with slot := k })).illegal 1)]
    | none => []) ++
  (match s.detAborted with
    | some t => [((5, 0, 4), s.detAbort t)]
    | none => []) ++
  (if s.barState = .broken then [((7, 0, 0), (s.onIss (fun i => { i with slot := 0 })).raise 6 s.barBroken)] else [])

/-- The increments of a counter that a bundle's slots make (R190). -/
def raisesOf (c : Ctr) (tried : List State) : Nat :=
  (tried.flatMap (fun t => t.b.iss.wr.filter (fun w => w == .cnt c))).length

/-- The stalls of counters that a bundle's slots together would take above 65,535 (R190). -/
def State.counterStalls (s : State) (tried : List State) : List Stall :=
  ([.ld, .st, .cp, .mx].filter (fun c => decide (65535 < s.b.cnt.get c + raisesOf c tried))).map
    (fun c => ⟨.counterFull, ctrCode c, false, s.contBefore, .none⟩)

/-- What the stalled slots of a bundle leave behind them while it stalls: a request for a class, a token (R325, R401). -/
def State.stalledSlots (s : State) (xs : List SlotIn) (tried : List State) : State :=
  (xs.zip tried).foldl (fun s p =>
    if stalls p.2 then
      match (s.onIss (fun i => { i with ev := .none })).runSlot p.1 with
      | .next t => t
      | _ => s
    else s) s

/-- A bundle tried: a trap, else a stall, else every slot performed. `bad` is the slot of an unassigned trigger. -/
def State.tryBundle (s : State) (xs : List SlotIn) (bad : Option Nat) : Attempt :=
  match s.openBundle xs with
  | .next s =>
    let ys := xs.filter (fun x => !x.early)
    match s.tryEach ys with
    | .error r => .stop r
    | .ok tried =>
      match firstTrap (s.traps xs bad tried) with
      | some (_, t) => .trap t
      | none =>
        let sts := tried.filterMap stallOf ++ s.counterStalls tried ++ s.barStall.toList
        let owns := tried.filterMap ownOf
        match lowestStall sts, owns with
        | none, [] =>
          let s := if s.b.barWait.isSome then s.onB (fun b => { b.dropSnap with barWait := none }) else s
          match (s.onIss (fun i => { i with go := true })).runSlots ys with
          | .next t => .go (t.protect s (xs.map (fun x => (s.atSlot x).slotWords x.ins)).flatten)
          | r => .stop r
        | st, owns =>
          .stall st owns (sts.all Stall.matrix && owns.all (fun o => o.1 == 3)) (s.stalledSlots ys tried)
  | r => .stop r

/-- A bundle's bits tried: the checks of R159 that show in the bits come first. -/
def State.tryWord (s : State) (w : BitVec 192) : Attempt :=
  match checkBundle w with
  | some (1, c, k) => .trap ((s.trapNow 0 { plainTrap 1 c with slot := k }))
  | some (2, c, k) => .trap ((s.trapNow 0 { plainTrap 2 c with slot := k }))
  | some (_, _, k) => s.tryBundle (slotsOf w) (some k)
  | none => s.tryBundle (slotsOf w) none

/-! ## The end of the cycle -/

/-- A clock cycle in which no bundle issues; the lockstep domain advances or not (R104, R155, R271). -/
def State.quietCycle (s : State) (domain : Bool) : State :=
  let s := (s.onB (fun b => { b with iss := Issue.idle })).landLoads
  let s := if domain then s.onB (fun b => { b.endCycle [] with cyc := if b.running then b.cyc + 1 else b.cyc }) else s
  (s.mxTick domain).tickClock

/-- The bundle's cycle closed after a trap was taken: the frozen operations do not advance (R372, R375). -/
def State.closeTrap (s : State) : State :=
  let s := s.onB (fun b => { b with cyc := if b.running then b.cyc + 1 else b.cyc, skip := false, iss := Issue.idle })
  (s.mxTick false).landLoads.tickClock

/-- The bundle's cycle closed in a stall: nothing of it has taken effect, and the counts of the stall go on (R447,
R411, R401). -/
def State.closeStall (s : State) (st : Option Stall) (own : List (Nat × Nat)) (advance : Bool) : State :=
  let s := s.onB (fun b => { b with
    r := { b.r with opd := b.iss.opd0 }
    contAt := if b.stall.isNone then (st.map Stall.cont).getD b.contAt else b.contAt
    stall := st
    own := own
    timer := b.timer + 1
    spTimer := if own.any (fun o => o.1 == 0) then b.spTimer + 1 else 0
    acqTimer := if own.any (fun o => o.1 == 1) then b.acqTimer + 1 else 0 })
  s.quietCycle advance

/-- The bundle issued: the cycle's end, with a write of `nflg` before the flags recorded in it (R58), then the pc, and what the bundle did to its task (R153, R178, R183, R194 to R196,
R384). -/
def State.closeGo (s : State) : State :=
  let i := s.b.iss
  let s := ((s.onB (fun b => b.writeFlags i.wr)).mxTick true).landLoads
  let s := s.onB (fun b => { b.endCycle (i.wr.filter (fun w => !w.isFlags)) with
    cyc := b.cyc + 1, timer := 0, spTimer := 0, acqTimer := 0, stall := none, own := [], skip := false
    iss := Issue.idle })
  let s := match i.tret with
    | some skip => s.onB (fun b => b.tret skip)
    | none => match i.leave with
      | some .exit => s.exitTask
      | some (.yield c) => s.yieldTask c
      | some (.susp c) => s.suspTask c
      | none => s.onB (fun b => b.nextPc i)
  s.tickClock

/-- An attempt's cycle closed. -/
def Attempt.close : Attempt → Out
  | .trap s => .next s.closeTrap
  | .stall st own adv s => .next (s.closeStall st own adv)
  | .go s => .next s.closeGo
  | .stop o => o

/-! ## Requests at a boundary (R378, R386, R405) -/

/-- Whether a throttle notice is to be delivered: pending for the context, and the task not in its handler (R375). -/
def State.noticeDue (s : State) : Bool := s.notices.contains s.b.t.ctx && !s.b.y.inh

/-- A throttle notice taken before its bundle issues, or discarded where its kind is not enabled (R375, R378, R405). -/
def State.takeNotice (s : State) : Option State :=
  if s.noticeDue then
    let n := { s with notices := s.notices.erase s.b.t.ctx }
    if trapEnabled s.b.y.tvec 0x0C then
      some (n.trapNow 0 { plainTrap 0x0C 0 with aux := BitVec.ofNat 32 (s.b.stepN + 16 * s.b.stepD) })
    else none
  else none

/-- Notices after those that no task takes are discarded (R375). -/
def State.dropNotice (s : State) : State :=
  if s.noticeDue && !trapEnabled s.b.y.tvec 0x0C then { s with notices := s.notices.erase s.b.t.ctx } else s

/-- Whether a bundle that issues ends its task by `exit` (R378). -/
def Attempt.exits : Attempt → Bool
  | .go s => s.b.iss.leave == some .exit
  | _ => false

/-- Whether a bundle traps or stops. -/
def Attempt.traps : Attempt → Bool
  | .trap _ => true
  | .stop _ => true
  | _ => false

/-- A cycle of a brick that saves: the domain advances until the matrix queue has drained (R386). -/
def State.savingCycle (s : State) : State := s.quietCycle (!s.b.mxDrained)

/-- A pre-emption that begins at this boundary (R386). -/
def State.startPreempt (s : State) : State := (s.beginSave .none 0).savingCycle

/-- Whether a bundle's end takes its task off the brick. -/
def Attempt.leaves : Attempt → Bool
  | .trap s => !s.b.running
  | .go s => s.b.iss.leave.isSome
  | _ => false

/-- A bundle's attempt; before one that ends the task the requests that wait for its record's lines are performed (R67, R292, R334). -/
def State.attempt (s : State) (w : BitVec 192) : State × Attempt :=
  let a := s.tryWord w
  if decide (s.wq ≠ []) && a.leaves then (s.settleTask, s.settleTask.tryWord w) else (s, a)

/-- A bundle and the requests that meet it (R378): `s` is the state before it. -/
def State.arbitrate (s : State) (a : Attempt) : Out :=
  if a.traps || a.exits then a.close
  else if s.b.preq then .next s.startPreempt
  else match s.takeNotice with
    | some t => .next t.closeTrap
    | none => a.close

/-- Stall counts go on in a cycle that the domain does not take (R447). -/
def Brick.countStall (b : Brick) : Brick :=
  { b with
    timer := if b.stall.isSome || !b.own.isEmpty then b.timer + 1 else b.timer
    spTimer := if b.own.any (fun o => o.1 == 0) then b.spTimer + 1 else b.spTimer
    acqTimer := if b.own.any (fun o => o.1 == 1) then b.acqTimer + 1 else b.acqTimer }

/-- A clock cycle in which the domain is frozen (R155). -/
def State.frozenCycle (s : State) : State := (s.onB Brick.countStall).quietCycle false

/-- The cycle in which a bundle stands at issue. -/
def State.issueCycle (s : State) : Out :=
  if s.b.skip then
    if s.b.preq then .next s.startPreempt
    else .next (s.onB (fun b => { b with iss := { Issue.idle with opd0 := b.r.opd, go := true } })).closeGo
  else
    let s := s.dropNotice
    match s.nextBundle with
    | (.miss va, s) => .next (s.onB (fun b => { b with hold := some ⟨va, true, 0, none⟩ })).frozenCycle
    | (.poison va, s) =>
      .next (s.settleTask.trapNow 0 { plainTrap 6 3 with addr := BitVec.ofNat 64 va }).closeTrap
    | (.again, s) => .next s.frozenCycle
    | (.word w, s) => (s.attempt w).1.arbitrate (s.attempt w).2

/-! ## The cycle -/

/-- A clock cycle of the hold in force, throttled ones included, which its park limit counts (R103); not one in which debug has the brick
halted (DESIGN CHOICE, log 133). -/
def Brick.countHold (b : Brick) : Brick := { b with hold := b.hold.map (fun h => { h with cycles := h.cycles + 1 }) }

/-- Whether the brick has power and runs at all (R395, R413). -/
def State.powered? (s : State) : Bool :=
  s.power == .on && decide (s.domState s.b.bid < 2) && (s.b.running || s.inService s.b.bid)

/-- One clock cycle of the brick in focus. -/
def State.cycle (s : State) : Out :=
  if !s.powered? then .next s.tickClock
  else if s.b.halted then .next s.frozenCycle
  else if !s.b.permits then .next (s.onB Brick.countHold).frozenCycle
  else
    match s.b.hold with
    | some h =>
      let s := s.onB Brick.countHold
      match h.tok with
      | some t => if s.b.preq && s.b.running && s.b.saving.isNone then .next ((s.beginSave .park t).quietCycle false) else .next s.frozenCycle
      | none => .next s.frozenCycle
    | none =>
      if s.b.streamHeld then .next s.frozenCycle
      else if !s.b.running then .next (s.quietCycle true)
      else if s.b.saving.isSome then .next s.savingCycle
      else s.issueCycle

/-! ## Events that are due -/

/-- A stall that has lasted to its limit, with the causes in force now: none where the bundle would issue (R192, R447). -/
def State.retested (s : State) : State :=
  let b := s.b
  if b.stall.isSome && decide (4096 ≤ b.timer) && b.running && b.saving.isNone && !b.domainHeld && !b.halted && s.powered? then
    match s.nextBundle with
    | (.word w, t) =>
      match t.tryWord w with
      | .stall st own _ _ => s.onB (fun b => { b with stall := st, own := own })
      | _ => s.onB (fun b => { b with stall := none, own := [] })
    | _ => s
  else s

/-- The event that the counts of the brick in focus have made due (R103, R221, R386, R401, R411, R447). -/
def State.due (s : State) : Option Instr :=
  let b := s.b
  if !s.powered? || b.halted then none
  else if b.hold.any (fun h => h.tok.isNone) && s.faultRoom (towerOf b.bid) then some .shadowWalk
  else if b.hold.any (fun h => h.tok.isSome && decide (67200 ≤ h.cycles)) && b.saving.isNone then some .parkLimit
  else if b.saving.isSome && s.drained then some .preempt
  else if b.stall.isSome && decide (4096 ≤ b.timer) && !b.domainHeld then some .stallSuspension
  else if b.own.any (fun o => o.1 == 0) && decide (256 ≤ b.spTimer) && !b.domainHeld then some .spireFull
  else if b.own.any (fun o => o.1 == 1) && decide (4096 ≤ b.acqTimer) && b.grant.isNone then some .grantTimeout
  else if b.own.any (fun o => o.1 == 2 && decide (0 < o.2 ∧ o.2 ≤ b.timer)) && !b.armTimedOut then some .armwTimeout
  else none

end

end Sys2Proof.Machine
end

