-- ==== Sys2Proof/Machine/Agenda.lean ====
section
/-!
DEFINITION. What moves next (log 2): what waits in the memory system, an item of the agenda, an event that the module's clocks have made
due, or a clock cycle of the brick in focus.
-/

namespace Sys2Proof.Machine

open Sys2Proof

noncomputable section

/-- What waits at the slices' inputs goes on while it can: operations of the Ethernet ports, and requests of other modules (R292, R321,
R424). -/
def State.memGo (s : State) : State := s.portsGo.visitsGo.jobsGo

/-- The event that hold-up comes to next (R413, R417). -/
def State.holdupDue (s : State) : Option Instr :=
  match s.power with
  | .freeze => some .holdupFreeze
  | .opened => some .holdupFreeze
  | .save => if s.saved then some .holdupSeal else some (.holdupSave s.leftToSave)
  | _ => none

/-- The gang event that fabric time or another member's abort has made due, a start first (R365, R366, R370). -/
def State.gangDue (s : State) : Option Instr :=
  match s.gangNext.find? (fun p => decide (p.2 ≤ s.ftime)) with
  | some p => some (.gangSliceStart p.1)
  | none =>
    if s.gangStops ≠ [] then some .gangAbort
    else if s.gangNow.any s.gangOver then some .gangSliceEnd
    else if s.gangNow.any s.gangLate then some .gangSkewExpiry
    else none

/-- The event that the module's clock has made due: a balancing round, the end of a budget window (R364, R404). -/
def State.clockDue (s : State) : Option Instr :=
  match [0, 1].find? s.balanceDue with
  | some t => some (.balancingRound t)
  | none => ((List.range 16).find? s.windowOver).map Instr.budgetWindow

/-- What the fabric's links have made due: one goes down, or fabric time is sent (R436, R438). -/
def State.linkDue (s : State) : Option Instr :=
  match (List.range 36).find? (fun l => (s.link l).dead) with
  | some l => some (.linkDown l)
  | none => if s.syncDue then some .fabricTimeSync else none

/-- The event that is due, whichever brick is in focus. -/
def State.moduleDue (s : State) : Option Instr :=
  if s.power = .on then (s.gangDue.or s.clockDue).or s.linkDue else s.holdupDue

/-- An item of the agenda performed. -/
def State.perform (s : State) : Item → Out
  | .event i => exec i s.retested
  | .turn n => .next (s.focus n)
  | .firmware e ctx raw => .next (s.firmware e ctx raw)
  | .freeFrame frame => .next (s.freeFrame frame)
  | .startup ctx => .next (s.startup ctx)
  | .loadSlot slot image => .next (s.loadSlot slot image)
  | .core e a => .next (s.coreAccess e a)
  | .coreStep e => .next (s.coreNext e)
  | .packet port qp p => .next (s.portPacket port qp p)
  | .debug brick a => .next (s.debug brick a)
  | .manage h op pl => s.manage h op pl

/-- What moves with nothing on the agenda: an event that is due, else a clock cycle of the brick in focus. -/
def State.advance (s : State) : Out :=
  match s.moduleDue with
  | some i => exec i s
  | none =>
    match s.retested.due with
    | some i => exec i s.retested
    | none => s.retested.cycle

/-- The next move. -/
def State.move (s : State) : Out :=
  match s.agenda with
  | it :: rest => ({ s with agenda := rest } : State).memGo.perform it
  | [] => s.memGo.advance

end

end Sys2Proof.Machine
end

