-- ==== Sys2Proof/Machine/Place.lean ====
section
/-!
DEFINITION. Placing an instruction where the brick in focus fetches next.
-/

namespace Sys2Proof.Machine

open Sys2Proof

noncomputable section

/-- Whether the brick in focus would fetch a bundle in the next step. -/
def State.fetches (s : State) : Bool :=
  s.b.running && s.power == .on && decide (s.domState s.b.bid < 2) && s.inService s.b.bid && !s.b.halted &&
  s.b.permits && !s.b.domainHeld && s.b.saving.isNone && !s.b.skip && s.b.r.lp.isNone &&
  (s.codeParts (s.b.bundleVa s.b.pc.toNat) 24).toOption.isSome

/-- The state with a task of context 1 on the brick in focus, its code at 0x40000, under a page of 1 GiB that maps the
lowest virtual addresses to themselves. -/
def State.withTask (s : State) : State :=
  let s := { s with
    ctxTab := cset 0 s.ctxTab 1 (BitVec.ofNat 256 (1 + 2 ^ 90)), blk := [], pois := [], power := .on
    inServ := { s.inServ with retired := [] }, doms := s.doms.map (fun (d : Domain) => { d with state := 0 })
    b := { s.b with
      running := true, t := { s.b.t with tid := 1, ctx := 1 }, pc := 0, codeBase := 0x40000, hold := none, saving := none
      skip := false, halted := false, preq := false, barWait := none, stepN := 8, stepD := 8
      mxq := s.b.mxq.map (fun (op : MxOp) => { op with waiting := false })
      r := { s.b.r with lp := none } } }
  (s.writePhys 0x10000 (toBytes 8 0x20001)).writePhys 0x20000 (toBytes 8 0x1D)

/-- The state with nothing due on the module's clocks. -/
def State.undue (s : State) : State :=
  { s with
    power := .on, gangNow := [], gangNext := [], gangStops := [], syncAt := s.ftime
    dome0 := { s.dome0 with balAt := s.clk }, dome1 := { s.dome1 with balAt := s.clk }
    doms := s.doms.map (fun (d : Domain) => { d with winAt := s.clk })
    links := s.links.map (fun (k : Link) => { k with replays := 0 }) }

/-- A bundle that begins with one slot; a literal slot's run ends in a move of it to g63 (R149, R159). -/
def oneSlot (w : Nat) : List Byte :=
  let second := if isLiteral (BitVec.ofNat 24 w) then 0x00FC40 else 0x800000
  toBytes 3 w ++ toBytes 3 second ++ (List.replicate 6 (toBytes 3 0x800000)).flatten

/-- The state in which the next step fetches a slot as the first of its bundle. -/
def State.placeSlot (s : State) (w : Nat) : State :=
  let s := if s.fetches then s else s.withTask
  let s := if s.moduleDue.isSome then s.undue else s
  let s := { s with
    agenda := [], ports := [], visits := [], jobs := [], notices := s.notices.erase s.b.t.ctx
    b := { s.b with ic := [], itlb := [], dtlb := [], stlb := [], tlb := [], preq := false, stall := none, own := [], timer := 0, barWait := none } }
  match s.codeParts (s.b.bundleVa s.b.pc.toNat) 24 with
  | .ok (ps, _) =>
    (ps.foldl (fun (r : State × List Byte) p => (r.1.writePhys p.1 (r.2.take p.2), r.2.drop p.2)) (s, oneSlot w)).1
  | .error _ => s

end

end Sys2Proof.Machine
end

