-- ==== Sys2Proof/Machine/Step.lean ====
section
/-!
DEFINITION. One step, and how an instruction is placed where the next step fetches.
-/

namespace Sys2Proof.Machine

open Sys2Proof

noncomputable section

/-- One step: the next item of the agenda, an event whose time has come, or a clock cycle of the brick in focus (log 2). -/
def step (s : State) : Host.Outcome State Fault Refusal := s.move

/-- An instruction stored where the next step fetches it: the first slot of the bundle at issue. A slot has 24 bits. -/
def State.withFetchWord (s : State) (_nbits w : Nat) : State := s.placeSlot w

end

end Sys2Proof.Machine
end

