-- ==== Sys2Proof/Safety.lean ====
section
/-!
DEFINITION. What a safe run is, and the invariant that the claims use.
-/

namespace Sys2Proof.Machine

open Sys2Proof

/-- Device memory is a plain list of bytes in canonical form. -/
def State.memOk (s : State) : Bool := Memory.wf s.mem

/-- The invariant of every step: device memory keeps its canonical form, and fabric time stays a 64-bit number (R438). -/
def State.Inv (s : State) : Prop := s.memOk = true ∧ s.ftime < 2 ^ 64

/-- A run that no step stops, however long it goes on. -/
def State.Safe (s : State) : Prop := ∀ n, ∃ t, core.run n s = .next t

end Sys2Proof.Machine
end

