-- ==== Sys2Proof/Certificates/Slice0/Obligations.lean ====
section
/-!
DEFINITION. The statements for the provers. Those that name a next state outright say with it everything that stays as it was.
-/

namespace Sys2Proof.Machine.Claims

open Sys2Proof Sys2Proof.Machine

/-- An integer operation completes: `r` and `h` of its unit are written L cycles on with values in a relation to the operands and
the carry (R170). -/
def Integer (f : Guard → Ia → Src → Instr) (L : Nat) (P : Word → Word → Bool → Word → Word → Prop) : Prop :=
  ∀ (gd : Guard) (u : Ia) (x : Src) (s : State), s.guardOn gd = true → ∃ r h,
    exec (f gd u x) s = .next ((s.launchOp L (.res (iaResults u).1 r)).launchOp L (.res (iaResults u).2 h)) ∧
    P (s.src x) (s.opd (iaOperand u)) (s.iaCarry u) r h

/-- A signed value clamped to 64 bits, and whether it was (R172). -/
def Clamped (v : Int) (r h : Word) : Prop :=
  r.toInt = max (-2 ^ 63) (min (2 ^ 63 - 1) v) ∧ h = if v < -2 ^ 63 ∨ 2 ^ 63 - 1 < v then 1 else 0

/-- A division completes: the unit's division in flight goes, and the new one writes 20 cycles on (R171, R173). -/
def Divides (f : Guard → Ia → Src → Instr) (P : Word → Word → Word → Word → Prop) : Prop :=
  ∀ (gd : Guard) (u : Ia) (x : Src) (s : State), s.guardOn gd = true → ∃ q r,
    exec (f gd u x) s = .next (s.onR (fun k => { k with pipe := k.pipe.filter (fun e => !e.isDiv u) ++ [⟨20, .div u q r⟩] })) ∧
    P (s.src x) (s.opd (iaOperand u)) q r

/-- An address operation completes: `ag.r` and `ag.n` are written at the end of the cycle (R174). -/
def Address (f : Guard → Src → Instr) (P : Word → Word → Word → Word → Prop) : Prop :=
  ∀ (gd : Guard) (x : Src) (s : State), s.guardOn gd = true → ∃ r n,
    exec (f gd x) s = .next ((s.launchOp 1 (.res .agr r)).launchOp 1 (.res .agn n)) ∧ P (s.src x) (s.opd .ago) r n

/-- No operation of a port, atomic or access of another module waits in the memory system, so that what is on the agenda comes next. -/
def NothingWaits (s : State) : Prop := s.ports = [] ∧ s.visits = [] ∧ s.jobs = []

end Sys2Proof.Machine.Claims

open Sys2Proof Sys2Proof.Machine

/-! ## Moves and literals (R147 to R153) -/

/-- R148: a slot whose guard is false has no effect, whatever operation it names. -/
def Obligations.FalseGuardHasNoEffect : Prop := ∀ (i : Instr) (gd : Guard) (s : State), i.guard = some gd → s.guardOn gd = false →
  exec i s = .next s

/-- R152, R153: a guarded move reads its source at the start of the cycle; an operand latch takes it at once, and a register, a
guard or `kw` at the end of the cycle, through the rotated name.
R149: a run of literal slots joins its payloads with the first at the top, and the value a move takes is the run's,
sign-extended from its 20n bits or zero-extended. The empty slot does nothing (R147). -/
def Obligations.MovesAndLiterals : Prop :=
  (∀ (gd : Guard) (x : Src) (s : State), s.guardOn gd = true →
  (∀ d, ∃ t, exec (.move gd x d) s = .next t) ∧
  (∀ n, exec (.move gd x (.g n)) s = .next (s.defer (.g (physG s.b.r.rrb n.val) (s.src x)))) ∧
  (∀ k, exec (.move gd x (.k k)) s = .next (s.defer (.k k.val (decide (s.src x ≠ 0))))) ∧
  exec (.move gd x .kw) s = .next (s.defer (.kw (s.src x))) ∧
  (∀ l, ∃ t, exec (.move gd x (.opd l)) s = .next t ∧ (∀ m, t.opd m = if m = l then s.src x else s.opd m) ∧
    t = { s with b := { s.b with r := { s.b.r with opd := t.b.r.opd } } })) ∧
  (∀ (s : State) (p q : BitVec 20),
  exec (.literalSignExtending p) s = .next (s.onIss (fun i =>
    { i with litN := i.litN + 1, litV := i.litV * 2 ^ 20 + p.toNat, litS := true })) ∧
  exec (.literalZeroExtending p) s = .next (s.onIss (fun i =>
    { i with litN := i.litN + 1, litV := i.litV * 2 ^ 20 + p.toNat, litS := false })) ∧
  exec .emptySlot s = .next s ∧
  (s.b.iss.litN = 0 → s.b.iss.litV = 0 →
    (∃ t, exec (.literalSignExtending p) s = .next t ∧ t.src .lit = p.signExtend 64) ∧
    (∃ t, exec (.literalZeroExtending p) s = .next t ∧ t.src .lit = p.zeroExtend 64) ∧
    (∃ t u, exec (.literalSignExtending p) s = .next t ∧ exec (.literalSignExtending q) t = .next u ∧
      u.src .lit = (p ++ q).signExtend 64) ∧
    ∃ t u, exec (.literalZeroExtending p) s = .next t ∧ exec (.literalZeroExtending q) t = .next u ∧
      u.src .lit = (p ++ q).zeroExtend 64))

/-! ## Integer units (R170 to R173) -/

/-- R172, R173: sums, differences, extremes and magnitude, as the table gives `r` and `h`.
R171 to R173: products give both halves of the 128-bit product after three cycles; a division gives the quotient truncated
toward zero and the remainder of the dividend's sign after twenty, abandons the unit's division in flight, and by zero gives all
ones and the dividend. -/
def Obligations.IntegerSumsProductsAndQuotients : Prop :=
  (Claims.Integer .iaAdd 1 (fun a b _ r h => r.toNat = (a.toNat + b.toNat) % 2 ^ 64 ∧ h.toNat = (a.toNat + b.toNat) / 2 ^ 64) ∧
  Claims.Integer .iaSub 1 (fun a b _ r h => r = a - b ∧ h = if a.toNat < b.toNat then 1 else 0) ∧
  Claims.Integer .iaAdc 1 (fun a b c r h =>
    r.toNat = (a.toNat + b.toNat + c.toNat) % 2 ^ 64 ∧ h.toNat = (a.toNat + b.toNat + c.toNat) / 2 ^ 64) ∧
  Claims.Integer .iaSbc 1 (fun a b c r h =>
    r.toNat = (a.toNat + 2 ^ 65 - b.toNat - c.toNat) % 2 ^ 64 ∧ h = if a.toNat < b.toNat + c.toNat then 1 else 0) ∧
  Claims.Integer .iaAdds 1 (fun a b _ r h => Claims.Clamped (a.toInt + b.toInt) r h) ∧
  Claims.Integer .iaSubs 1 (fun a b _ r h => Claims.Clamped (a.toInt - b.toInt) r h) ∧
  Claims.Integer .iaMin 1 (fun a b _ r h => r.toInt = min a.toInt b.toInt ∧ h = 0) ∧
  Claims.Integer .iaMax 1 (fun a b _ r h => r.toInt = max a.toInt b.toInt ∧ h = 0) ∧
  Claims.Integer .iaMinu 1 (fun a b _ r h => r.toNat = min a.toNat b.toNat ∧ h = 0) ∧
  Claims.Integer .iaMaxu 1 (fun a b _ r h => r.toNat = max a.toNat b.toNat ∧ h = 0) ∧
  Claims.Integer .iaAbs 1 (fun a _ _ r h => r.toNat = a.toInt.natAbs ∧ h = if a.toInt = -2 ^ 63 then 1 else 0)) ∧
  (Claims.Integer .iaMul 3 (fun a b _ r h => (h.toInt * 2 ^ 64 + r.toNat : Int) = a.toInt * b.toInt) ∧
  Claims.Integer .iaMulu 3 (fun a b _ r h => h.toNat * 2 ^ 64 + r.toNat = a.toNat * b.toNat) ∧
  Claims.Integer .iaMulsu 3 (fun a b _ r h => (h.toInt * 2 ^ 64 + r.toNat : Int) = a.toInt * b.toNat) ∧
  Claims.Divides .iaDiv (fun a b q r =>
    (b = 0 → q = BitVec.allOnes 64 ∧ r = a) ∧
    (b ≠ 0 → (a.toInt = -2 ^ 63 ∧ b.toInt = -1 → q = a ∧ r = 0) ∧
      (¬ (a.toInt = -2 ^ 63 ∧ b.toInt = -1) → q.toInt = a.toInt.tdiv b.toInt ∧ r.toInt = a.toInt - q.toInt * b.toInt))) ∧
  Claims.Divides .iaDivu (fun a b q r =>
    (b = 0 → q.toNat = 2 ^ 64 - 1 ∧ r = a) ∧ (b ≠ 0 → a.toNat = q.toNat * b.toNat + r.toNat ∧ r.toNat < b.toNat)))

namespace Sys2Proof.Machine.Claims

open Sys2Proof Sys2Proof.Machine

/-- The value of a finite number (R36, R39). -/
noncomputable def real : Val → ℝ
  | .fin neg m e => (if neg then -1 else 1) * m * (2 : ℝ) ^ e
  | _ => 0

/-- The value of a finite FP32 code. -/
noncomputable def real32 (c : BitVec 32) : ℝ := real (read32 c)

/-- A finite FP32 code (R35). -/
def Finite32 (c : BitVec 32) : Prop := c.toNat / 2 ^ 23 % 256 ≠ 255

/-- The FP32 code and flags that rounding a nonzero v of a sign gives (R34, R52, R53). Beyond the largest finite number, or at the
half-way point above it where ties go to even, it is the overflow rule's code. Otherwise it is the nearest finite number in the
mode's direction, of two equally near ones the even code, inexact where it is not v, with underflow where v is subnormal. -/
def Rounded (mode : Nat) (neg : Bool) (v : ℝ) (r : BitVec 32 × Flags) : Prop :=
  let up := (mode = 2 ∧ neg = false) ∨ (mode = 3 ∧ neg = true)
  let big := if mode = 0 then 2 ^ 128 - 2 ^ 103 ≤ |v| else if up then 2 ^ 128 - 2 ^ 104 < |v| else 2 ^ 128 ≤ |v|
  let q := real32 r.1
  (big → r = ((if mode = 0 ∨ up then 0x7F800000 else 0x7F7FFFFF) ||| (if neg then 0x80000000 else 0), fOverflow ||| fInexact)) ∧
  (¬ big → Finite32 r.1 ∧ r.1.getLsbD 31 = neg ∧ (q = v → r.2 = 0) ∧
    (q ≠ v → 2 ^ (-126 : ℤ) ≤ |v| → r.2 = fInexact) ∧ (q ≠ v → |v| < 2 ^ (-126 : ℤ) → r.2 = fUnderflow ||| fInexact) ∧
    (mode = 1 → |q| ≤ |v|) ∧ (mode = 2 → v ≤ q) ∧ (mode = 3 → q ≤ v) ∧
    ∀ c, Finite32 c → let p := real32 c
      (mode = 0 → |q - v| ≤ |p - v| ∧ (|q - v| = |p - v| → p ≠ q → r.1.getLsbD 0 = false)) ∧
      (mode = 1 → |p| ≤ |v| → |p| ≤ |q|) ∧ (mode = 2 → v ≤ p → q ≤ p) ∧ (mode = 3 → p ≤ v → p ≤ q))

/-- A sum of numbers, exact: a zero result is +0 but where every term is −0 (R56). -/
def ExactSum (xs : List Val) (y : Val × Flags) : Prop := ∃ u k e, y = (.fin u k e, 0) ∧ real y.1 = (xs.map real).sum ∧
  (real y.1 = 0 → (u = true ↔ xs ≠ [] ∧ ∀ x ∈ xs, real x = 0 ∧ x.neg = true))

/-- Whether a number is finite. -/
def Finite (x : Val) : Prop := ∃ s m e, x = .fin s m e

end Sys2Proof.Machine.Claims

/-- R35, R37, R52 to R54, R56, R237, R238, R244, R256: FP32 codes and their values; rounding to FP32 gives the nearest code in the
mode's direction; sums and products are exact before it; quotients and square roots are rounded as their exact values are; 2^a of
an integer and log2 of a power of two are exact; and the group sum of INT8 elements is the exact dot product. A multiply-add
with a NaN is the model's reading (log 88). -/
def Obligations.RoundingIsNearest : Prop :=
  (∀ c : BitVec 32, let E : ℕ := c.toNat / 2 ^ 23 % 256; let F : ℕ := c.toNat % 2 ^ 23; let sg := c.getLsbD 31
    (E ≠ 255 → Claims.Finite (read32 c) ∧ (read32 c).neg = sg ∧
      Claims.real32 c = (if sg then -1 else 1) * (if E = 0 then (F : ℝ) * 2 ^ (-149 : ℤ) else (2 ^ 23 + (F : ℝ)) * 2 ^ ((E : ℤ) - 150))) ∧
    (E = 255 → read32 c = if F = 0 then .inf sg else .nan)) ∧
  (∀ mode < 4, ∀ neg m e, m ≠ 0 →
    Claims.Rounded mode neg (Claims.real (.fin neg m e)) (round32 mode (.fin neg m e))) ∧
  (∀ mode < 4, ∀ neg e, round32 mode (.fin neg 0 e) = (if neg then 0x80000000 else 0, 0) ∧
    round32 mode (.inf neg) = (if neg then 0xFF800000 else 0x7F800000, 0) ∧ round32 mode .nan = (0x7FC00000, 0)) ∧
  (∀ a b : Val, Claims.Finite a → Claims.Finite b → Claims.ExactSum [a, b] (addNum a b) ∧
    ∃ k e, mulNum a b = (.fin (a.neg ^^ b.neg) k e, 0) ∧ Claims.real (mulNum a b).1 = Claims.real a * Claims.real b) ∧
  (∀ a b c : Val, Claims.Finite a → Claims.Finite b → Claims.Finite c →
    (fmaNum a b c).2 = 0 ∧ Claims.real (fmaNum a b c).1 = Claims.real a * Claims.real b + Claims.real c) ∧
  (∀ xs : List Val, (∀ x ∈ xs, Claims.Finite x) → Claims.ExactSum xs (sumNum xs)) ∧
  (∀ mode < 4, ∀ a b : BitVec 32, Claims.Finite32 a → Claims.Finite32 b → Claims.real32 a ≠ 0 → Claims.real32 b ≠ 0 →
    (divNum (read32 a) (read32 b)).2 = 0 ∧ Claims.Rounded mode (a.getLsbD 31 ^^ b.getLsbD 31) (Claims.real32 a / Claims.real32 b)
      (round32 mode (divNum (read32 a) (read32 b)).1)) ∧
  (∀ mode < 4, ∀ a : BitVec 32, Claims.Finite32 a → 0 < Claims.real32 a → (sqrtNum (read32 a)).2 = 0 ∧
    Claims.Rounded mode false (Real.sqrt (Claims.real32 a)) (round32 mode (sqrtNum (read32 a)).1)) ∧
  (∀ (a : BitVec 32) (k : ℤ), Claims.Finite32 a →
    (Claims.real32 a = k → |k| < 4096 → (exp2Num (read32 a)).2 = 0 ∧ Claims.real (exp2Num (read32 a)).1 = (2 : ℝ) ^ k) ∧
    (Claims.real32 a = (2 : ℝ) ^ k → (log2Num (read32 a)).2 = 0 ∧ Claims.real (log2Num (read32 a)).1 = k)) ∧
  (∀ ps : List (Nat × Nat), let p := ps.map (fun c => (Fmt.int8.read c.1, Fmt.int8.read c.2))
    (groupSum (bodyBits .int8 .int8) 8 p).2 = 0 ∧
    Claims.real (groupSum (bodyBits .int8 .int8) 8 p).1 = (p.map (fun c => Claims.real c.1 * Claims.real c.2)).sum)

/-- R172: the bitwise and shift operations; every `h` is 0.
R172, R173: counts, fields, comparisons, extensions and the byte swap; every `h` is 0. -/
def Obligations.IntegerLogicAndTests : Prop :=
  (Claims.Integer .iaAnd 1 (fun a b _ r h => (∀ i, r.getLsbD i = (a.getLsbD i && b.getLsbD i)) ∧ h = 0) ∧
  Claims.Integer .iaOr 1 (fun a b _ r h => (∀ i, r.getLsbD i = (a.getLsbD i || b.getLsbD i)) ∧ h = 0) ∧
  Claims.Integer .iaXor 1 (fun a b _ r h => (∀ i, r.getLsbD i = (a.getLsbD i ^^ b.getLsbD i)) ∧ h = 0) ∧
  Claims.Integer .iaAndn 1 (fun a b _ r h => (∀ i, r.getLsbD i = (a.getLsbD i && !b.getLsbD i)) ∧ h = 0) ∧
  Claims.Integer .iaShl 1 (fun a b _ r h => r.toNat = a.toNat * 2 ^ (b.toNat % 64) % 2 ^ 64 ∧ h = 0) ∧
  Claims.Integer .iaShr 1 (fun a b _ r h => r.toNat = a.toNat / 2 ^ (b.toNat % 64) ∧ h = 0) ∧
  Claims.Integer .iaSar 1 (fun a b _ r h => r.toInt = a.toInt / 2 ^ (b.toNat % 64) ∧ h = 0) ∧
  Claims.Integer .iaRol 1 (fun a b _ r h => r = a <<< (b.toNat % 64) ||| a >>> (64 - b.toNat % 64) ∧ h = 0) ∧
  Claims.Integer .iaRor 1 (fun a b _ r h => r = a >>> (b.toNat % 64) ||| a <<< (64 - b.toNat % 64) ∧ h = 0)) ∧
  (Claims.Integer .iaClz 1 (fun a _ _ r h => r.toNat ≤ 64 ∧ a.toNat < 2 ^ (64 - r.toNat) ∧
    (a ≠ 0 → 2 ^ (63 - r.toNat) ≤ a.toNat) ∧ (a = 0 → r = 64) ∧ h = 0) ∧
  Claims.Integer .iaCtz 1 (fun a _ _ r h => (a = 0 → r = 64) ∧
    (a ≠ 0 → a.toNat % 2 ^ r.toNat = 0 ∧ a.toNat / 2 ^ r.toNat % 2 = 1) ∧ h = 0) ∧
  Claims.Integer .iaPopc 1 (fun a _ _ r h => r.toNat = ((List.range 64).filter (fun i => a.getLsbD i)).length ∧ h = 0) ∧
  Claims.Integer .iaBext 1 (fun a b _ r h => r.toNat = a.toNat / 2 ^ fld b 5 0 % 2 ^ min (fld b 14 8) 64 ∧ h = 0) ∧
  Claims.Integer .iaBexts 1 (fun a b _ r h => r = sext (a.toNat / 2 ^ fld b 5 0 % 2 ^ min (fld b 14 8) 64) (min (fld b 14 8) 64) ∧ h = 0) ∧
  Claims.Integer .iaSeq 1 (fun a b _ r h => r = (if a = b then 1 else 0) ∧ h = 0) ∧
  Claims.Integer .iaSne 1 (fun a b _ r h => r = (if a = b then 0 else 1) ∧ h = 0) ∧
  Claims.Integer .iaSlt 1 (fun a b _ r h => r = (if a.toInt < b.toInt then 1 else 0) ∧ h = 0) ∧
  Claims.Integer .iaSltu 1 (fun a b _ r h => r = (if a.toNat < b.toNat then 1 else 0) ∧ h = 0) ∧
  Claims.Integer .iaSle 1 (fun a b _ r h => r = (if a.toInt ≤ b.toInt then 1 else 0) ∧ h = 0) ∧
  Claims.Integer .iaSleu 1 (fun a b _ r h => r = (if a.toNat ≤ b.toNat then 1 else 0) ∧ h = 0) ∧
  Claims.Integer .iaSext 1 (fun a b _ r h => r = sext a.toNat (min (fld b 6 0) 64) ∧ h = 0) ∧
  Claims.Integer .iaZext 1 (fun a b _ r h => r.toNat = a.toNat % 2 ^ min (fld b 6 0) 64 ∧ h = 0) ∧
  Claims.Integer .iaBswap 1 (fun a _ _ r h => toBytes 8 r.toNat = (toBytes 8 a.toNat).reverse ∧ h = 0))

/-! ## Address unit (R174, R175) -/

/-- R175: each row's code, and its `ag.r` and `ag.n`, modulo 2^64. -/
def Obligations.AddressResults : Prop :=
  (∀ (gd : Guard) (x : Src), ∀ p ∈ [(Instr.agAdd gd x, 0x100), (.agIdx gd x, 0x101), (.agPost gd x, 0x102), (.agPre gd x, 0x103),
      (.agRing gd x, 0x104), (.agAlign gd x, 0x105), (.agSlot gd x, 0x106), (.agAcc gd x, 0x107)],
    ∃ w, encode p.1 = some w ∧ w.toNat / 2 ^ 10 % 2 ^ 10 = p.2) ∧
  Claims.Address .agAdd (fun a b r n => r = a + b ∧ n = a) ∧
  Claims.Address .agIdx (fun a b r n => r = a + (b.truncate 32).signExtend 64 * BitVec.ofNat 64 (2 ^ fld b 34 32) ∧ n = a) ∧
  Claims.Address .agPost (fun a b r n => r = a ∧ n = a + b) ∧
  Claims.Address .agPre (fun a b r n => r = a + b ∧ n = a + b) ∧
  Claims.Address .agRing (fun a b r n => r = a ∧ n.toNat / 2 ^ fld b 63 58 = a.toNat / 2 ^ fld b 63 58 ∧
    n.toNat % 2 ^ fld b 63 58 = (a + (b.truncate 32).signExtend 64).toNat % 2 ^ fld b 63 58) ∧
  Claims.Address .agAlign (fun a b r n => r.toNat = a.toNat / 2 ^ fld b 5 0 * 2 ^ fld b 5 0 ∧ n = r + BitVec.ofNat 64 (2 ^ fld b 5 0)) ∧
  Claims.Address .agSlot (fun a b r n => r.toNat = 4096 * (a.toNat % 256) + b.toNat % 4096 ∧ n.toNat = (a.toNat + 1) % 256) ∧
  Claims.Address .agAcc (fun a b r n => r.toNat = 0x40000 * fld b 8 8 + 1024 * (a.toNat % 256) + 4 * fld b 7 0 ∧ n = a + 1)

/-! ## Branch unit and loops (R176 to R188) -/

/-- R177: `tgt` sets the prepared target, and each comparison the condition; nothing else of the brick changes.
R177 to R180, R187: a transfer is taken to its target, `call` writes its link, and one in a delay bundle or a loop's body is
illegal operation 0x3 or 0x4, as a `loop` there is. A `jt` whose condition is false does nothing; reserved bits of `ret`'s target, and a
bad descriptor of `loop`, are illegal operation 0x2.
R178: after a taken transfer three delay bundles issue, and then the bundle at the target. -/
def Obligations.BranchesAndTransfers : Prop :=
  (∀ (gd : Guard) (x : Src) (s : State), s.guardOn gd = true →
  (fld (s.src x) 63 32 = 0 → exec (.brTgt gd x) s = .next (s.setBr (fun b => { b with bt := (s.src x).truncate 32 }))) ∧
  (fld (s.src x) 63 32 ≠ 0 → exec (.brTgt gd x) s = .next (s.illegal 2)) ∧
  exec (.brCeq gd x) s = .next (s.setBr (fun b => { b with bc := decide (s.src x = s.opd .bro) })) ∧
  exec (.brCne gd x) s = .next (s.setBr (fun b => { b with bc := decide (s.src x ≠ s.opd .bro) })) ∧
  exec (.brClt gd x) s = .next (s.setBr (fun b => { b with bc := decide ((s.src x).toInt < (s.opd .bro).toInt) })) ∧
  exec (.brCge gd x) s = .next (s.setBr (fun b => { b with bc := decide ((s.src x).toInt ≥ (s.opd .bro).toInt) })) ∧
  exec (.brCltu gd x) s = .next (s.setBr (fun b => { b with bc := decide ((s.src x).toNat < (s.opd .bro).toNat) })) ∧
  exec (.brCgeu gd x) s = .next (s.setBr (fun b => { b with bc := decide ((s.src x).toNat ≥ (s.opd .bro).toNat) }))) ∧
  (∀ (gd : Guard) (x : Src) (s : State), s.guardOn gd = true →
  (s.b.r.br.xfer = none → s.b.r.lp = none →
    exec (.brJmp gd x) s = .next (s.onIss (fun i => { i with jump := some s.b.r.br.bt })) ∧
    (s.b.r.br.bc = true → exec (.brJt gd x) s = .next (s.onIss (fun i => { i with jump := some s.b.r.br.bt }))) ∧
    (s.b.r.br.bc = false → exec (.brJt gd x) s = .next s) ∧
    exec (.brCall gd x) s = .next ((s.onIss (fun i => { i with jump := some s.b.r.br.bt })).launchOp 1
      (.res .brl ((s.b.pc + 4).zeroExtend 64))) ∧
    (fld (s.src x) 63 32 = 0 → exec (.brRet gd x) s = .next (s.onIss (fun i => { i with jump := some ((s.src x).truncate 32) })))) ∧
  (s.b.r.br.xfer ≠ none → exec (.brJmp gd x) s = .next (s.illegal 3) ∧ exec (.brJt gd x) s = .next (s.illegal 3) ∧
    exec (.brCall gd x) s = .next (s.illegal 3) ∧
    (fld (s.src x) 63 32 = 0 → exec (.brRet gd x) s = .next (s.illegal 3)) ∧
    (loopBad (s.src x) = false → exec (.brLoop gd x) s = .next (s.illegal 3))) ∧
  (s.b.r.br.xfer = none → s.b.r.lp ≠ none → exec (.brJmp gd x) s = .next (s.illegal 4) ∧ exec (.brJt gd x) s = .next (s.illegal 4) ∧
    exec (.brCall gd x) s = .next (s.illegal 4) ∧
    (fld (s.src x) 63 32 = 0 → exec (.brRet gd x) s = .next (s.illegal 4)) ∧
    (loopBad (s.src x) = false → exec (.brLoop gd x) s = .next (s.illegal 4))) ∧
  (fld (s.src x) 63 32 ≠ 0 → exec (.brRet gd x) s = .next (s.illegal 2)) ∧
  (loopBad (s.src x) = true → exec (.brLoop gd x) s = .next (s.illegal 2))) ∧
  (∀ (b : Brick) (i : Issue) (t : BitVec 32), b.r.lp = none → i.jump = some t →
  let d1 := b.nextPc i
  let d2 := d1.nextPc Issue.idle
  let d3 := d2.nextPc Issue.idle
  d1.pc = b.pc + 1 ∧ d2.pc = b.pc + 2 ∧ d3.pc = b.pc + 3 ∧ (d3.nextPc Issue.idle).pc = t ∧
    (d3.nextPc Issue.idle).r.br.xfer = none)

/-- R182, R183, R187: `loop` sets up the sequencer for the bundles after it; a product of trip counts of zero passes over the body;
a count of 2^32 or more, or a product of 2^48 or more, is illegal operation 0x5.
R183: the passes of a loop: a body of `ii` bundles runs `total + stages − 1` times, the rotation advances between passes, and
then the bundle after the body issues. -/
def Obligations.LoopsStartAndPass : Prop :=
  (∀ (gd : Guard) (x : Src) (s : State), s.guardOn gd = true → loopBad (s.src x) = false →
  s.b.r.br.xfer = none → s.b.r.lp = none →
  let d := s.src x
  let trips := (List.range (fld d 16 14 + 1)).map (fun i => (s.readG (8 + i)).toNat)
  let N := trips.prod
  ((∀ t ∈ trips, t < 2 ^ 32) → N < 2 ^ 48 → N ≠ 0 → ∃ l : LoopSt,
    exec (.brLoop gd x) s = .next (s.onIss (fun i => { i with loop := some (some l, s.b.pc.toNat + 1) })) ∧
    l.base = s.b.pc.toNat + 1 ∧ l.ii = fld d 4 0 + 1 ∧ l.stages = fld d 7 5 + 1 ∧ l.bind.toNat = fld d 13 8 ∧ l.trips = trips ∧
    l.total = N ∧ l.pass = 0 ∧ l.idx = 0) ∧
  ((∀ t ∈ trips, t < 2 ^ 32) → N = 0 →
    exec (.brLoop gd x) s = .next (s.onIss (fun i => { i with loop := some (none, s.b.pc.toNat + 1 + (fld d 4 0 + 1)) }))) ∧
  ((∃ t ∈ trips, 2 ^ 32 ≤ t) ∨ 2 ^ 48 ≤ N → exec (.brLoop gd x) s = .next (s.illegal 5))) ∧
  (∀ (b : Brick) (l : LoopSt),
  (l.idx + 1 < l.ii → (b.loopNext l).pc = b.pc + 1 ∧ (b.loopNext l).r.rrb = b.r.rrb) ∧
  (l.ii ≤ l.idx + 1 → l.pass + 1 < l.total + l.stages - 1 →
    (b.loopNext l).pc = BitVec.ofNat 32 l.base ∧ (b.loopNext l).r.rrb = b.r.rrb + 1 ∧
    (b.loopNext l).r.lp = some { l with pass := l.pass + 1, idx := 0 }) ∧
  (l.ii ≤ l.idx + 1 → l.total + l.stages - 1 ≤ l.pass + 1 →
    (b.loopNext l).pc = BitVec.ofNat 32 (l.base + l.ii) ∧ (b.loopNext l).r.lp = none))


/-! ## Local loads and stores (R200 to R203) -/

namespace Sys2Proof.Machine.Claims

open Sys2Proof Sys2Proof.Machine

/-- A local range that nothing holds: no transfer's hull, no matrix operation's range, no stored error. -/
def LocalFree (s : State) (space off n : Nat) : Prop :=
  s.b.hullHit space off n = false ∧ s.b.mxHoldsLoad space off n = false ∧ s.b.ecc = [] ∧ s.b.lpois = []

/-- A local address of n bytes that R200 allows. -/
def LocalAddr (a : Word) (n : Nat) : Prop :=
  fld a 63 22 = 0 ∧ fld a 19 0 + n ≤ spaceSize (fld a 21 20) ∧ a.toNat % n = 0

/-- A number of n bytes as a result: signed or not (R202). -/
def Extended (signed : Bool) (n v : Nat) (r : Word) : Prop :=
  if signed then r.toInt = if v < 2 ^ (8 * n - 1) then (v : Int) else v - 2 ^ (8 * n) else r.toNat = v

/-- A local load completes: four cycles on `ls.r` takes the little-endian bytes. -/
def LocalLoad (f : Guard → Src → Instr) (n : Nat) (signed : Bool) : Prop := ∀ (gd : Guard) (x : Src) (s : State),
  s.guardOn gd = true → LocalAddr (s.src x) n → LocalFree s (fld (s.src x) 21 20) (fld (s.src x) 19 0) n → ∃ r,
    exec (f gd x) s = .next (s.launchOp 4 (.res .lsr r)) ∧
    Extended signed n (ofBytes (s.b.loc.read (fld (s.src x) 21 20) (fld (s.src x) 19 0) n)) r

/-- A local store completes: its bytes take the low bytes of `ls.d`, every other local byte, device memory and every register
stay, and the brick's own store is no match of a wake comparator. -/
def LocalStore (f : Guard → Src → Instr) (n : Nat) : Prop := ∀ (gd : Guard) (x : Src) (s : State),
  s.guardOn gd = true → LocalAddr (s.src x) n →
  s.b.hullHit (fld (s.src x) 21 20) (fld (s.src x) 19 0) n = false →
  s.b.mxHoldsStore (fld (s.src x) 21 20) (fld (s.src x) 19 0) n = false → ∃ t,
    exec (f gd x) s = .next t ∧
    t.b.loc.read (fld (s.src x) 21 20) (fld (s.src x) 19 0) n = toBytes n (s.opd .lsd).toNat ∧
    (∀ sp off, sp < 3 → (sp ≠ fld (s.src x) 21 20 ∨ off < fld (s.src x) 19 0 ∨ fld (s.src x) 19 0 + n ≤ off) →
      t.b.loc.read sp off 1 = s.b.loc.read sp off 1) ∧
    (∀ a, t.readPhys a 1 = s.readPhys a 1) ∧ t.b.r = s.b.r ∧ t.b.y.wakeQ = s.b.y.wakeQ ∧ t.b.y.wcmp = s.b.y.wcmp

end Sys2Proof.Machine.Claims

/-- R200, R202: the local loads.
R200, R202: the local stores. `svst` writes the selected lanes and leaves the others' bytes. -/
def Obligations.LocalLoadsAndStores : Prop :=
  (Claims.LocalLoad .lsSldB 1 true ∧ Claims.LocalLoad .lsSldBu 1 false ∧ Claims.LocalLoad .lsSldH 2 true ∧
  Claims.LocalLoad .lsSldHu 2 false ∧ Claims.LocalLoad .lsSldW 4 true ∧ Claims.LocalLoad .lsSldWu 4 false ∧
  Claims.LocalLoad .lsSldD 8 false ∧
  (∀ (gd : Guard) (x : Src) (s : State), let a := s.src x; let d := s.opd .lsa
    s.guardOn gd = true → Claims.LocalAddr a 256 → fld d 63 20 = 0 → bit d.toNat 5 = false →
    Claims.LocalFree s (fld a 21 20) (fld a 19 0) 256 → ∃ v,
      exec (.lsSvld gd x) s = .next (s.launchOp 4 (.vec (physV s.b.r.rrb (fld d 4 0))
        (if bit d.toNat 9 then s.readM (fld d 8 6) else BitVec.allOnes 64) v)) ∧
      ∀ j < 64, (lane v j).toNat = ofBytes (s.b.loc.read (fld a 21 20) (fld a 19 0 + 4 * j) 4))) ∧
  (Claims.LocalStore .lsSstB 1 ∧ Claims.LocalStore .lsSstH 2 ∧ Claims.LocalStore .lsSstW 4 ∧ Claims.LocalStore .lsSstD 8 ∧
  (∀ (gd : Guard) (x : Src) (s : State), let a := s.src x; let d := s.opd .lsa; let sp := fld a 21 20; let o := fld a 19 0
    s.guardOn gd = true → Claims.LocalAddr a 256 → fld d 63 20 = 0 → bit d.toNat 5 = false →
    s.b.hullHit sp o 256 = false → s.b.mxHoldsStore sp o 256 = false → ∃ t,
      exec (.lsSvst gd x) s = .next t ∧
      (∀ j < 64, t.b.loc.read sp (o + 4 * j) 4 =
        if bit d.toNat 9 = false ∨ bit (s.readM (fld d 8 6)).toNat j = true
        then toBytes 4 (lane (s.readV (fld d 4 0)) j).toNat else s.b.loc.read sp (o + 4 * j) 4) ∧
      (∀ p off, p < 3 → (p ≠ sp ∨ off < o ∨ o + 256 ≤ off) → t.b.loc.read p off 1 = s.b.loc.read p off 1) ∧
      (∀ a, t.readPhys a 1 = s.readPhys a 1) ∧ t.b.r = s.b.r ∧ t.b.y.wakeQ = s.b.y.wakeQ))

namespace Sys2Proof.Machine.Claims

open Sys2Proof Sys2Proof.Machine

/-- The local loads and stores with the bytes each moves and whether it takes a vector descriptor (R201, R202). -/
def localSlots (gd : Guard) (x : Src) : List (Instr × Nat × Bool) :=
  [(.lsSldB gd x, 1, false), (.lsSldBu gd x, 1, false), (.lsSldH gd x, 2, false), (.lsSldHu gd x, 2, false),
   (.lsSldW gd x, 4, false), (.lsSldWu gd x, 4, false), (.lsSldD gd x, 8, false), (.lsSvld gd x, 256, true),
   (.lsSstB gd x, 1, false), (.lsSstH gd x, 2, false), (.lsSstW gd x, 4, false), (.lsSstD gd x, 8, false),
   (.lsSvst gd x, 256, true)]

/-- The protected word of a local offset (R142). -/
def wordAt (sp off : Nat) : Nat := let W := if sp = 1 then 4 else 8; off / W * W

end Sys2Proof.Machine.Claims

/-! ## Device loads and stores (R199, R200, R203 to R207) -/

namespace Sys2Proof.Machine.Claims

open Sys2Proof Sys2Proof.Machine

/-- What a deterministic task's checks leave of a state (R324, R325); any other task has none. -/
def Checked (s t : State) (va n : Nat) (use : Use) (rd wr : Bool) : Prop :=
  (s.isDet = false ∧ t = s) ∨
  (s.isDet = true ∧ ∃ pa, s.xlate s.b.dataLook s.b.t.ctx va use false = .ok pa ∧ s.detCheck pa n s.detTuple rd wr = .ok t)

/-- A deterministic task's access meets its checks: its page is translated, and none of its lines is in conflict (R324, R325). -/
def Passes (s : State) (va n : Nat) (use : Use) (rd wr : Bool) : Prop :=
  s.isDet = true → ∃ pa t, s.xlate s.b.dataLook s.b.t.ctx va use false = .ok pa ∧ s.detCheck pa n s.detTuple rd wr = .ok t

/-- A device load completes: the access joins the brick's list, counted in `cnt.ld`. -/
def DeviceLoad (f : Guard → Src → Instr) (n : Nat) (ok : Word → Prop) (acq : Bool) (kind : DevKind)
    (dst : State → Word → Dest) : Prop := ∀ (gd : Guard) (x : Src) (s : State),
  s.guardOn gd = true → fld (s.opd .lsa) 63 20 = 0 → ok (s.opd .lsa) → (s.src x).toNat % n = 0 →
  (acq = true → s.isDet = false) → s.b.cnt.ld < 65535 → Passes s (s.src x).toNat n .read true false →
  ∃ t, Checked (s.defer (.cnt .ld)) t (s.src x).toNat n .read true false ∧ exec (f gd x) s = .next (t.place { DevOp.basic kind (s.src x).toNat n with
    dst := dst s (s.opd .lsa), acq := acq, scope := fld (s.opd .lsa) 19 17, fill := !acq })

/-- The replay queue takes another store to an address: it has room, or the store needs no entry, its page being free of parked
stores and its translation no replayable fault (R100, R101). -/
def ReplayRoom (s : State) (va : Nat) : Prop := (s.replayNeeds s.b).length < 16 ∨
  ((∀ p ∈ s.replayNeeds s.b, ¬ (p.ctx = s.b.t.ctx ∧ p.va / 4096 = va / 4096)) ∧
    ∀ rc level pte, s.xlate s.b.dataLook s.b.t.ctx va .write false ≠ .error (0, rc, level, pte))

/-- A device store completes: the access joins the brick's list with its data and byte mask, counted in `cnt.st`. -/
def DeviceStore (f : Guard → Src → Instr) (n : Nat) (ok : Word → Prop) (rel : Bool) (data : State → Nat)
    (mask : State → BitVec 256) : Prop := ∀ (gd : Guard) (x : Src) (s : State),
  s.guardOn gd = true → ok (s.opd .lsa) → (s.src x).toNat % n = 0 → (rel = true → s.isDet = false) →
  ReplayRoom s (s.src x).toNat → s.b.cnt.st < 65535 → Passes s (s.src x).toNat n .write false true →
  ∃ t, Checked (s.defer (.cnt .st)) t (s.src x).toNat n .write false true ∧ exec (f gd x) s = .next (t.place { DevOp.basic .store (s.src x).toNat n with
    data := data s, bytes := mask s, rel := rel, scope := fld (s.opd .lsa) 19 17 })

/-- The g register the descriptor names, through the rotation in force (R186, R204). -/
def gDest (s : State) (d : Word) : Dest := .g (physG s.b.r.rrb (fld d 5 0))

end Sys2Proof.Machine.Claims

/-- R199 to R206: the device loads. The destination is bound when the load issues. -/
def Obligations.DeviceLoads : Prop :=
  Claims.DeviceLoad .lsLdB 1 (fun _ => True) false (.load true) Claims.gDest ∧
  Claims.DeviceLoad .lsLdBu 1 (fun _ => True) false (.load false) Claims.gDest ∧
  Claims.DeviceLoad .lsLdH 2 (fun _ => True) false (.load true) Claims.gDest ∧
  Claims.DeviceLoad .lsLdHu 2 (fun _ => True) false (.load false) Claims.gDest ∧
  Claims.DeviceLoad .lsLdW 4 (fun _ => True) false (.load true) Claims.gDest ∧
  Claims.DeviceLoad .lsLdWu 4 (fun _ => True) false (.load false) Claims.gDest ∧
  Claims.DeviceLoad .lsLdD 8 (fun _ => True) false (.load false) Claims.gDest ∧
  Claims.DeviceLoad .lsLdQ 16 (fun d => bit d.toNat 0 = false) false (.load false)
    (fun s d => .gq (physG s.b.r.rrb (fld d 5 0)) (physG s.b.r.rrb (fld d 5 0 + 1))) ∧
  Claims.DeviceLoad .lsVld 256 (fun d => bit d.toNat 5 = false) false (.load false)
    (fun s d => .v (physV s.b.r.rrb (fld d 4 0)) (if bit d.toNat 9 then s.readM (fld d 8 6) else BitVec.allOnes 64)) ∧
  Claims.DeviceLoad .lsLdWAcq 4 (fun d => fld d 19 17 ≤ 4) true (.load true) Claims.gDest ∧
  Claims.DeviceLoad .lsLdDAcq 8 (fun d => fld d 19 17 ≤ 4) true (.load false) Claims.gDest

/-- R199 to R204, R207, R326: the device stores, and `rst.d` into another brick's local stores, which deterministic mode refuses
with cause 0x6. -/
def Obligations.DeviceStores : Prop :=
  Claims.DeviceStore .lsStB 1 (fun _ => True) false (fun s => (s.opd .lsd).toNat % 2 ^ 8) (fun _ => 0x1) ∧
  Claims.DeviceStore .lsStH 2 (fun _ => True) false (fun s => (s.opd .lsd).toNat % 2 ^ 16) (fun _ => 0x3) ∧
  Claims.DeviceStore .lsStW 4 (fun _ => True) false (fun s => (s.opd .lsd).toNat % 2 ^ 32) (fun _ => 0xF) ∧
  Claims.DeviceStore .lsStD 8 (fun _ => True) false (fun s => (s.opd .lsd).toNat) (fun _ => 0xFF) ∧
  Claims.DeviceStore .lsStQ 16 (fun _ => True) false (fun s => (s.opd .lsd).toNat + 2 ^ 64 * (s.opd .lsx).toNat) (fun _ => 0xFFFF) ∧
  Claims.DeviceStore .lsVst 256 (fun d => fld d 63 20 = 0 ∧ bit d.toNat 5 = false) false
    (fun s => (s.readV (fld (s.opd .lsa) 4 0)).toNat)
    (fun s => laneBytes (if bit (s.opd .lsa).toNat 9 then s.readM (fld (s.opd .lsa) 8 6) else BitVec.allOnes 64)) ∧
  Claims.DeviceStore .lsStWRel 4 (fun d => fld d 63 20 = 0 ∧ fld d 19 17 ≤ 4) true (fun s => (s.opd .lsd).toNat % 2 ^ 32)
    (fun _ => 0xF) ∧
  Claims.DeviceStore .lsStDRel 8 (fun d => fld d 63 20 = 0 ∧ fld d 19 17 ≤ 4) true (fun s => (s.opd .lsd).toNat) (fun _ => 0xFF) ∧
  (∀ (gd : Guard) (x : Src) (s : State), let a := s.src x
    s.guardOn gd = true → fld a 63 40 = 0 → fld a 29 22 = 0 → s.inService (fld a 39 30) = true →
    fld a 19 0 + 8 ≤ spaceSize (fld a 21 20) → s.isDet = false → a.toNat % 8 = 0 → s.b.cnt.st < 65535 →
    exec (.lsRstD gd x) s = .next ((s.defer (.cnt .st)).place
      { DevOp.basic (.rst (fld a 39 30) (fld a 21 20) (fld a 19 0)) 0 8 with
        data := (s.opd .lsd).toNat, bytes := 0xFF })) ∧
  (∀ (gd : Guard) (x : Src) (s : State), let a := s.src x
    s.guardOn gd = true → fld a 63 40 = 0 → fld a 29 22 = 0 → s.inService (fld a 39 30) = true →
    fld a 19 0 + 8 ≤ spaceSize (fld a 21 20) → s.isDet = true → exec (.lsRstD gd x) s = .next (s.illegal 6))

namespace Sys2Proof.Machine.Claims

open Sys2Proof Sys2Proof.Machine

/-- The checks of a device operation in their order: a reserved bit or code is illegal operation 0x2, what deterministic mode
refuses is 0x6 there, and then comes the alignment trap with the address. -/
def Checks (i : Instr) (x : Src) (s : State) (bad refused : Prop) (n : Nat) : Prop :=
  (bad → exec i s = .next (s.illegal 2)) ∧
  (¬ bad → refused → s.isDet = true → exec i s = .next (s.illegal 6)) ∧
  (¬ bad → (refused → s.isDet = false) → (s.src x).toNat % n ≠ 0 → exec i s = .next (s.misaligned (s.src x) n))

/-- The 21 atomics, with whether each is a floating sum and whether it may combine (R209, R210). -/
def atomics (gd : Guard) (x : Src) : List (Instr × Bool × Bool) :=
  [(.lsAmoAdd gd x, false, false), (.lsAmoAnd gd x, false, false), (.lsAmoOr gd x, false, false),
   (.lsAmoXor gd x, false, false), (.lsAmoMin gd x, false, false), (.lsAmoMax gd x, false, false),
   (.lsAmoMinu gd x, false, false), (.lsAmoMaxu gd x, false, false), (.lsAmoSwap gd x, false, false),
   (.lsAmoCas gd x, false, false), (.lsAmoFadd gd x, true, false), (.lsAmoAddC gd x, false, true),
   (.lsAmoAndC gd x, false, true), (.lsAmoOrC gd x, false, true), (.lsAmoXorC gd x, false, true),
   (.lsAmoMinC gd x, false, true), (.lsAmoMaxC gd x, false, true), (.lsAmoMinuC gd x, false, true),
   (.lsAmoMaxuC gd x, false, true), (.lsAmoSwapC gd x, false, true), (.lsAmoFaddComb gd x, true, true)]

end Sys2Proof.Machine.Claims

/-! ## Atomics (R209, R210) -/

namespace Sys2Proof.Machine.Claims

open Sys2Proof Sys2Proof.Machine

/-- Whether an order code acquires: acquire, acquire and release, or sequentially consistent (R198). -/
def acquires (ord : Nat) : Bool := ord == 1 || ord == 3 || ord == 4

/-- Whether an order code releases (R198). -/
def releases (ord : Nat) : Bool := ord == 2 || ord == 3 || ord == 4

/-- An atomic completes: the access joins the brick's list with its operands, order and scope, counted in `cnt.st`. A 4-byte one
takes the low halves of its operands; one with no return names no destination. The lines of its bytes leave the snapshot cache
(R295). -/
def Atomic (f : Guard → Src → Instr) (op : AmoOp) (comb : Bool) : Prop := ∀ (gd : Guard) (x : Src) (s : State),
  let d := s.opd .lsa
  let n := if bit d.toNat 13 then 8 else 4
  s.guardOn gd = true → fld d 63 20 = 0 → fld d 16 14 ≤ 4 → (fld d 16 14 ≠ 0 → fld d 19 17 ≤ 4) →
  (op = .fadd → bit d.toNat 13 = false) → ((fld d 16 14 ≠ 0 ∨ op = .fadd ∧ comb = true) → s.isDet = false) →
  (s.src x).toNat % n = 0 → ReplayRoom s (s.src x).toNat → s.b.cnt.st < 65535 → Passes s (s.src x).toNat n .write true true →
  ∃ t, Checked (s.defer (.cnt .st)) t (s.src x).toNat n .write true true ∧ exec (f gd x) s = .next ((t.dropAtomic (s.src x).toNat n).place
    { DevOp.basic (.amo op comb (fld d 11 10) (bit d.toNat 12) ((s.opd .lsx).toNat % 2 ^ (8 * n))) (s.src x).toNat n with
      data := (s.opd .lsd).toNat % 2 ^ (8 * n), dst := if bit d.toNat 12 then .none else gDest s d
      acq := acquires (fld d 16 14), rel := releases (fld d 16 14), ord := fld d 16 14, scope := fld d 19 17 })

end Sys2Proof.Machine.Claims

/-! ## Chained loads and the tag table (R211 to R215, R221) -/

namespace Sys2Proof.Machine.Claims

open Sys2Proof Sys2Proof.Machine

/-- The checks of a deterministic task's chain from step i, which loads `ad`: every step that the chain would perform is translated
and its line checked, up to one that would stop it (R92, R212, R325). -/
def ChainChecked (steps n : Nat) : Nat → State → Nat → Nat → State → Prop
  | 0, s, _, _, t => t = s
  | fuel + 1, s, i, ad, t =>
    if n ≤ i ∨ ad % 8 ≠ 0 then t = s
    else ∃ pa u, s.xlate s.b.dataLook s.b.t.ctx ad .write false = .ok pa ∧ s.detCheck pa 8 s.detTuple true false = .ok u ∧
      let mask := elem steps 64 (2 * i)
      let next := ((ofBytes (s.readPhys pa 8) &&& mask) + elem steps 64 (2 * i + 1)) % 2 ^ 64
      if 2 ^ 52 ≤ next then t = u else ChainChecked steps n fuel u (i + 1) next t

/-- The checks of a chain as it issues: a task outside deterministic mode has none. -/
def ChainPasses (s t : State) (steps n i ad : Nat) : Prop :=
  (s.isDet = false ∧ t = s) ∨ (s.isDet = true ∧ ChainChecked steps n 8 s i ad t)

end Sys2Proof.Machine.Claims

/-- R198, R199, R209, R210: the 21 atomics.
R211, R212, R325: a chained load joins the brick's list with its steps and the carried value, and its block joins the range
scoreboard. In deterministic mode every step of the chain is checked first. How far those checks follow the chain is the model's
choice (log 51), and so is that `chld` issues whatever the number of entries in the range scoreboard (log 55). -/
def Obligations.AtomicsAndChainsIssue : Prop :=
  (Claims.Atomic .lsAmoAdd .add false ∧ Claims.Atomic .lsAmoAnd .and false ∧ Claims.Atomic .lsAmoOr .or false ∧
  Claims.Atomic .lsAmoXor .xor false ∧ Claims.Atomic .lsAmoMin .min false ∧ Claims.Atomic .lsAmoMax .max false ∧
  Claims.Atomic .lsAmoMinu .minu false ∧ Claims.Atomic .lsAmoMaxu .maxu false ∧ Claims.Atomic .lsAmoSwap .swap false ∧
  Claims.Atomic .lsAmoCas .cas false ∧ Claims.Atomic .lsAmoFadd .fadd false ∧ Claims.Atomic .lsAmoAddC .add true ∧
  Claims.Atomic .lsAmoAndC .and true ∧ Claims.Atomic .lsAmoOrC .or true ∧ Claims.Atomic .lsAmoXorC .xor true ∧
  Claims.Atomic .lsAmoMinC .min true ∧ Claims.Atomic .lsAmoMaxC .max true ∧ Claims.Atomic .lsAmoMinuC .minu true ∧
  Claims.Atomic .lsAmoMaxuC .maxu true ∧ Claims.Atomic .lsAmoSwapC .swap true ∧ Claims.Atomic .lsAmoFaddComb .fadd true) ∧
  (∀ (gd : Guard) (x : Src) (s : State),
  let a := s.src x
  let off := fld a 19 0
  let h := s.b.loc.readNat 0 off 32
  let n := bits h 163 160
  let len := 32 + 16 * n
  s.guardOn gd = true → fld a 63 20 = 0 → fld (s.opd .lsa) 63 20 = 0 → off % 32 = 0 → off + len ≤ 0x100000 →
  bits h 255 176 = 0 → bits h 171 170 = 0 → bit h 167 = false → bits h 159 128 = 0 → bits h 63 52 = 0 →
  1 ≤ n → n ≤ 8 → bits h 166 164 < n → Claims.LocalFree s 0 off len → s.b.cnt.ld < 65535 →
  (∃ t, Claims.ChainPasses (s.defer (.cnt .ld)) t (s.b.loc.readNat 0 (off + 32) (16 * n)) n (bits h 166 164) (bits h 51 0)) →
  ∃ t, Claims.ChainPasses (s.defer (.cnt .ld)) t (s.b.loc.readNat 0 (off + 32) (16 * n)) n (bits h 166 164) (bits h 51 0) ∧
  exec (.lsChld gd x) s = .next ((t.place { DevOp.basic (.chain off n (bits h 166 164) (BitVec.ofNat 64 (bits h 127 64)))
      (bits h 51 0) 8 with data := s.b.loc.readNat 0 (off + 32) (16 * n), dst := Claims.gDest s (s.opd .lsa) }).onB (fun b =>
    { b with score := b.score ++ [⟨0, off, off + len - 1, 2 * (1024 * s.b.nextId + s.b.bid) + 1⟩] })))

/-- R133, R135, R215: a lookup that hits gives the lowest slot of that key and marks it used; one that misses gives all ones, and
hints a slot that is not kept, or all ones where every slot is.
R215, R221: `tget` and `tset` of an entry and of `thand`, and `larm` of a kernel context. -/
def Obligations.TagOperations : Prop :=
  (∀ (gd : Guard) (x : Src) (s : State),
  let key := fld (s.src x) 39 0
  let hit := fun (j : Nat) => bit (vget 0 s.b.y.tag j).toNat 0 = true ∧ fld (vget 0 s.b.y.tag j) 63 24 = key
  s.guardOn gd = true → fld (s.src x) 63 40 = 0 → s.b.ecc = [] → bit s.b.y.einj.toNat 63 = false →
  (∀ j < 256, hit j → (∀ i < j, ¬ hit i) →
    exec (.lsTlk gd x) s = .next (((s.onY (fun y =>
      { y with tag := vset y.tag j (setFld (vget 0 y.tag j) 2 2 1) })).launchOp 2 (.res .lsr (BitVec.ofNat 64 j))).launchOp 2
      (.res .lsh (BitVec.allOnes 64)))) ∧
  ((∀ i < 256, ¬ hit i) → ∃ (t : State) (h : Word), exec (.lsTlk gd x) s =
      .next ((t.launchOp 2 (.res .lsr (BitVec.allOnes 64))).launchOp 2 (.res .lsh h)) ∧
    t = { s with b := { s.b with y := { s.b.y with tag := t.b.y.tag, thand := t.b.y.thand } } } ∧
    ((∀ i < 256, bit (vget 0 s.b.y.tag i).toNat 3 = true) → h = BitVec.allOnes 64) ∧
    ((∃ i < 256, bit (vget 0 s.b.y.tag i).toNat 3 = false) → ∃ j < 256, h = BitVec.ofNat 64 j ∧
      bit (vget 0 s.b.y.tag j).toNat 3 = false ∧ t.b.y.thand.toNat = (j + 1) % 256))) ∧
  (∀ (gd : Guard) (x : Src) (s : State), s.guardOn gd = true → s.b.ecc = [] →
  (∀ j < 256, (s.src x).toNat = j → exec (.lsTget gd x) s = .next (s.launchOp 2 (.res .lsr (vget 0 s.b.y.tag j)))) ∧
  ((s.src x).toNat = 256 → exec (.lsTget gd x) s = .next (s.launchOp 2 (.res .lsr (s.b.y.thand.zeroExtend 64)))) ∧
  (∀ j < 256, (s.src x).toNat = j → fld (s.opd .lsd) 15 4 = 0 → s.b.mxHoldsStore 0 (4096 * j) 4096 = false →
    bit s.b.y.einj.toNat 63 = false →
    exec (.lsTset gd x) s = .next (s.onY (fun y => { y with tag := vset y.tag j (s.opd .lsd) }))) ∧
  ((s.src x).toNat = 256 → exec (.lsTset gd x) s = .next (s.onY (fun y => { y with thand := (s.opd .lsd).extractLsb' 0 8 }))) ∧
  (fld (s.src x) 63 26 = 0 → bit (s.src x).toNat 22 = false → fld (s.src x) 21 20 ≠ 3 → s.cls = 2 →
    exec (.lsLarm gd x) s = .next (s.onY (fun y => { y with arm := vset y.arm (fld (s.src x) 25 24) ((s.src x).extractLsb' 0 26) }))) ∧
  (fld (s.src x) 63 26 = 0 → bit (s.src x).toNat 22 = false → fld (s.src x) 21 20 ≠ 3 → s.cls ≠ 2 →
    exec (.lsLarm gd x) s = .next (s.illegal 7)))


/-! ## The vector unit (R227 to R246) -/

namespace Sys2Proof.Machine.Claims

open Sys2Proof Sys2Proof.Machine

/-- The power class a task holds allows an operation of a class; a task that holds none runs everything (R402). -/
def Power (s : State) (c : Nat) : Prop := ∀ m, s.b.cls = some m → c ≤ m

/-- The state after an operation of a power class is noted for the window (R404). -/
def drawn (s : State) (c : Nat) : State := s.onB (fun b => { b with hiCls := some (max c (b.hiCls.getD 0)) })

/-- Whether a descriptor selects lane j (R231). -/
def selected (s : State) (d : Word) (j : Nat) : Prop := bit d.toNat 23 = false ∨ bit (s.readM (fld d 22 20)).toNat j = true

/-- Lane j of va. -/
def opA (s : State) (d : Word) (j : Nat) : BitVec 32 := lane (s.readV (fld d 9 5)) j
/-- Lane j of vb, or `vx.o` in its place. -/
def opB (s : State) (d : Word) (j : Nat) : BitVec 32 :=
  if bit d.toNat 25 then (s.opd .vxo).truncate 32 else lane (s.readV (fld d 14 10)) j
/-- Lane j of vc. -/
def opC (s : State) (d : Word) (j : Nat) : BitVec 32 := lane (s.readV (fld d 19 15)) j
/-- Lane j of the old vd. -/
def oldD (s : State) (d : Word) (j : Nat) : BitVec 32 := lane (s.readV (fld d 4 0)) j

/-- A lane operation completes: after L cycles vd takes the results of the selected lanes, and the others keep the old vd or are
zero (R231, R232). -/
def Lanes (f : Guard → Src → Instr) (u : VUse) (L : Nat) (P : State → Word → Nat → BitVec 32 → Prop) : Prop :=
  ∀ (gd : Guard) (x : Src) (s : State), let d := s.src x
  s.guardOn gd = true → vxBad u d = false → Power s 1 → ∃ v,
    exec (f gd x) s = .next ((drawn s 1).launchOp L (.vec (physV s.b.r.rrb (fld d 4 0)) (BitVec.allOnes 64) v)) ∧
    ∀ j < 64, (selected s d j → P s d j (lane v j)) ∧
      (¬ selected s d j → lane v j = if bit d.toNat 24 then 0 else oldD s d j)

/-- A lane operation that raises flags completes: those of the selected lanes are recorded with the result (R234). -/
def FlagLanes (f : Guard → Src → Instr) (u : VUse) (L : Nat) (r : State → Word → Nat → BitVec 32 × Flags) : Prop :=
  ∀ (gd : Guard) (x : Src) (s : State), let d := s.src x
  s.guardOn gd = true → vxBad u d = false → Power s 1 → ∃ v fl,
    exec (f gd x) s = .next (((drawn s 1).launchOp L (.vec (physV s.b.r.rrb (fld d 4 0)) (BitVec.allOnes 64) v)).launchOp L (.flags fl)) ∧
    (∀ j < 64, (selected s d j → lane v j = (r s d j).1) ∧
      (¬ selected s d j → lane v j = if bit d.toNat 24 then 0 else oldD s d j)) ∧
    ∀ i, fl.getLsbD i = true ↔ ∃ j < 64, selected s d j ∧ (r s d j).2.getLsbD i = true

/-- A lane operation of two integers. -/
def IntLanes (f : Guard → Src → Instr) (L : Nat) (P : BitVec 32 → BitVec 32 → BitVec 32 → Prop) : Prop :=
  Lanes f { d := true, a := true, b := true, sb := true, m := true, z := true } L
    (fun s d j r => P (opA s d j) (opB s d j) r)

/-- A clamping lane operation: the sum or difference v clamped, saturated where it was (R57, R236). -/
def ClampLanes (f : Guard → Src → Instr) (v : BitVec 32 → BitVec 32 → Int) (lo hi : Int) : Prop :=
  FlagLanes f { d := true, a := true, b := true, sb := true, m := true, z := true } 2 (fun s d j =>
    let x := v (opA s d j) (opB s d j)
    (BitVec.ofInt 32 (max lo (min hi x)), if x < lo ∨ hi < x then 0x40 else 0))

/-- A floating lane operation of a and b, c where it takes one: the exact value rounded once (R237). -/
def FloatLanes (f : Guard → Src → Instr) (u : VUse) (L : Nat) (v : Val → Val → Val → Val × Flags) : Prop :=
  FlagLanes f u L (fun s d j =>
    let e := v (read32 (opA s d j)) (read32 (opB s d j)) (read32 (opC s d j))
    ((round32 (fld d 27 26) e.1).1, e.2 ||| (round32 (fld d 27 26) e.1).2))

/-- The fields of a floating operation of two operands, and of one (R237). -/
def useDABMR : VUse := { d := true, a := true, b := true, sb := true, m := true, z := true, r := true }
/-- Fields d, a, m and the mode (R237). -/
def useDAMR : VUse := { d := true, a := true, m := true, z := true, r := true }

end Sys2Proof.Machine.Claims

/-- R231, R232, R236: the integer lane operations; `vsel` chooses by its mask and writes every lane. -/
def Obligations.VectorIntegerLanes : Prop :=
  Claims.IntLanes .vxVaddI32 2 (fun a b r => r = a + b) ∧
  Claims.IntLanes .vxVsubI32 2 (fun a b r => r = a - b) ∧
  Claims.ClampLanes .vxVaddsI32 (fun a b => a.toInt + b.toInt) (-2 ^ 31) (2 ^ 31 - 1) ∧
  Claims.ClampLanes .vxVsubsI32 (fun a b => a.toInt - b.toInt) (-2 ^ 31) (2 ^ 31 - 1) ∧
  Claims.ClampLanes .vxVaddsuI32 (fun a b => (a.toNat : Int) + b.toNat) 0 (2 ^ 32 - 1) ∧
  Claims.ClampLanes .vxVsubsuI32 (fun a b => (a.toNat : Int) - b.toNat) 0 (2 ^ 32 - 1) ∧
  Claims.IntLanes .vxVmulI32 3 (fun a b r => r.toNat = a.toNat * b.toNat % 2 ^ 32) ∧
  Claims.IntLanes .vxVmulhI32 3 (fun a b r => r.toInt = a.toInt * b.toInt / 2 ^ 32) ∧
  Claims.IntLanes .vxVminI32 2 (fun a b r => r.toInt = min a.toInt b.toInt) ∧
  Claims.IntLanes .vxVmaxI32 2 (fun a b r => r.toInt = max a.toInt b.toInt) ∧
  Claims.IntLanes .vxVminuI32 2 (fun a b r => r.toNat = min a.toNat b.toNat) ∧
  Claims.IntLanes .vxVmaxuI32 2 (fun a b r => r.toNat = max a.toNat b.toNat) ∧
  Claims.IntLanes .vxVand 2 (fun a b r => ∀ i, r.getLsbD i = (a.getLsbD i && b.getLsbD i)) ∧
  Claims.IntLanes .vxVor 2 (fun a b r => ∀ i, r.getLsbD i = (a.getLsbD i || b.getLsbD i)) ∧
  Claims.IntLanes .vxVxor 2 (fun a b r => ∀ i, r.getLsbD i = (a.getLsbD i ^^ b.getLsbD i)) ∧
  Claims.IntLanes .vxVshl 2 (fun a b r => r.toNat = a.toNat * 2 ^ (b.toNat % 32) % 2 ^ 32) ∧
  Claims.IntLanes .vxVshr 2 (fun a b r => r.toNat = a.toNat / 2 ^ (b.toNat % 32)) ∧
  Claims.IntLanes .vxVsar 2 (fun a b r => r.toInt = a.toInt / 2 ^ (b.toNat % 32)) ∧
  (∀ (gd : Guard) (x : Src) (s : State), let d := s.src x
    s.guardOn gd = true → vxBad { d := true, a := true, b := true, sb := true, m := true } d = false → bit d.toNat 23 = false →
    Claims.Power s 1 → ∃ v, exec (.vxVsel gd x) s =
      .next ((Claims.drawn s 1).launchOp 2 (.vec (physV s.b.r.rrb (fld d 4 0)) (BitVec.allOnes 64) v)) ∧
    ∀ j < 64, lane v j = if bit (s.readM (fld d 22 20)).toNat j then Claims.opA s d j else Claims.opB s d j)

/-- R237, R238: the floating lane operations and functions: the exact value of each, rounded once under the descriptor's mode.
What the values of the exact functions and of the rounding are, `RoundingIsNearest` states. The flags of `vfma.f32` and
`vfms.f32` with a NaN beside zero times infinity are the model's choice (log 88).
`vmin.f32` and `vmax.f32` choose with −0 below +0, and `vabs.f32` and `vneg.f32` act on the bit pattern. -/
def Obligations.VectorFloatLanes : Prop :=
  Claims.FloatLanes .vxVaddF32 Claims.useDABMR 4 (fun a b _ => addNum a b) ∧
  Claims.FloatLanes .vxVsubF32 Claims.useDABMR 4 (fun a b _ => addNum a b.negate) ∧
  Claims.FloatLanes .vxVmulF32 Claims.useDABMR 4 (fun a b _ => mulNum a b) ∧
  Claims.FloatLanes .vxVfmaF32 { Claims.useDABMR with c := true } 4 (fun a b c => fmaNum a b c) ∧
  Claims.FloatLanes .vxVfmsF32 { Claims.useDABMR with c := true } 4 (fun a b c => fmaNum a b c.negate) ∧
  Claims.FloatLanes .vxVdivF32 Claims.useDABMR 10 (fun a b _ => divNum a b) ∧
  Claims.FloatLanes .vxVsqrtF32 Claims.useDAMR 10 (fun a _ _ => sqrtNum a) ∧
  Claims.FloatLanes .vxVexp2F32 Claims.useDAMR 8 (fun a _ _ => exp2Num a) ∧
  Claims.FloatLanes .vxVlog2F32 Claims.useDAMR 8 (fun a _ _ => log2Num a) ∧
  Claims.FloatLanes .vxVtanhF32 Claims.useDAMR 8 (fun a _ _ => tanhNum a) ∧
  Claims.FlagLanes .vxVrcpeF32 { d := true, a := true, m := true, z := true } 4
    (fun s d j => (BitVec.ofNat 32 (rcpe (read32 (Claims.opA s d j))).1, (rcpe (read32 (Claims.opA s d j))).2)) ∧
  Claims.FlagLanes .vxVrsqrteF32 { d := true, a := true, m := true, z := true } 4
    (fun s d j => (BitVec.ofNat 32 (rsqrte (read32 (Claims.opA s d j))).1, (rsqrte (read32 (Claims.opA s d j))).2)) ∧
  Claims.IntLanes .vxVminF32 4 (fun a b r =>
    (((read32 a).isNan || (read32 b).isNan) = true → r = 0x7FC00000) ∧
    (((read32 a).isNan || (read32 b).isNan) = false → (r = a ∨ r = b) ∧ beforeNum (read32 a) (read32 r) = false ∧
      beforeNum (read32 b) (read32 r) = false)) ∧
  Claims.IntLanes .vxVmaxF32 4 (fun a b r =>
    (((read32 a).isNan || (read32 b).isNan) = true → r = 0x7FC00000) ∧
    (((read32 a).isNan || (read32 b).isNan) = false → (r = a ∨ r = b) ∧ beforeNum (read32 r) (read32 a) = false ∧
      beforeNum (read32 r) (read32 b) = false)) ∧
  Claims.Lanes .vxVabsF32 { d := true, a := true, m := true, z := true } 2 (fun s d j r =>
    ∀ i, r.getLsbD i = ((Claims.opA s d j).getLsbD i && decide (i ≠ 31))) ∧
  Claims.Lanes .vxVnegF32 { d := true, a := true, m := true, z := true } 2 (fun s d j r =>
    ∀ i < 32, r.getLsbD i = ((Claims.opA s d j).getLsbD i ^^ decide (i = 31)))

namespace Sys2Proof.Machine.Claims

open Sys2Proof Sys2Proof.Machine

/-- A compare completes: bit j of the mask is 1 where lane j is selected and its relation holds (R239). -/
def Compare (f : Guard → Src → Instr) (p : BitVec 32 → BitVec 32 → Prop) : Prop := ∀ (gd : Guard) (x : Src) (s : State),
  let d := s.src x
  s.guardOn gd = true → vxBad { d := true, a := true, b := true, sb := true, m := true } d = false → fld d 4 0 < 8 → Power s 1 →
  ∃ m, exec (f gd x) s = .next ((drawn s 1).launchOp 2 (.mask (fld d 4 0) m)) ∧
    ∀ j < 64, m.getLsbD j = true ↔ selected s d j ∧ p (opA s d j) (opB s d j)

/-- A relation of FP32 numbers that is false where either is NaN (R239). -/
def Ordered (p : Val → Val → Prop) (a b : BitVec 32) : Prop :=
  (read32 a).isNan = false ∧ (read32 b).isNan = false ∧ p (read32 a) (read32 b)

/-- An operation of two mask registers completes (R240). -/
def MaskOp (f : Guard → Src → Instr) (r : Word → Word → Word) : Prop := ∀ (gd : Guard) (x : Src) (s : State), let d := s.src x
  s.guardOn gd = true → vxBad { d := true, a := true, b := true } d = false → fld d 4 0 < 8 → fld d 9 5 < 8 → fld d 14 10 < 8 →
  Power s 1 → exec (f gd x) s = .next ((drawn s 1).launchOp 1
    (.mask (fld d 4 0) (r (s.readM (fld d 9 5)) (s.readM (fld d 14 10)))))

/-- An operation of one mask register into `vx.r` completes (R240). -/
def MaskRead (f : Guard → Src → Instr) (P : Word → Word → Prop) : Prop := ∀ (gd : Guard) (x : Src) (s : State), let d := s.src x
  s.guardOn gd = true → vxBad { a := true } d = false → fld d 9 5 < 8 → Power s 1 → ∃ r,
    exec (f gd x) s = .next ((drawn s 1).launchOp 1 (.res .vxr r)) ∧ P (s.readM (fld d 9 5)) r

/-- A vote into a guard completes (R241). -/
def Vote (f : Guard → Src → Instr) (P : State → Word → Word → Bool → Prop) : Prop := ∀ (gd : Guard) (x : Src) (s : State),
  let d := s.src x
  s.guardOn gd = true → vxBad { d := true, a := true, m := true } d = false → 1 ≤ fld d 4 0 → fld d 4 0 ≤ 6 → fld d 9 5 < 8 →
  Power s 1 → ∃ v, exec (f gd x) s = .next ((drawn s 1).launchOp 2 (.guard (fld d 4 0 - 1) v)) ∧ P s d (s.readM (fld d 9 5)) v

end Sys2Proof.Machine.Claims

/-- R239 to R241: compares into a mask, operations of whole masks, and votes into a guard. -/
def Obligations.VectorComparesMasksAndVotes : Prop :=
  Claims.Compare .vxVceqI32 (fun a b => a = b) ∧
  Claims.Compare .vxVcltI32 (fun a b => a.toInt < b.toInt) ∧
  Claims.Compare .vxVcleI32 (fun a b => a.toInt ≤ b.toInt) ∧
  Claims.Compare .vxVcltuI32 (fun a b => a.toNat < b.toNat) ∧
  Claims.Compare .vxVcleuI32 (fun a b => a.toNat ≤ b.toNat) ∧
  Claims.Compare .vxVceqF32 (Claims.Ordered (fun a b => ltNum a b = false ∧ ltNum b a = false)) ∧
  Claims.Compare .vxVcltF32 (Claims.Ordered (fun a b => ltNum a b = true)) ∧
  Claims.Compare .vxVcleF32 (Claims.Ordered (fun a b => ltNum b a = false)) ∧
  Claims.Compare .vxVcunF32 (fun a b => (read32 a).isNan = true ∨ (read32 b).isNan = true) ∧
  Claims.MaskOp .vxMand (fun a b => a &&& b) ∧ Claims.MaskOp .vxMor (fun a b => a ||| b) ∧
  Claims.MaskOp .vxMxor (fun a b => a ^^^ b) ∧ Claims.MaskOp .vxMandn (fun a b => a &&& ~~~b) ∧
  (∀ (gd : Guard) (x : Src) (s : State), let d := s.src x
    s.guardOn gd = true → vxBad { d := true } d = false → fld d 4 0 < 8 → Claims.Power s 1 →
    exec (.vxMset gd x) s = .next ((Claims.drawn s 1).launchOp 1 (.mask (fld d 4 0) (s.opd .vxo)))) ∧
  Claims.MaskRead .vxMget (fun a r => r = a) ∧
  Claims.MaskRead .vxMpopc (fun a r => r.toNat = ((List.range 64).filter (fun i => a.getLsbD i)).length) ∧
  Claims.MaskRead .vxMfirst (fun a r => (a = 0 → r = 64) ∧ (a ≠ 0 → a.getLsbD r.toNat = true ∧ ∀ i < r.toNat, a.getLsbD i = false)) ∧
  Claims.Vote .vxVany (fun s d a v => v = true ↔ ∃ j < 64, Claims.selected s d j ∧ a.getLsbD j = true) ∧
  Claims.Vote .vxVall (fun s d a v => v = true ↔ ∀ j < 64, Claims.selected s d j → a.getLsbD j = true)

namespace Sys2Proof.Machine.Claims

open Sys2Proof Sys2Proof.Machine

/-- The selected lanes of va, in order. -/
def chosen (s : State) (d : Word) : List (BitVec 32) :=
  ((List.range 64).filter (fun j => !bit d.toNat 23 || bit (s.readM (fld d 22 20)).toNat j)).map (opA s d)

/-- A reduction into `vx.r` completes (R244). -/
def Reduce (f : Guard → Src → Instr) (L : Nat) (P : List (BitVec 32) → Word → Prop) : Prop := ∀ (gd : Guard) (x : Src) (s : State),
  s.guardOn gd = true → vxBad { a := true, m := true } (s.src x) = false → Power s 1 → ∃ r,
    exec (f gd x) s = .next ((drawn s 1).launchOp L (.res .vxr r)) ∧ P (chosen s (s.src x)) r

/-- The least number of a list by a value, or a start for the empty one. -/
def Least (v : BitVec 32 → Int) (start : Int) (l : List (BitVec 32)) (r : Int) : Prop :=
  (l = [] → r = start) ∧ (l ≠ [] → (∃ a ∈ l, r = v a) ∧ ∀ a ∈ l, r ≤ v a)

/-- The greatest number of a list by a value, or a start for the empty one. -/
def Greatest (v : BitVec 32 → Int) (start : Int) (l : List (BitVec 32)) (r : Int) : Prop :=
  (l = [] → r = start) ∧ (l ≠ [] → (∃ a ∈ l, r = v a) ∧ ∀ a ∈ l, v a ≤ r)

/-- One element of a conversion: rounded, and under saturation the largest finite number where an infinity would be given (R242). -/
def converted (fd : Fmt) (mode : Nat) (sat : Bool) (x : Val) : Nat × Flags :=
  let r := round fd mode x
  if sat = true ∧ x.isNan = false ∧ r.1 = fd.signed x.neg fd.infCode then (fd.signed x.neg fd.maxCode, r.2 ||| fOverflow) else r

/-- A conversion of 64 elements completes (R242); `k` scales them. -/
def Convert (f : Guard → Src → Instr) (k : State → Int) : Prop := ∀ (gd : Guard) (x : Src) (s : State) (fs fd : Fmt),
  let d := s.src x
  s.guardOn gd = true → vxBad { d := true, a := true, c := true, m := true, z := true, r := true, xf := true } d = false →
  Fmt.ofCode (fld d 31 28) = some fs → Fmt.ofCode (fld d 35 32) = some fd → fld d 19 15 < 8 →
  64 * (fld d 19 15 + 1) * fs.width ≤ 2048 → 64 * (fld d 38 36 + 1) * fd.width ≤ 2048 →
  (bit d.toNat 39 = true → fd.hasInf = true) → Power s 1 → ∃ v fl,
    exec (f gd x) s = .next (((drawn s 1).launchOp 3 (.vec (physV s.b.r.rrb (fld d 4 0)) (BitVec.allOnes 64) v)).launchOp 3 (.flags fl)) ∧
    let y := fun j => converted fd (fld d 27 26) (bit d.toNat 39)
      ((fs.read (elem (s.readV (fld d 9 5)).toNat fs.width (64 * fld d 19 15 + j))).scale (k s))
    (∀ j < 64, selected s d j → elem v.toNat fd.width (64 * fld d 38 36 + j) = (y j).1) ∧
    (∀ i, fl.getLsbD i = true ↔ ∃ j < 64, selected s d j ∧ (y j).2.getLsbD i = true) ∧
    (∀ j < 64, ¬ selected s d j → elem v.toNat fd.width (64 * fld d 38 36 + j) =
      if bit d.toNat 24 then 0 else elem (s.readV (fld d 4 0)).toNat fd.width (64 * fld d 38 36 + j)) ∧
    ∀ i, (i < fd.width * (64 * fld d 38 36) ∨ fd.width * (64 * (fld d 38 36 + 1)) ≤ i) →
      v.getLsbD i = (s.readV (fld d 4 0)).getLsbD i

end Sys2Proof.Machine.Claims

/-- R243, R246: moves of whole lanes, index vectors and random bits. That `vzip.lo` and `vzip.hi` take the scalar operand in vb's
place is the model's choice (log 93).
R242, R244, R245: conversions, reductions and the group dot product. -/
def Obligations.VectorMovesReductionsAndDots : Prop :=
  (Claims.Lanes .vxVmov { d := true, a := true, m := true, z := true } 2 (fun s d j r => r = Claims.opA s d j) ∧
  Claims.Lanes .vxVbcast { d := true, m := true, z := true } 2 (fun s _ _ r => r = (s.opd .vxo).truncate 32) ∧
  Claims.Lanes .vxVperm { d := true, a := true, b := true, m := true, z := true } 2
    (fun s d j r => r = Claims.opA s d ((Claims.opB s d j).toNat % 64)) ∧
  Claims.Lanes .vxVzipLo { d := true, a := true, b := true, sb := true, m := true, z := true } 2
    (fun s d j r => r = if j % 2 = 0 then Claims.opA s d (j / 2) else Claims.opB s d (j / 2)) ∧
  Claims.Lanes .vxVzipHi { d := true, a := true, b := true, sb := true, m := true, z := true } 2
    (fun s d j r => r = if j % 2 = 0 then Claims.opA s d (32 + j / 2) else Claims.opB s d (32 + j / 2)) ∧
  Claims.Lanes .vxViota { d := true, m := true, z := true } 2
    (fun s _ j r => r.toNat = ((s.opd .vxo).toNat % 2 ^ 32 + j) % 2 ^ 32) ∧
  Claims.Lanes .vxRnd32 { d := true, a := true, b := true, m := true, z := true } 4 (fun s d j r =>
    r = BitVec.ofNat 32 (rnd32 (s.opd .vxo).toNat ((Claims.opA s d j).toNat + 2 ^ 32 * (Claims.opB s d j).toNat))) ∧
  (∀ (gd : Guard) (x : Src) (s : State), let d := s.src x
    s.guardOn gd = true → Claims.Power s 1 →
    (vxBad { d := true, xf := true } d = false → fld d 39 34 = 0 → ∃ v, exec (.vxVins gd x) s =
      .next ((Claims.drawn s 1).launchOp 2 (.vec (physV s.b.r.rrb (fld d 4 0)) (BitVec.allOnes 64) v)) ∧
      ∀ j < 64, lane v j = if j = fld d 33 28 then (s.opd .vxo).truncate 32 else Claims.oldD s d j) ∧
    (vxBad { a := true, xf := true } d = false → fld d 39 34 = 0 → exec (.vxVext gd x) s =
      .next ((Claims.drawn s 1).launchOp 2 (.res .vxr ((Claims.opA s d (fld d 33 28)).zeroExtend 64)))) ∧
    (vxBad { d := true, a := true, m := true, z := true, xf := true } d = false → fld d 39 34 = 0 → ∃ v, exec (.vxVrot gd x) s =
      .next ((Claims.drawn s 1).launchOp 2 (.vec (physV s.b.r.rrb (fld d 4 0)) (BitVec.allOnes 64) v)) ∧
      ∀ j < 64, (Claims.selected s d j → lane v j = Claims.opA s d ((j + fld d 33 28) % 64)) ∧
        (¬ Claims.selected s d j → lane v j = if bit d.toNat 24 then 0 else Claims.oldD s d j)) ∧
    (vxBad { d := true, a := true, m := true } d = false → bit d.toNat 23 = true → ∃ v, exec (.vxVcomp gd x) s =
      .next ((Claims.drawn s 1).launchOp 2 (.vec (physV s.b.r.rrb (fld d 4 0)) (BitVec.allOnes 64) v)) ∧
      (List.range 64).map (lane v) =
        let l := ((List.range 64).filter (fun j => bit (s.readM (fld d 22 20)).toNat j)).map (Claims.opA s d)
        l ++ List.replicate (64 - l.length) 0))) ∧
  (Claims.Convert .vxVcvt (fun _ => 0) ∧
  Claims.Convert .vxVcvtSc (fun s => ((s.opd .vxo).truncate 9 : BitVec 9).toInt) ∧
  Claims.Reduce .vxVraddI32 4 (fun l r => r.toInt = (l.map BitVec.toInt).sum) ∧
  Claims.Reduce .vxVrminI32 4 (fun l r => Claims.Least BitVec.toInt (2 ^ 31 - 1) l r.toInt) ∧
  Claims.Reduce .vxVrmaxI32 4 (fun l r => Claims.Greatest BitVec.toInt (-2 ^ 31) l r.toInt) ∧
  Claims.Reduce .vxVrminuI32 4 (fun l r => Claims.Least (fun a => a.toNat) (2 ^ 32 - 1) l r.toNat) ∧
  Claims.Reduce .vxVrmaxuI32 4 (fun l r => Claims.Greatest (fun a => a.toNat) 0 l r.toNat) ∧
  Claims.Reduce .vxVrminF32 6 (fun l r => (l = [] → r = 0x7F800000) ∧ ((∃ a ∈ l, (read32 a).isNan = true) → r = 0x7FC00000) ∧
    (l ≠ [] → (∀ a ∈ l, (read32 a).isNan = false) →
      (∃ a ∈ l, r = a.zeroExtend 64) ∧ ∀ a ∈ l, beforeNum (read32 a) (read32 (r.truncate 32)) = false)) ∧
  Claims.Reduce .vxVrmaxF32 6 (fun l r => (l = [] → r = 0xFF800000) ∧ ((∃ a ∈ l, (read32 a).isNan = true) → r = 0x7FC00000) ∧
    (l ≠ [] → (∀ a ∈ l, (read32 a).isNan = false) →
      (∃ a ∈ l, r = a.zeroExtend 64) ∧ ∀ a ∈ l, beforeNum (read32 (r.truncate 32)) (read32 a) = false)) ∧
  (∀ (gd : Guard) (x : Src) (s : State), let d := s.src x
    s.guardOn gd = true → Claims.Power s 1 →
    (vxBad { a := true, m := true, r := true } d = false →
      let e := sumNum ((Claims.chosen s d).map read32)
      exec (.vxVraddF32 gd x) s = .next (((Claims.drawn s 1).launchOp 6
        (.res .vxr ((round32 (fld d 27 26) e.1).1.zeroExtend 64))).launchOp 6 (.flags (e.2 ||| (round32 (fld d 27 26) e.1).2)))) ∧
    (∀ f, vxBad { d := true, a := true, b := true, c := true, m := true, z := true, r := true, xf := true } d = false →
      fld d 39 32 = 0 → 2 ≤ fld d 31 28 → fld d 31 28 ≤ 8 → Fmt.ofCode (fld d 31 28) = some f → ∃ v fl, exec (.vxVdotG16 gd x) s =
        .next (((Claims.drawn s 1).launchOp 6 (.vec (physV s.b.r.rrb (fld d 4 0)) (BitVec.allOnes 64) v)).launchOp 6 (.flags fl)) ∧
      let G := min 64 (2048 / (16 * f.width))
      let S := fun g => groupSum (bodyBits f f) (f.planes.getD 0) ((List.range 16).map (fun i =>
        (f.read (elem (s.readV (fld d 9 5)).toNat f.width (16 * g + i)),
          f.read (elem (s.readV (fld d 14 10)).toNat f.width (16 * g + i)))))
      let y := fun g => addNum (read32 (Claims.opC s d g)) (S g).1
      let r := fun g => round32 (fld d 27 26) (y g).1
      (∀ i, fl.getLsbD i = true ↔ ∃ g < G, Claims.selected s d g ∧ ((S g).2 ||| (y g).2 ||| (r g).2).getLsbD i = true) ∧
      ∀ g < 64, (G ≤ g → lane v g = Claims.oldD s d g) ∧
        (g < G → Claims.selected s d g → lane v g = (r g).1) ∧
        (g < G → ¬ Claims.selected s d g → lane v g = if bit d.toNat 24 then 0 else Claims.oldD s d g))))

namespace Sys2Proof.Machine.Claims

open Sys2Proof Sys2Proof.Machine

/-- Fields d, a, b with the scalar operand, m. -/
def useDABM : VUse := { d := true, a := true, b := true, sb := true, m := true }
/-- Fields d, a and m, with zeroing. -/
def useDAMZ : VUse := { d := true, a := true, m := true, z := true }

/-- Whether the formats, parts and saturation of a conversion are outside R242. -/
def ConvertBad (d : Word) : Prop :=
  ¬ ∃ fs fd, Fmt.ofCode (fld d 31 28) = some fs ∧ Fmt.ofCode (fld d 35 32) = some fd ∧ fld d 19 15 < 8 ∧
    64 * (fld d 19 15 + 1) * fs.width ≤ 2048 ∧ 64 * (fld d 38 36 + 1) * fd.width ≤ 2048 ∧ (bit d.toNat 39 = true → fd.hasInf = true)

/-- Operations that use the same fields and may not name the same things. -/
def alike (u : VUse) (bad : Prop) (l : List Instr) : List (Instr × VUse × Prop) := l.map (fun i => (i, u, bad))

/-- The integer operations and the choices of two lanes, the compares, and the reductions (R236, R237, R239, R243, R244). -/
def vectorSlots (gd : Guard) (x : Src) (d : Word) : List (Instr × VUse × Prop) := List.flatten [
  alike { useDABM with z := true } False [.vxVaddI32 gd x, .vxVsubI32 gd x, .vxVaddsI32 gd x, .vxVsubsI32 gd x, .vxVaddsuI32 gd x,
    .vxVsubsuI32 gd x, .vxVmulI32 gd x, .vxVmulhI32 gd x, .vxVminI32 gd x, .vxVmaxI32 gd x, .vxVminuI32 gd x, .vxVmaxuI32 gd x,
    .vxVand gd x, .vxVor gd x, .vxVxor gd x, .vxVshl gd x, .vxVshr gd x, .vxVsar gd x, .vxVminF32 gd x, .vxVmaxF32 gd x,
    .vxVzipLo gd x, .vxVzipHi gd x],
  alike useDABM (8 ≤ fld d 4 0) [.vxVceqI32 gd x, .vxVcltI32 gd x, .vxVcleI32 gd x, .vxVcltuI32 gd x, .vxVcleuI32 gd x,
    .vxVceqF32 gd x, .vxVcltF32 gd x, .vxVcleF32 gd x, .vxVcunF32 gd x],
  alike useDABM (bit d.toNat 23 = true) [.vxVsel gd x],
  alike { a := true, m := true } False [.vxVraddI32 gd x, .vxVrminI32 gd x, .vxVrmaxI32 gd x, .vxVrminuI32 gd x, .vxVrmaxuI32 gd x,
    .vxVrminF32 gd x, .vxVrmaxF32 gd x],
  alike { a := true, m := true, r := true } False [.vxVraddF32 gd x]]

/-- The floating operations, conversions and the group dot product (R237, R238, R242, R245). -/
def floatSlots (gd : Guard) (x : Src) (d : Word) : List (Instr × VUse × Prop) := List.flatten [
  alike useDABMR False [.vxVaddF32 gd x, .vxVsubF32 gd x, .vxVmulF32 gd x, .vxVdivF32 gd x],
  alike { useDABMR with c := true } False [.vxVfmaF32 gd x, .vxVfmsF32 gd x],
  alike useDAMR False [.vxVsqrtF32 gd x, .vxVexp2F32 gd x, .vxVlog2F32 gd x, .vxVtanhF32 gd x],
  alike useDAMZ False [.vxVabsF32 gd x, .vxVnegF32 gd x, .vxVrcpeF32 gd x, .vxVrsqrteF32 gd x],
  alike { useDAMZ with c := true, r := true, xf := true } (ConvertBad d) [.vxVcvt gd x, .vxVcvtSc gd x],
  alike { useDAMZ with b := true, c := true, r := true, xf := true } (fld d 39 32 ≠ 0 ∨ fld d 31 28 < 2 ∨ 8 < fld d 31 28)
    [.vxVdotG16 gd x]]

/-- The mask operations, votes and moves of lanes (R240, R241, R243, R246). -/
def moveSlots (gd : Guard) (x : Src) (d : Word) : List (Instr × VUse × Prop) := List.flatten [
  alike { d := true, a := true, b := true } (8 ≤ fld d 4 0 ∨ 8 ≤ fld d 9 5 ∨ 8 ≤ fld d 14 10)
    [.vxMand gd x, .vxMor gd x, .vxMxor gd x, .vxMandn gd x],
  alike { a := true } (8 ≤ fld d 9 5) [.vxMget gd x, .vxMpopc gd x, .vxMfirst gd x],
  alike { d := true } (8 ≤ fld d 4 0) [.vxMset gd x],
  alike { d := true, a := true, m := true } (fld d 4 0 = 0 ∨ 6 < fld d 4 0 ∨ 8 ≤ fld d 9 5) [.vxVany gd x, .vxVall gd x],
  alike useDAMZ False [.vxVmov gd x],
  alike { useDAMZ with b := true } False [.vxVperm gd x, .vxRnd32 gd x],
  alike { d := true, m := true, z := true } False [.vxVbcast gd x, .vxViota gd x],
  alike { d := true, xf := true } (fld d 39 34 ≠ 0) [.vxVins gd x],
  alike { a := true, xf := true } (fld d 39 34 ≠ 0) [.vxVext gd x],
  alike { useDAMZ with xf := true } (fld d 39 34 ≠ 0) [.vxVrot gd x],
  alike { d := true, a := true, m := true } (bit d.toNat 23 = false) [.vxVcomp gd x]]

/-- A vector operation's checks: its descriptor, then the class held (R230, R402). -/
def VectorChecks (x : Src) (s : State) (p : Instr × VUse × Prop) : Prop :=
  (vxBad p.2.1 (s.src x) = true ∨ p.2.2 → exec p.1 s = .next (s.illegal 2)) ∧
  (vxBad p.2.1 (s.src x) = false → ¬ p.2.2 → s.b.cls = some 0 → s.b.iss.go = false → exec p.1 s = .next (s.overdraw 0))

end Sys2Proof.Machine.Claims

/-- R199, R200: a local load or store whose address or vector descriptor has a reserved bit set, or names the reserved space, is
illegal operation 0x2. One past the end of its space is the same cause found by the operation's own limit (R450), and then a
misaligned one takes the alignment trap with its address.
R142: a local load that meets words of arrays 0x01 to 0x04 known to be poisoned takes the poisoned-data trap for the first of
them, and no register is written. `svld` meets the words of the lanes it selects.
R199, R200, R203, R209, R226: the checks of the device loads, the device stores, the atomics and `rst.d`.
R229, R230, R402: a vector descriptor with a field that its operation does not use, or with an index or format that it does not
allow, is illegal operation 0x2. A vector operation of a task that holds class C0 takes the over-draw trap, which names the class
held. -/
def Obligations.SlotChecksTrap : Prop :=
  (∀ (gd : Guard) (x : Src) (s : State), s.guardOn gd = true →
  ∀ p ∈ Claims.localSlots gd x,
    let a := s.src x; let d := s.opd .lsa; let n := p.2.1
    let bad := fld a 63 22 ≠ 0 ∨ fld a 21 20 = 3 ∨ (p.2.2 = true ∧ (fld d 63 20 ≠ 0 ∨ bit d.toNat 5 = true))
    (bad → exec p.1 s = .next (s.illegal 2)) ∧
    (¬ bad → spaceSize (fld a 21 20) < fld a 19 0 + n → exec p.1 s = .next s.beyond) ∧
    (¬ bad → fld a 19 0 + n ≤ spaceSize (fld a 21 20) → a.toNat % n ≠ 0 → exec p.1 s = .next (s.misaligned a n))) ∧
  (∀ (gd : Guard) (x : Src) (s : State),
  let a := s.src x; let d := s.opd .lsa; let sp := fld a 21 20; let off := fld a 19 0
  let bad := fun w => (sp, w) ∈ s.b.lpois
  s.guardOn gd = true → s.b.ecc = [] →
  (∀ p ∈ [(Instr.lsSldB gd x, 1), (.lsSldBu gd x, 1), (.lsSldH gd x, 2), (.lsSldHu gd x, 2), (.lsSldW gd x, 4),
      (.lsSldWu gd x, 4), (.lsSldD gd x, 8)],
    Claims.LocalAddr a p.2 → s.b.hullHit sp off p.2 = false → s.b.mxHoldsLoad sp off p.2 = false →
    ∀ j < p.2, bad (Claims.wordAt sp (off + j)) → (∀ i < j, ¬ bad (Claims.wordAt sp (off + i))) →
      exec p.1 s = .next (s.poisonedLocal sp (Claims.wordAt sp (off + j)))) ∧
  (Claims.LocalAddr a 256 → fld d 63 20 = 0 → bit d.toNat 5 = false → s.b.hullHit sp off 256 = false →
    s.b.mxHoldsLoad sp off 256 = false →
    let on := fun j => bit d.toNat 9 = false ∨ bit (s.readM (fld d 8 6)).toNat j = true
    ∀ j < 64, on j → bad (Claims.wordAt sp (off + 4 * j)) →
      (∀ i < j, on i → ¬ bad (Claims.wordAt sp (off + 4 * i))) →
      exec (.lsSvld gd x) s = .next (s.poisonedLocal sp (Claims.wordAt sp (off + 4 * j))))) ∧
  (∀ (gd : Guard) (x : Src) (s : State), s.guardOn gd = true →
  let d := s.opd .lsa
  let res := fld d 63 20 ≠ 0
  let scope := 4 < fld d 19 17
  (∀ p ∈ [(Instr.lsLdB gd x, 1), (.lsLdBu gd x, 1), (.lsLdH gd x, 2), (.lsLdHu gd x, 2), (.lsLdW gd x, 4), (.lsLdWu gd x, 4),
      (.lsLdD gd x, 8)], Claims.Checks p.1 x s res False p.2) ∧
  Claims.Checks (.lsLdQ gd x) x s (res ∨ bit d.toNat 0 = true) False 16 ∧
  Claims.Checks (.lsVld gd x) x s (res ∨ bit d.toNat 5 = true) False 256 ∧
  Claims.Checks (.lsLdWAcq gd x) x s (res ∨ scope) True 4 ∧ Claims.Checks (.lsLdDAcq gd x) x s (res ∨ scope) True 8 ∧
  (∀ p ∈ [(Instr.lsStB gd x, 1), (.lsStH gd x, 2), (.lsStW gd x, 4), (.lsStD gd x, 8), (.lsStQ gd x, 16)],
    Claims.Checks p.1 x s False False p.2) ∧
  Claims.Checks (.lsVst gd x) x s (res ∨ bit d.toNat 5 = true) False 256 ∧
  Claims.Checks (.lsStWRel gd x) x s (res ∨ scope) True 4 ∧ Claims.Checks (.lsStDRel gd x) x s (res ∨ scope) True 8 ∧
  (∀ p ∈ Claims.atomics gd x, Claims.Checks p.1 x s
    (res ∨ 4 < fld d 16 14 ∨ (fld d 16 14 ≠ 0 ∧ scope) ∨ (p.2.1 = true ∧ bit d.toNat 13 = true))
    (fld d 16 14 ≠ 0 ∨ (p.2.1 = true ∧ p.2.2 = true)) (if bit d.toNat 13 then 8 else 4)) ∧
  (let a := s.src x
   let bad := fld a 63 40 ≠ 0 ∨ fld a 29 22 ≠ 0 ∨ fld a 21 20 = 3
   let out := s.inService (fld a 39 30) = false ∨ spaceSize (fld a 21 20) < fld a 19 0 + 8
   (¬ bad → out → exec (.lsRstD gd x) s = .next s.beyond) ∧
   (bad → exec (.lsRstD gd x) s = .next (s.illegal 2)) ∧
   (¬ bad → ¬ out → s.isDet = true → exec (.lsRstD gd x) s = .next (s.illegal 6)) ∧
   (¬ bad → ¬ out → s.isDet = false → a.toNat % 8 ≠ 0 → exec (.lsRstD gd x) s = .next (s.misaligned a 8)))) ∧
  (∀ (gd : Guard) (x : Src) (s : State), s.guardOn gd = true →
  (∀ p ∈ Claims.vectorSlots gd x (s.src x), Claims.VectorChecks x s p) ∧
  (∀ p ∈ Claims.floatSlots gd x (s.src x), Claims.VectorChecks x s p) ∧
  (∀ p ∈ Claims.moveSlots gd x (s.src x), Claims.VectorChecks x s p))


/-! ## The matrix unit's triggers (R249, R250, R260 to R271, R278 to R280) -/

namespace Sys2Proof.Machine.Claims

open Sys2Proof Sys2Proof.Machine

/-- A matrix operation completes at its trigger: it joins the queue with what its trigger read, and begins at once where nothing is
queued ahead; it is counted in `cnt.mx`. -/
def Matrix (f : Guard → Src → Instr) (code : MxCode) (bad : Word → Word → Word → Bool) (aligned : Word → Prop)
    (cls : Word → Word → Word → Nat) : Prop := ∀ (gd : Guard) (x : Src) (s : State),
  let d := s.src x
  let p := s.opd .mxpcw
  let o := s.opd .mxo
  s.guardOn gd = true → pcwOk p = true → bad d p o = false → aligned o → Power s (cls d p o) → s.b.cnt.mx < 65535 →
  s.b.mxq.length < 4 → (bit p.toNat 20 = true → ∀ op ∈ s.b.mxq, bit op.pcw.toNat 20 = true) →
  ∃ (t : State) (op : MxOp), exec (f gd x) s = .next t ∧ t.b.mxq = s.b.mxq ++ [op] ∧
    op.code = code ∧ op.desc = d ∧ op.pcw = p ∧ op.o = o ∧ op.tid = s.b.t.tid ∧ op.ctx = s.b.t.ctx ∧
    op.snap = (if s.b.mxq = [] then some s.b.loc else none) ∧ op.elapsed = 0 ∧ op.col = 0 ∧
    t.b.iss.wr = s.b.iss.wr ++ [.cnt .mx] ∧ t.b.loc = s.b.loc ∧ t.b.r = s.b.r ∧ (∀ a, t.readPhys a 1 = s.readPhys a 1)

/-- A product's power class by half its plane limit: C2 for four plane pairs, C3 for three, C4 below (R399). -/
def productClass (P : Prod) : Nat := if P.p ≤ 2 then 4 else if P.p ≤ 4 then 3 else 2

/-- A product completes at its trigger; a device one's second operand is a multiple of 4. -/
def Product (f : Guard → Src → Instr) (code : MxCode) (dev : Bool) : Prop :=
  Matrix f code (fun d p o => (Prod.ofOp code d p o).bad d o) (fun o => dev = true → o.toNat % 4 = 0)
    (fun d p o => productClass (Prod.ofOp code d p o))

end Sys2Proof.Machine.Claims

/-- R249, R260 to R271, R278 to R280, R399: the queued matrix operations, and `stat`, which is never queued. -/
def Obligations.MatrixTriggersQueue : Prop :=
  Claims.Product .mxMm .mm false ∧ Claims.Product .mxMmT .mmT false ∧ Claims.Product .mxMmc .mmc false ∧
  Claims.Product .mxMms .mms true ∧ Claims.Product .mxMmsT .mmsT true ∧ Claims.Product .mxMmcs .mmcs true ∧
  Claims.Matrix .mxCclr .cclr (fun d _ _ => regionBad d) (fun _ => True) (fun _ _ _ => 1) ∧
  Claims.Matrix .mxCacc .cacc (fun d _ _ => regionBad d) (fun _ => True) (fun _ _ _ => 1) ∧
  Claims.Matrix .mxCscl .cscl (fun d _ _ => regionBad d) (fun o => fld o 63 9 = 0) (fun _ _ _ => 1) ∧
  Claims.Matrix .mxDrain .drain (fun d p _ => (Drain.ofOp .drain d p).bad d) (fun _ => True) (fun _ _ _ => 1) ∧
  Claims.Matrix .mxDrainq .drainq (fun d p _ => (Drain.ofOp .drainq d p).bad d) (fun _ => True) (fun _ _ _ => 1) ∧
  (∀ (gd : Guard) (x : Src) (s : State), s.guardOn gd = true →
    (s.src x = 0 → exec (.mxStat gd x) s = .next (s.defer .stat)) ∧
    (s.src x ≠ 0 → exec (.mxStat gd x) s = .next (s.illegal 2)))

/-! ## Waits and the ends of a run (R189 to R196) -/

/-- R189, R191 to R193, R449: a wait that is met does nothing, one that is not stalls its bundle, and a pending report that it
covers traps outside a handler; `exit`, `yield` and `susp` end the task's run with their bundle, and a handler may not use the last
two.
R194 to R196, R309, R334: a task that exits is off its brick, and its exit waits to be reported; one that yields leaves its
continuation, registers g0 to g3 and the state Ready in its record, which is made ready with that; one that suspends with a
dependence leaves the state Suspended, and one that suspends with none yields. Both leave a release marker at system scope in their
store path. That the dome writes a record through its read translation is the model's reading (log 22). -/
def Obligations.WaitsAndLeavings : Prop :=
  (∀ (gd : Guard) (x : Src) (s : State), s.guardOn gd = true →
  (s.b.y.inh = true → ∀ op ∈ s.b.mxq, op.frozen = false) →
  (∀ c, fld (s.src x) 63 34 = 0 → c = [Ctr.ld, .st, .cp, .mx].getD (fld (s.src x) 33 32) .ld →
    ((s.b.y.inh = true ∨ ∀ r ∈ s.b.reports, r.ctr ≠ c) →
      (s.b.cnt.get c ≤ fld (s.src x) 31 0 → exec (.syWait gd x) s = .next s) ∧
      (fld (s.src x) 31 0 < s.b.cnt.get c → s.b.iss.go = false → exec (.syWait gd x) s = .next (s.stallFor .countedWait
        (2 ^ 32 * fld (s.src x) 33 32 + min (fld (s.src x) 31 0) 65535) false ((s.opd .syo).truncate 32)))) ∧
    (∀ l r m, s.b.reports = l ++ r :: m → (∀ q ∈ l, q.ctr ≠ c) → r.ctr = c → s.b.y.inh = false → s.b.iss.go = false →
      exec (.syWait gd x) s = .next ((s.onB (fun b => { b with reports := l ++ m })).raise 5 r.tr))) ∧
  (s.src x = 0 → (s.b.y.inh = true ∨ s.b.reports = []) → s.b.cnt = ⟨0, 0, 0, 0⟩ → exec (.syWaitall gd x) s = .next s) ∧
  (s.src x = 0 → exec (.syExit gd x) s = .next (s.onIss (fun i => { i with leave := some .exit }))) ∧
  (fld (s.src x) 63 32 = 0 → s.b.y.inh = false →
    exec (.syYield gd x) s = .next (s.onIss (fun i => { i with leave := some (.yield ((s.src x).truncate 32)) })) ∧
    exec (.sySusp gd x) s = .next (s.onIss (fun i => { i with leave := some (.susp ((s.src x).truncate 32)) }))) ∧
  (fld (s.src x) 63 32 = 0 → s.b.y.inh = true →
    exec (.syYield gd x) s = .next (s.illegal 0xB) ∧ exec (.sySusp gd x) s = .next (s.illegal 0xB))) ∧
  (∀ s : State,
  (s.exitTask.b.running = false ∧ s.exitTask.exits = s.exits ++ [⟨s.b.capture, s.b.bid, s.b.pc, s.b.cbi, s.b.r.lp.isSome, s.b.r.br.xfer.isSome⟩] ∧
    s.exitTask.b.r.g = s.b.r.g ∧ s.exitTask.b.loc = s.b.loc ∧ s.exitTask.b.cls = none ∧ s.exitTask.b.spq = [] ∧
    ∀ op ∈ s.exitTask.b.dev, op.tid = s.b.t.tid → op.dst = .none) ∧
  ∀ (c : BitVec 32) (pa r : Nat), s.recAt s.b.t.ctx s.b.t.recVa = some (pa, r) → recState r = 3 → s.upset = none → s.img = [] →
    let w := recLeave r s.b c.toNat 2 0 0
    let marked := fun (u : State) => ∃ op ∈ u.b.dev, op.kind = .marker ∧ op.tid = s.b.t.tid ∧ op.rel = true ∧ op.scope = 4 ∧ op.id = s.b.nextId
    (∃ u : State, s.yieldTask c = u.makeReady s.placeRelease.b.capture (towerOf s.b.bid) (quadOf s.b.bid) ∧
      u.mem = writeBytes s.mem pa (toBytes 64 w) ∧ u.b.running = false ∧ marked u) ∧
    (recDep r = 0 → s.suspTask c = s.yieldTask c) ∧
    (s.yieldTask c).b.running = false ∧ recState w = 2 ∧ recPc w = c.toNat ∧ recReason w = 0 ∧ recPrio w = s.b.t.prio % 4 ∧
      bits w 319 256 = (vget 0 s.b.r.g 0).toNat ∧ bits w 383 320 = (vget 0 s.b.r.g 1).toNat ∧
      bits w 447 384 = (vget 0 s.b.r.g 2).toNat ∧ bits w 511 448 = (vget 0 s.b.r.g 3).toNat ∧ recDep w = recDep r ∧
      recTeam w = recTeam r ∧ recFrame w = recFrame r ∧
    (recDep r ≠ 0 → (s.suspTask c).b.running = false ∧
      (s.suspTask c).mem = writeBytes s.mem pa (toBytes 64 (recLeave r s.b c.toNat 4 1 0)) ∧ marked (s.suspTask c)))

/-! ## Synchronisation (R219 to R226) -/

/-- R220 to R223, R225, R346: wake tokens, arming comparators, fences, which discard what their paths have buffered for the context,
phases and barrier arrivals. A barrier operation advances the
task's phase and is counted in `cnt.st`; after `bar` the next bundle waits for that barrier. -/
def Obligations.Synchronisation : Prop := ∀ (gd : Guard) (x : Src) (s : State), s.guardOn gd = true →
  (s.src x = 0 → s.isDet = false → ∀ t rest, s.b.y.wakeQ = t :: rest →
    exec (.syWtok gd x) s = .next ((s.onY (fun y => { y with wakeQ := rest }.refill)).launchOp 1 (.res .syr t))) ∧
  (fld (s.src x) 63 32 = 0 → s.isDet = false → s.cls = 2 →
    ((∃ c < 4, bit (vget 0 s.b.y.arm c).toNat 23 = true ∧ bit (vget 0 s.b.y.arm c).toNat 22 = true) ∨ s.b.armTimedOut = true) →
    ∃ h, exec (.syArmw gd x) s =
        .next ((s.onB (fun b => { b with y := b.y.clearHits, armTimedOut := false })).launchOp 1 (.res .syr h)) ∧
      (∀ c < 4, h.getLsbD c = (bit (vget 0 s.b.y.arm c).toNat 23 && bit (vget 0 s.b.y.arm c).toNat 22)) ∧ h.toNat < 16) ∧
  (fld (s.src x) 63 6 = 0 → 2 ≤ popcount 6 (fld (s.src x) 5 0) → s.b.cnt = ⟨0, 0, 0, 0⟩ → s.b.push = [] →
    (∀ op ∈ s.b.dev, op.isParked = false) →
    let u : State := { s with bufs := s.bufs.filter (fun b => !(b.ctx == s.b.t.ctx && bit (fld (s.src x) 5 0) b.path)) }
    exec (.syFencex gd x) s = .next (if bit (fld (s.src x) 5 0) 0 then
      u.onB (fun b => { b with snap := [], dev := b.dev.map (fun op => { op with fill := false }) }) else u)) ∧
  ((s.src x).toNat ≤ 4 → exec (.syPhase gd x) s =
    .next ((s.place { DevOp.basic .marker 0 0 with rel := true, scope := (s.src x).toNat }).onB (fun b =>
      { b with snap := [], dev := b.dev.map (fun op => { op with fill := false }) }))) ∧
  (fld (s.src x) 63 11 = 0 → fld (s.src x) 10 8 ≤ 4 → s.b.t.bar ≠ 0 → s.b.cnt.st < 65535 →
    let i := fld (s.src x) 7 0
    let after := fun (kind : Nat) => ((s.defer (.cnt .st)).place { DevOp.basic (.bar kind i s.b.t.bar) (s.b.t.bar + 16 + 16 * i) 16
      with rel := true, scope := fld (s.src x) 10 8 }).onB (fun b => { b with phase := (b.phase + 1) % 2 ^ 32 })
    exec (.syBar gd x) s = .next ((after 0).onB (fun b =>
      { b with barWait := some ⟨s.b.t.bar + 16 + 16 * i, i, none, false, (s.opd .syo).truncate 32⟩ })) ∧
    exec (.syArrive gd x) s = .next (after 1) ∧ exec (.syBleave gd x) s = .next (after 2))

/-! ## Task operations, system registers and traps (R347 to R354, R371 to R384) -/

/-- R347 to R353: the task operations on records are placed as accesses of 64 bytes, releasing but for `tinc`, and `tread` reads one
doubleword of a record; `tself`, `tteam` and `tprio` answer from the brick. -/
def Obligations.TaskOperations : Prop := ∀ (gd : Guard) (x : Src) (s : State), s.guardOn gd = true →
  (s.isDet = false → (s.src x).toNat % 64 = 0 → Claims.ReplayRoom s (s.src x).toNat → s.b.cnt.st < 65535 →
    ∀ p ∈ [(Instr.syTspawn gd x, DevKind.tspawn, true), (.syTdec gd x, .tdec, true),
        (.syTinc gd x, .tinc (fld (s.opd .syo) 15 0), false), (.syTkill gd x, .tkill (bit (s.opd .syo).toNat 0), true)],
      exec p.1 s = .next ((s.defer (.cnt .st)).place { DevOp.basic p.2.1 (s.src x).toNat 64 with rel := p.2.2, scope := 4 })) ∧
  (s.isDet = false → (s.src x).toNat % 64 = 0 → s.b.cnt.ld < 65535 → exec (.syTread gd x) s =
    .next ((s.defer (.cnt .ld)).place { DevOp.basic .tread ((s.src x).toNat + 8 * fld (s.opd .syo) 8 6) 8 with
      dst := Claims.gDest s (s.opd .syo) })) ∧
  (s.src x = 0 → exec (.syTself gd x) s = .next (s.launchOp 1 (.res .syr (BitVec.ofNat 64 s.b.t.recVa)))) ∧
  (s.src x = 1 → exec (.syTself gd x) s = .next (s.launchOp 1 (.res .syr (BitVec.ofNat 64 s.b.t.frame)))) ∧
  (s.src x = 0 → ∃ r, exec (.syTteam gd x) s = .next (s.launchOp 1 (.res .syr r)) ∧ fld r 9 0 = s.b.t.member % 1024 ∧
    fld r 21 12 = s.b.t.tsize % 1024 ∧ fld r 63 32 = s.b.t.team % 2 ^ 32) ∧
  ((s.src x).toNat ≤ 3 → exec (.syTprio gd x) s = .next (s.defer (.prio (s.src x).toNat))) ∧
  (s.isDet = true → ∀ i ∈ [Instr.syTspawn gd x, .syTdec gd x, .syTinc gd x, .syTkill gd x, .syTread gd x],
    exec i s = .next (s.illegal 6))

/-- R379 to R381: the system registers: what a read gives, that a write lands at the end of the cycle, and the causes of an access
that may not be made.
R5, R380: a system-register write at the end of its cycle keeps reserved bits zero: `nflg` bits [6:0], `tvec` without bits [19:14]
and [12], `einj` without bits [62:56], and the whole of `trec0` to `trec3` out of reach. A write of 0x041 empties the instruction
cache; a write of zero to either half of an error log clears that log, and any other value written there is ignored. -/
def Obligations.SystemRegisterAccess : Prop :=
  (∀ (gd : Guard) (x : Src) (s : State), s.guardOn gd = true →
  (∀ n v, (s.src x).toNat = n → (n, v) ∈ [(0x000, s.b.y.nflg), (0x001, s.b.y.tvec), (0x004, vget 0 s.b.y.trec 0),
      (0x005, vget 0 s.b.y.trec 1), (0x006, vget 0 s.b.y.trec 2), (0x007, vget 0 s.b.y.trec 3), (0x010, vget 0 s.b.y.wcmp 0),
      (0x017, vget 0 s.b.y.wcmp 7)] → exec (.syRsr gd x) s = .next (s.launchOp 1 (.res .syr v))) ∧
  ((s.src x).toNat = 0x002 → ∃ v, exec (.syRsr gd x) s = .next (s.launchOp 1 (.res .syr v)) ∧ v.getLsbD 0 = s.b.y.inh ∧
    v.getLsbD 1 = s.notices.contains s.b.t.ctx ∧ v.toNat < 4) ∧
  ((s.src x).toNat = 0x008 → ∃ v, exec (.syRsr gd x) s = .next (s.launchOp 1 (.res .syr v)) ∧
    fld v 15 0 = s.b.t.ctx % 2 ^ 16 ∧ fld v 17 16 = s.cls % 4) ∧
  ((s.src x).toNat = 0x009 → ∀ e, s.ctxEnt s.b.t.ctx = some e → exec (.syRsr gd x) s =
    .next (s.launchOp 1 (.res .syr (BitVec.ofNat 64 (bits e 115 90 * 2 ^ 16))))) ∧
  ((s.src x).toNat = 0x040 → s.cls ≠ 0 → exec (.syRsr gd x) s = .next (s.launchOp 1 (.res .syr s.b.y.einj))) ∧
  (∀ i, 1 ≤ i → i ≤ 12 → s.cls ≠ 0 →
    ((s.src x).toNat = 0x100 + 2 * i →
      exec (.syRsr gd x) s = .next (s.launchOp 1 (.res .syr ((cget 0 s.b.y.elog i).extractLsb' 0 64)))) ∧
    ((s.src x).toNat = 0x101 + 2 * i →
      exec (.syRsr gd x) s = .next (s.launchOp 1 (.res .syr ((cget 0 s.b.y.elog i).extractLsb' 64 64))))) ∧
  (fld (s.src x) 63 12 ≠ 0 → exec (.syRsr gd x) s = .next (s.illegal 2) ∧ exec (.syWsr gd x) s = .next (s.illegal 2)) ∧
  (∀ n, (s.src x).toNat = n → n < 2 ^ 12 →
    ¬ (n ≤ 0x002 ∨ (0x004 ≤ n ∧ n ≤ 0x009) ∨ (0x010 ≤ n ∧ n ≤ 0x017) ∨ n = 0x040 ∨ n = 0x041 ∨ (0x102 ≤ n ∧ n ≤ 0x119)) →
    exec (.syRsr gd x) s = .next (s.illegal 9) ∧ exec (.syWsr gd x) s = .next (s.illegal 9)) ∧
  (∀ n, (s.src x).toNat = n → n ∈ [0x000, 0x001, 0x010, 0x011, 0x012, 0x013, 0x014, 0x015, 0x016, 0x017] →
    exec (.syWsr gd x) s = .next (s.defer (.sys n (s.opd .syo)))) ∧
  (∀ n, (s.src x).toNat = n → (n = 0x040 ∨ n = 0x041 ∨ (0x102 ≤ n ∧ n ≤ 0x119)) →
    (s.cls ≠ 0 → exec (.syWsr gd x) s = .next (s.defer (.sys n (s.opd .syo)))) ∧
    (s.cls = 0 → exec (.syWsr gd x) s = .next (s.illegal 8) ∧ exec (.syRsr gd x) s = .next (s.illegal 8))) ∧
  (∀ n, (s.src x).toNat = n → n ∈ [0x002, 0x004, 0x005, 0x006, 0x007, 0x008, 0x009] → exec (.syWsr gd x) s = .next (s.illegal 9)) ∧
  ((s.src x).toNat = 0x041 → s.cls ≠ 0 → exec (.syRsr gd x) s = .next (s.illegal 9))) ∧
  (∀ (b : Brick) (x : Word),
  (b.write (.sys 0x000 x)).y.nflg = x &&& 0x7F ∧
  (b.write (.sys 0x001 x)).y.tvec = x &&& 0xFFFFFFFFFFF02FFF ∧
  (∀ c < 8, ∀ j, vget 0 (b.write (.sys (0x010 + c) x)).y.wcmp j = if j = c then x &&& 0xFFFFFFFFFFF0FFFF else vget 0 b.y.wcmp j) ∧
  (b.write (.sys 0x041 x)).ic = [] ∧ (b.write (.sys 0x041 x)).y = b.y ∧
  (b.write (.sys 0x040 x)).y.einj = x &&& 0x80FFFFFFFFFFFFFF ∧
  (∀ i, 1 ≤ i → i ≤ 12 → ∀ n, n = 0x100 + 2 * i ∨ n = 0x101 + 2 * i →
    (x = 0 → ∀ j, cget 0 (b.write (.sys n x)).y.elog j = if j = i then 0 else cget 0 b.y.elog j) ∧
    (x ≠ 0 → b.write (.sys n x) = b)) ∧
  ∀ n, (b.write (.sys n x)).y.trec = b.y.trec ∧ (b.write (.sys n x)).r = b.r ∧ (b.write (.sys n x)).loc = b.loc)

/-- R371 to R376, R383: `trap` takes the software trap with its code. A trap that its task's handler takes saves the record and the
pipeline image (the operand latches as they were before the bundle), freezes the exposed matrix operations, clears what R375 clears and goes to the handler's bundle; general, vector and mask registers, guards, local stores
and device memory stay. A handler whose code-table entry is not valid, and a `bar` that its handler returns from, are the model's (logs 23 and 25). -/
def Obligations.TrapsEnterTheHandler : Prop :=
  (∀ (gd : Guard) (x : Src) (s : State), s.guardOn gd = true → fld (s.src x) 63 16 = 0 → exec (.syTrap gd x) s =
    .next (s.raise 3 ⟨0xE, 0, 0, 0, BitVec.ofNat 32 (fld (s.src x) 15 0), 0, 0, 0⟩)) ∧
  ∀ (s : State) (t : TrapRec) (base : Nat), s.b.y.inh = false → 1 ≤ t.kind → t.kind ≤ 14 → t.kind ≠ 13 →
    bit s.b.y.tvec.toNat (t.kind - 1) = true → s.codeBase s.b.t.ctx (fld s.b.y.tvec 31 20) = some base →
    let u := s.takeTrap t
    u.b.pc = s.b.y.tvec.extractLsb' 32 32 ∧ u.b.cbi = fld s.b.y.tvec 31 20 ∧ u.b.codeBase = base ∧ u.b.y.inh = true ∧
    (∀ w < 4, vget 0 u.b.y.trec w =
      (t.pack s.b.pc.toNat s.b.cbi s.b.t.ctx s.b.r.lp.isSome s.b.r.br.xfer.isSome).extractLsb' (64 * w) 64) ∧
    u.b.r.opd = Opd.zero ∧ u.b.r.res = Res.zero ∧ u.b.r.pipe = [] ∧ u.b.r.br = Br.zero ∧ u.b.r.lp = none ∧ u.b.r.rrb = 0 ∧
    (∀ i, vget 0 u.b.r.ix i = 0) ∧ u.b.r.g = s.b.r.g ∧ u.b.r.v = s.b.r.v ∧ u.b.r.m = s.b.r.m ∧ u.b.r.k = s.b.r.k ∧
    u.b.r.h = s.b.r.h ∧ u.b.loc = s.b.loc ∧ u.b.cnt = s.b.cnt ∧ u.b.running = s.b.running ∧ u.b.y.nflg = s.b.y.nflg ∧
    u.b.y.tvec = s.b.y.tvec ∧ (∀ a, u.readPhys a 1 = s.readPhys a 1) ∧
    u.b.y.held = some { s.b.image t.kind with opd := s.b.iss.opd0 } ∧ u.b.timer = 0 ∧ u.b.barWait = none ∧
    u.b.mxq = s.b.mxq.map (fun op => if bit op.pcw.toNat 20 then { op with frozen := true } else op)

/-- R384: `tret` outside a handler is illegal operation 0xA; in one whose operations are done it returns, and the pc, the latches, the
operations in flight, branch, loop, indices, rotation and the sources of `mx.s` are those the trapping bundle had.
R373: every field of a trap record reads back from its packed words. -/
def Obligations.TrapReturnAndRecords : Prop :=
  ((∀ (gd : Guard) (x : Src) (s : State), s.guardOn gd = true → (s.src x).toNat ≤ 1 →
    (s.b.y.inh = false → exec (.syTret gd x) s = .next (s.illegal 0xA)) ∧
    (s.b.y.inh = true → s.b.r.pipe = [] → (∀ op ∈ s.b.mxq, bit op.pcw.toNat 20 = false) → exec (.syTret gd x) s =
      .next (s.onIss (fun i => { i with tret := some (decide (s.src x = 1)) })))) ∧
  ∀ (b c : Brick) (t : TrapRec) (base : Nat) (skip : Bool), t.kind ≠ 8 → c.y.held = (b.enterHandler t base).y.held → c.r.pipe = [] →
    let d := c.tret skip
    d.pc = b.pc ∧ d.cbi = b.cbi ∧ d.codeBase = b.codeBase ∧ d.r.opd = b.r.opd ∧ d.r.res = b.r.res ∧ d.r.pipe = b.r.pipe ∧
    d.r.br = b.r.br ∧ d.r.lp = b.r.lp ∧ d.r.ix = b.r.ix ∧ d.r.rrb = b.r.rrb ∧ d.timer = b.timer ∧ d.barWait = b.barWait ∧ d.lastt = b.lastt ∧ d.lasts = b.lasts ∧
    d.y.inh = false ∧ d.y.held = none ∧ d.skip = skip ∧ d.r.g = c.r.g ∧ d.r.k = c.r.k ∧ d.loc = c.loc) ∧
  (∀ (t : TrapRec) (pc cbi ctx : Nat) (loop pend : Bool),
  t.kind < 256 → t.cause < 256 → t.slot < 8 → t.path < 16 → t.fkind < 16 → pc < 2 ^ 32 → cbi < 4096 → ctx < 65536 →
  let x := (t.pack pc cbi ctx loop pend).toNat
  bits x 7 0 = t.kind ∧ bits x 15 8 = t.cause ∧ bits x 18 16 = t.slot ∧ bit x 19 = pend ∧ bit x 20 = loop ∧
  bits x 27 24 = t.fkind ∧ bits x 31 28 = t.path ∧ bits x 63 32 = t.aux.toNat ∧ bits x 79 64 = ctx ∧ bits x 95 84 = cbi ∧
  bits x 127 96 = pc ∧ bits x 191 128 = t.addr.toNat ∧ bits x 255 192 = t.info.toNat)

/-! ## Push buffer, spire and power operations (R216 to R218, R401 to R412) -/

namespace Sys2Proof.Machine.Claims

open Sys2Proof Sys2Proof.Machine

/-- A push of n commands completes: their 64 bytes each are copied from the scratchpad in order, the hulls of those that touch this
brick's stores join the scoreboard, `cnt.cp` rises by n and `qp.f` tells the free entries (R124, R216 to R218). -/
def Pushes (f : Guard → Src → Instr) (many : Bool) : Prop := ∀ (gd : Guard) (x : Src) (s : State),
  let a := s.src x
  let n := fld a 33 32 + 1
  s.guardOn gd = true → pushBad a = false → pushBeyond a many = false → s.b.push.length + n ≤ 8 → s.b.cnt.cp + n ≤ 65535 →
  LocalFree s 0 (fld a 19 0) (64 * n) →
  s.b.score.length + (((List.range n).map (s.command a)).flatMap Cmd.scoreOf).length ≤ 4 → ∃ (t : State) (cs : List Cmd),
    exec (f gd x) s = .next t ∧ t.b.push = s.b.push ++ cs ∧ cs.length = n ∧
    (∀ i < n, ∃ c, cs[i]? = some c ∧
      (let raw := ofBytes (s.b.loc.read 0 (fld a 19 0 + 64 * i) 64)
       c.f 42 0 = bits raw 42 0 ∧ c.f 511 95 = bits raw 511 95 ∧
       c.src = if bit a.toNat 31 then (bits raw 94 43 + (s.opd .qpa).toNat) % 2 ^ 52 else bits raw 94 43) ∧ c.eng = fld a 25 20 ∧
      c.tid = s.b.t.tid ∧ c.ctx = s.b.t.ctx ∧ c.brick = s.b.bid ∧ c.seq = s.cmdSeq + i) ∧
    t.b.score = s.b.score ++ cs.flatMap Cmd.scoreOf ∧ t.cmdSeq = s.cmdSeq + n ∧ t.b.iss.wr = s.b.iss.wr ++ List.replicate n (.cnt .cp) ∧
    t.b.r.pipe = s.b.r.pipe ++ [⟨1, .res .qpf (BitVec.ofNat 64 (8 - (s.b.push.length + n)))⟩] ∧ t.b.loc = s.b.loc

end Sys2Proof.Machine.Claims

namespace Sys2Proof.Machine.Claims

open Sys2Proof Sys2Proof.Machine

/-- `sp.n` as an operation that moved an entry or none leaves it: entries free, entries to receive, and whether one moved (R410). -/
def spireWord (t : State) (moved : Bool) : Word := BitVec.ofNat 64 (t.spFree + 16 * t.b.spAvail + if moved then 256 else 0)

end Sys2Proof.Machine.Claims

/-- R124, R216 to R218: pushes of one command or several, a push into a buffer with too few free entries, which leaves it alone and
says so, and the count of free entries. That a push which leaves at most four scoreboard entries in use never waits for one is the
model's choice (log 20).
R408 to R412: a send puts a vector register at the tail of the FIFO toward the pair partner, receivable two cycles on; a receive
takes the head entry into a vector register at the end of the cycle; `sendn` and `recvn` that cannot move say so.
R396, R397, R401, R406, R416: the power operations: classes acquired, released and read, a domain's state, gate requests of a
driver, the must-save declaration and the hold-up charge. -/
def Obligations.PushSpireAndPower : Prop :=
  (Claims.Pushes .qpPush false ∧ Claims.Pushes .qpPushw false ∧ Claims.Pushes .qpPushn true ∧
  ∀ (gd : Guard) (x : Src) (s : State), s.guardOn gd = true →
    (pushBad (s.src x) = false → pushBeyond (s.src x) false = false → s.b.push.length = 8 →
      exec (.qpPush gd x) s = .next (s.launchOp 1 (.res .qpf 128))) ∧
    (s.src x = 0 → exec (.qpFree gd x) s = .next (s.launchOp 1 (.res .qpf (BitVec.ofNat 64 (8 - s.b.push.length)))))) ∧
  (∀ (gd : Guard) (x : Src) (s : State), s.guardOn gd = true →
  (∀ v, (s.src x).toNat = v → v ≤ 31 → 0 < s.spFree →
    let t := s.setBrick (partnerOf s.b.bid) { s.partner with spq := s.partner.spq ++ [⟨s.readV v, s.b.clk + 2⟩] }
    exec (.spSend gd x) s = .next (t.launchOp 1 (.res .spn (Claims.spireWord t true))) ∧
    (s.isDet = false → exec (.spSendn gd x) s = .next (t.launchOp 1 (.res .spn (Claims.spireWord t true))))) ∧
  (∀ v e rest, (s.src x).toNat = v → v ≤ 31 → s.b.spq = e :: rest → e.ready ≤ s.b.clk →
    let t := (s.onB (fun b => { b with spq := rest, spFreed := b.spFreed ++ [b.clk + 2] })).defer (.v (physV s.b.r.rrb v) e.data)
    exec (.spRecv gd x) s = .next (t.launchOp 1 (.res .spn (Claims.spireWord t true))) ∧
    (s.isDet = false → exec (.spRecvn gd x) s = .next (t.launchOp 1 (.res .spn (Claims.spireWord t true))))) ∧
  ((s.src x).toNat ≤ 31 → s.isDet = false → s.b.spq = [] →
    exec (.spRecvn gd x) s = .next (s.launchOp 1 (.res .spn (Claims.spireWord s false)))) ∧
  (s.src x = 0 → s.isDet = false → exec (.spCnt gd x) s = .next (s.launchOp 1 (.res .spn (Claims.spireWord s false))))) ∧
  (∀ (gd : Guard) (x : Src) (s : State), s.guardOn gd = true →
  (∀ h, (s.src x).toNat ≤ h → h ≤ 4 → s.isDet = false → s.b.grant = none → s.b.cls = some h →
    exec (.pwAcq gd x) s = .next ((s.onB (fun b => { b with cls := some (s.src x).toNat })).launchOp 1
      (.res .pwr (BitVec.ofNat 64 (16 + (s.src x).toNat))))) ∧
  (∀ c, (s.src x).toNat ≤ 4 → s.isDet = false → s.b.grant = some true → s.b.cls = some c →
    exec (.pwAcq gd x) s = .next ((s.onB (fun b => { b with grant := none })).launchOp 1 (.res .pwr (BitVec.ofNat 64 (16 + c))))) ∧
  (s.src x = 0 → exec (.pwRel gd x) s = .next ((s.onB (fun b => { b with cls := none })).launchOp 1 (.res .pwr 0xF))) ∧
  (s.src x = 0 → s.isDet = false → exec (.pwCls gd x) s =
    .next (s.launchOp 1 (.res .pwr (BitVec.ofNat 64 (s.b.cls.getD 0xF + 16 * s.b.stepN + 256 * s.b.stepD))))) ∧
  (fld (s.src x) 63 4 = 0 → s.isDet = false → ∃ r, exec (.pwDst gd x) s = .next (s.launchOp 1 (.res .pwr (BitVec.ofNat 64 r))) ∧
    r = (s.domain (s.src x).toNat).state + 16 * s.domainStep (s.src x).toNat + 2 ^ 16 * (s.heldSum (s.src x).toNat % 2 ^ 16) +
      2 ^ 32 * (s.dbud (s.src x).toNat % 2 ^ 16)) ∧
  (fld (s.src x) 63 4 = 0 → (s.src x).toNat ≠ domainOf s.b.bid → s.cls ≠ 0 →
    let w := BitVec.ofNat 64 (s.domain (s.src x).toNat).state
    exec (.pwGate gd x) s = .next ((s.request (s.src x).toNat true).launchOp 1 (.res .pwr w)) ∧
    exec (.pwUngate gd x) s = .next ((s.request (s.src x).toNat false).launchOp 1 (.res .pwr w))) ∧
  (fld (s.opd .pwo) 6 0 ≤ 64 → s.isDet = false → (s.src x).toNat % 16 = 0 → s.b.cnt.st < 65535 →
    let d := physG s.b.r.rrb (fld (s.opd .pwo) 37 32)
    exec (.pwMsd gd x) s = .next ((s.defer (.cnt .st)).place
      { DevOp.basic (.msd (fld (s.opd .pwo) 6 0) d) (s.src x).toNat (16 * fld (s.opd .pwo) 6 0) with dst := .g d })) ∧
  (s.src x = 0 → s.isDet = false → exec (.pwMst gd x) s =
    .next (s.launchOp 1 (.res .pwr (BitVec.ofNat 64 (s.chargeOf s.b.t.ctx + 2 ^ 32 * s.charge))))))


/-! ## Accesses performed at their slices and delivered (R203 to R209, R292 to R295) -/

namespace Sys2Proof.Machine.Claims

open Sys2Proof Sys2Proof.Machine

/-- Memory in its usual state: nothing waits in a write queue, no disturbance is to come, and no key has left lines behind. -/
def Quiet (s : State) : Prop := s.wq = [] ∧ s.upset = none ∧ s.img = []

/-- An access of the brick in focus that can be performed at a physical address of this module now: issued, in order, translated,
with memory quiet and its bytes not poisoned. -/
def AtSlice (s : State) (op : DevOp) (pa : Nat) (use : Use) : Prop :=
  s.b.bid < 768 ∧ s.b.op? op.id = some op ∧ op.stage = .issued ∧ s.ready s.b op = true ∧ s.xlate s.b.dataLook op.ctx op.va use false = .ok pa ∧
  s.ownerNode pa = none ∧ Quiet s ∧ s.poisoned pa op.len = false

/-- An access whose lines its slice holds once the entries of its walk have been read (R67, R88). -/
def Held (s : State) (op : DevOp) (pa : Nat) : Prop :=
  ∀ l ∈ linesOf pa op.len, (s.seeWalk s.b.dataLook op.ctx op.va).holds l = true

/-- A 256-byte access of which every sector lies at its place in one page of this module (R321). -/
def Wide (s : State) (op : DevOp) (pa : Nat) (use : Use) : Prop :=
  op.len = 256 ∧ pa % 256 = 0 ∧ ∀ i < 8, s.xlate s.b.dataLook op.ctx (op.va + 32 * i) use false = .ok (pa + 32 * i) ∧
    s.ownerNode (pa + 32 * i) = none

/-- Memory after n bytes at an address take those of a number that a mask selects. -/
def Masked (s t : State) (pa n data : Nat) (mask : BitVec 256) : Prop := ∀ a, cget 0 t.mem a =
  if pa ≤ a ∧ a < pa + n ∧ mask.getLsbD (a - pa) = true then BitVec.ofNat 8 (data / 2 ^ (8 * (a - pa))) else cget 0 s.mem a

/-- The task of an access runs on the brick in focus, and has no saved image. -/
def RunsHere (s : State) (op : DevOp) : Prop :=
  s.b.running = true ∧ s.b.t.tid = op.tid ∧ ∀ x ∈ s.images, x.task.tid ≠ op.tid

/-- Every byte of device memory as it was. -/
def SameMemory (s t : State) : Prop := ∀ a, cget 0 t.mem a = cget 0 s.mem a

/-- A load at its end: `cnt.ld` lowered, the access gone, and result latches, masks, guards and memory as they were. -/
def LoadEnded (s t : State) (op : DevOp) : Prop :=
  t.b.cnt.ld = s.b.cnt.ld - 1 ∧ t.b.cnt.st = s.b.cnt.st ∧ t.b.op? op.id = none ∧ t.b.r.res = s.b.r.res ∧ t.b.r.m = s.b.r.m ∧
  t.b.r.k = s.b.r.k ∧ SameMemory s t

/-- What each atomic leaves of old bytes and an operand, both of n bytes, and with which flags (R209). -/
def AtomicValue (mode n cmp old d : Nat) : Prop :=
  let is := fun (op : AmoOp) (P : Nat → Prop) => ∃ x, amoNew op mode n cmp old d = (some x, 0) ∧ x < 2 ^ (8 * n) ∧ P x
  let sg := fun (x : Nat) => (BitVec.ofNat (8 * n) x).toInt
  is .add (fun x => x = (old + d) % 2 ^ (8 * n)) ∧ is .swap (fun x => x = d) ∧
  is .and (fun x => ∀ i, bit x i = (bit old i && bit d i)) ∧ is .or (fun x => ∀ i, bit x i = (bit old i || bit d i)) ∧
  is .xor (fun x => ∀ i, bit x i = (bit old i ^^ bit d i)) ∧
  is .min (fun x => sg x = min (sg old) (sg d)) ∧ is .max (fun x => sg x = max (sg old) (sg d)) ∧
  is .minu (fun x => x = min old d) ∧ is .maxu (fun x => x = max old d) ∧
  amoNew .cas mode n cmp old d = (if old = cmp then some d else none, 0) ∧
  (n = 4 → let e := addNum (read32 (BitVec.ofNat 32 old)) (read32 (BitVec.ofNat 32 d))
    let r := round32 mode e.1
    amoNew .fadd mode n cmp old d = (some r.1.toNat, e.2 ||| r.2))

end Sys2Proof.Machine.Claims

/-- R67, R201, R204, R321: SLICE_READ takes a load's whole lines from device memory, which stays, as do the brick's registers; of a
`vld` it reads one sector, the load being performed with the last. DEVICE_LOAD_COMPLETE delivers the load's bytes, extended, to the
register bound when it issued, of `ld.q` to its pair of registers and of `vld` to the selected lanes of its vector register, and
lowers `cnt.ld`; or it waits for the end of the cycle (R156). -/
def Obligations.LoadsReadAndDeliver : Prop :=
  (∀ (s : State) (op : DevOp) (pa : Nat) (sg : Bool), Claims.AtSlice s op pa .read → op.kind = .load sg → op.len ≤ 32 → ∃ t,
    exec (.sliceRead op.id) s = .next t ∧
    t.b.op? op.id = some { op with
      stage := .performed (ofBytes (s.readPhys (pa / 64 * 64) (64 * ((pa + op.len - 1) / 64 + 1 - pa / 64)))) 0, data := pa } ∧
    Claims.SameMemory s t ∧ t.b.r = s.b.r ∧ t.b.cnt = s.b.cnt) ∧
  (∀ (s : State) (op : DevOp) (pa : Nat) (sg : Bool), Claims.AtSlice s op pa .read → op.kind = .load sg → Claims.Wide s op pa .read →
    (∃ i < 8, bit op.sect i = false) → ∃ (t : State) (o : DevOp) (i : Nat), i < 8 ∧ bit op.sect i = false ∧
    exec (.sliceRead op.id) s = .next t ∧ t.b.op? op.id = some o ∧
    let x := op.acc + ofBytes (s.readPhys (pa + 32 * i) 32) * 2 ^ (256 * i)
    o.acc = x ∧ (∀ j < 8, bit o.sect j = (bit op.sect j || decide (j = i))) ∧
    o.stage = (if (List.range 8).all (fun j => j == i || bit op.sect j) = true then .performed x 0 else .issued) ∧
    Claims.SameMemory s t ∧ t.b.r = s.b.r ∧ t.b.cnt = s.b.cnt) ∧
  (∀ (s : State) (id : Nat), exec (.deviceLoadComplete ⟨id, true⟩) s = .next (s.onB (fun b =>
    { b with landing := if b.landing.contains id then b.landing else id :: b.landing }))) ∧
  ∀ (s : State) (op : DevOp) (sg : Bool) (val : Nat) (f : Flags), Claims.RunsHere s op → s.b.op? op.id = some op →
    op.kind = .load sg → op.stage = .performed val f → s.upset = none →
    let x := val / 2 ^ (8 * (op.va % 64))
    (∀ n, op.dst = .g n → n < 64 → 1 ≤ op.len → op.len ≤ 8 → ∃ t, exec (.deviceLoadComplete ⟨op.id, false⟩) s = .next t ∧
      Claims.Extended sg op.len (x % 2 ^ (8 * op.len)) (vget 0 t.b.r.g n) ∧
      (∀ j, j ≠ n → vget 0 t.b.r.g j = vget 0 s.b.r.g j) ∧ t.b.r.v = s.b.r.v ∧ Claims.LoadEnded s t op) ∧
    (∀ lo hi, op.dst = .gq lo hi → lo < 64 → hi < 64 → lo ≠ hi → sg = false → op.len = 16 → ∃ t,
      exec (.deviceLoadComplete ⟨op.id, false⟩) s = .next t ∧ (vget 0 t.b.r.g lo).toNat = x % 2 ^ 64 ∧
      (vget 0 t.b.r.g hi).toNat = x / 2 ^ 64 % 2 ^ 64 ∧ (∀ j, j ≠ lo → j ≠ hi → vget 0 t.b.r.g j = vget 0 s.b.r.g j) ∧
      t.b.r.v = s.b.r.v ∧ Claims.LoadEnded s t op) ∧
    ∀ n lanes, op.dst = .v n lanes → n < 32 → sg = false → op.len = 256 → ∃ t,
      exec (.deviceLoadComplete ⟨op.id, false⟩) s = .next t ∧
      (∀ j < 64, lane (vget 0 t.b.r.v n) j =
        if lanes.getLsbD j = true then BitVec.ofNat 32 (x / 2 ^ (32 * j)) else lane (vget 0 s.b.r.v n) j) ∧
      (∀ j, j ≠ n → vget 0 t.b.r.v j = vget 0 s.b.r.v j) ∧ t.b.r.g = s.b.r.g ∧ Claims.LoadEnded s t op

/-- R201, R209, R292 to R295, R321: a store performed at its slice writes exactly the bytes of its mask, and of a `vst` those of one
sector; where the line is not held it waits in the write queue, and is performed when the line arrives. An atomic writes what its operation gives from the old value, which its
reply carries with its flags; what each of the eleven operations gives is stated too. The reply lowers `cnt.st` and delivers the old
value where the access has a destination; that of a plain store or of a no-return atomic changes no register. -/
def Obligations.StoresAndAtomicsPerform : Prop :=
  (∀ (s : State) (op : DevOp) (pa : Nat), Claims.AtSlice s op pa .write → op.kind = .store → op.len ≤ 32 →
    Claims.Held s op pa → ∃ t, exec (.sliceWrite op.id true) s = .next t ∧ Claims.Masked s t pa op.len op.data op.bytes ∧
    (t.b.op? op.id).map DevOp.stage = some (.performed 0 0) ∧ t.b.r = s.b.r) ∧
  (∀ (s : State) (op : DevOp) (pa : Nat), Claims.AtSlice s op pa .write → op.kind = .store → Claims.Wide s op pa .write →
    Claims.Held s op pa → (∃ i < 8, bit op.sect i = false) → ∃ (t : State) (o : DevOp) (i : Nat), i < 8 ∧ bit op.sect i = false ∧
    exec (.sliceWrite op.id true) s = .next t ∧ t.b.op? op.id = some o ∧ (∀ j < 8, bit o.sect j = (bit op.sect j || decide (j = i))) ∧
    o.stage = (if (List.range 8).all (fun j => j == i || bit op.sect j) = true then .performed 0 0 else .issued) ∧
    Claims.Masked s t (pa + 32 * i) 32 (op.data / 2 ^ (256 * i)) (op.bytes >>> (32 * i)) ∧ t.b.r = s.b.r) ∧
  (∀ (s : State) (op : DevOp) (pa : Nat), Claims.AtSlice s op pa .read → op.kind = .store → 0 < op.len → op.len ≤ 32 → ∃ t,
    exec (.sliceWrite op.id false) s = .next t ∧ t.wq = [⟨pa / 64 * 64, [(s.b.bid, op.id)]⟩] ∧
    (t.b.op? op.id).map DevOp.stage = some .queued ∧ Claims.SameMemory s t) ∧
  (∀ (s : State) (op : DevOp) (pa line : Nat), s.b.op? op.id = some op → op.kind = .store → op.len ≤ 32 →
    s.wq = [⟨line, [(s.b.bid, op.id)]⟩] → s.xlate s.b.dataLook op.ctx op.va .write false = .ok pa → s.ownerNode pa = none →
    s.upset = none → s.img = [] → s.visits = [] → ∃ t, exec (.sliceLineArrival line) s = .next t ∧ t.wq = [] ∧
    Claims.Masked s t pa op.len op.data op.bytes ∧ t.b.r = s.b.r) ∧
  (∀ (s : State) (op : DevOp) (pa : Nat) (code : AmoOp) (comb nr : Bool) (mode cmp : Nat), Claims.AtSlice s op pa .write →
    op.kind = .amo code comb mode nr cmp → Claims.Held s op pa → s.arrives s.b.bid op = true → s.routers = [] → ∃ t, exec (.sliceAtomic op.id true) s = .next t ∧
    let old := ofBytes (s.readPhys pa op.len)
    let r := amoNew code mode op.len cmp old op.data
    (t.b.op? op.id).map DevOp.stage = some (.performed old r.2) ∧
    (∀ a, cget 0 t.mem a = match r.1 with
      | some x => if pa ≤ a ∧ a < pa + op.len then BitVec.ofNat 8 (x / 2 ^ (8 * (a - pa))) else cget 0 s.mem a
      | none => cget 0 s.mem a) ∧ t.b.r = s.b.r) ∧
  (∀ mode n cmp old d : Nat, (n = 4 ∨ n = 8) → old < 2 ^ (8 * n) → d < 2 ^ (8 * n) → Claims.AtomicValue mode n cmp old d) ∧
  ∀ (s : State) (op : DevOp) (val : Nat) (f : Flags), Claims.RunsHere s op → s.b.op? op.id = some op →
    op.kind.isLoad = false → op.kind ≠ .marker → op.stage = .performed val f →
    let ends := fun (t : State) => t.b.cnt.st = s.b.cnt.st - 1 ∧ t.b.cnt.ld = s.b.cnt.ld ∧
      t.b.y.nflg = s.b.y.nflg ||| f.zeroExtend 64 ∧ t.b.op? op.id = none ∧ Claims.SameMemory s t
    (∀ n, op.dst = .g n → n < 64 → ∃ t, exec (.deviceAccessReply op.id) s = .next t ∧ vget 0 t.b.r.g n = BitVec.ofNat 64 val ∧
      (∀ j, j ≠ n → vget 0 t.b.r.g j = vget 0 s.b.r.g j) ∧ ends t) ∧
    (op.dst = .none → ∃ t, exec (.deviceAccessReply op.id) s = .next t ∧ t.b.r = s.b.r ∧ ends t)

/-- R70, R75, R79, R80: a base die changes nothing on a key fault; a write of a line that is held dirty alone leaves a compressed block raw
under its key, and that of a block held dirty whole gives it the descriptor of its contents; bytes and other blocks stay; and (R138, R203)
a write packet from an engine writes its bytes and no others, and pushes a token for the one comparator that watches. The descriptor of
a block never written whole, what the coder makes of a block, the fault of an access that breaks two rules, and when packets come, are
the model's choice (logs 6, 14, 53 and 111). -/
def Obligations.BaseDieAndWritePackets : Prop :=
  (∀ (s : State) (ctx key pa : Nat) (whole cmp : Bool), ∃ t, exec (.baseDieAccess ctx key pa whole cmp) s = .next t ∧
    (s.keyFault ctx key pa whole ≠ none → t = s)) ∧
  (∀ (s : State) (ctx key pa : Nat) (cmp : Bool) (c : SliceLine), s.keyFault ctx key pa false = none → secondTier pa = false →
    s.upset = none → s.img = [] → s.heldLine (pa / 64 * 64) = some c → c.dirty ≠ 0 → s.blockDirty (pa / 4096) = false → ∃ t,
    exec (.baseDieAccess ctx key pa false cmp) s = .next t ∧ t.frameKey pa = s.frameKey pa ∧ bit (t.descOf pa) 6 = false ∧
    (bit (s.descOf pa) 6 = true → storedLines (t.descOf pa) = 64) ∧ t.holds (pa / 64 * 64) = false ∧ t.mem = s.mem ∧
    ∀ p, p / 4096 ≠ pa / 4096 → t.descOf p = s.descOf p) ∧
  (∀ (s : State) (ctx key pa : Nat) (cmp : Bool), s.keyFault ctx key pa true = none → secondTier pa = false → s.upset = none →
    s.blockDirty (pa / 4096) = true → ∃ t, exec (.baseDieAccess ctx key pa true cmp) s = .next t ∧
    t.frameKey pa = s.frameKey pa ∧ t.mem = s.mem ∧ t.blockDirty (pa / 4096) = false ∧
    bit (t.descOf pa) 6 = (cmp && (blockImage (s.readPhys (pa / 4096 * 4096) 4096)).isSome) ∧
    (bit (t.descOf pa) 6 = false → storedLines (t.descOf pa) = 64) ∧ (bit (t.descOf pa) 6 = true → storedLines (t.descOf pa) ≤ 56) ∧
    ∀ p, p / 4096 ≠ pa / 4096 → t.descOf p = s.descOf p) ∧
  ∀ (s : State) (space off source : Nat) (data : Bytes), 768 ≤ source → source ≠ s.b.bid → data ≠ [] → space < 3 →
    off % 64 + data.length ≤ 64 → off + data.length ≤ spaceSize space → s.b.mxHoldsOther space off data.length = false →
    s.takesWrites s.b = true → ∃ t,
    exec (.localWritePacket space off data source) s = .next t ∧ t.b.loc.read space off data.length = data ∧
    (∀ sp o, sp < 3 → (sp ≠ space ∨ o < off ∨ off + data.length ≤ o) → t.b.loc.read sp o 1 = s.b.loc.read sp o 1) ∧
    t.b.r = s.b.r ∧ Claims.SameMemory s t ∧
    (∀ c < 8, s.b.y.wakeQ.length < 16 → (∀ j < 8, wakeMatches (vget 0 s.b.y.wcmp j) space off data.length = decide (j = c)) →
      t.b.y.wakeQ = s.b.y.wakeQ ++ [tokenWord source off (fld (vget 0 s.b.y.wcmp c) 15 8) c]) ∧
    ((∀ j < 8, wakeMatches (vget 0 s.b.y.wcmp j) space off data.length = false) → t.b.y.wakeQ = s.b.y.wakeQ)

/-! ## Combining (R296 to R301) -/

namespace Sys2Proof.Machine.Claims

open Sys2Proof Sys2Proof.Machine

/-- The operands of a tree of combined requests, leaders before their followers (R300). -/
def operands : Tree → List Nat
  | .leaf _ _ d => [d]
  | .pair l f => operands l ++ operands f

/-- A request gets to a router of its path: those between it and where it is take it nowhere (R296). -/
def Reaches (s : State) (op : DevOp) (k : CombKey) (r : Nat) : Prop :=
  let path := s.pathFor s.b.bid k.pa
  s.goesTo k path op (path.findIdx (fun x => x == r)) = true

end Sys2Proof.Machine.Claims

/-- R298, R300: combined integer requests leave memory exactly as they would one after another, leaders before followers, and raise no
flag; and the value a reply gives a pair's follower is the one its leader leaves, with no flag either. -/
def Obligations.CombiningEqualsSequence : Prop := ∀ (op : AmoOp) (w mode old : Nat), op ≠ .cas → op ≠ .fadd → (w = 4 ∨ w = 8) →
  old < 2 ^ (8 * w) →
  (∀ t : Tree, (∀ d ∈ Claims.operands t, d < 2 ^ (8 * w)) →
    (amoNew op mode w 0 old (t.operand op mode w)).1 =
      some ((Claims.operands t).foldl (fun v d => ((amoNew op mode w 0 v d).1).getD v) old)) ∧
  (∀ l : Tree, (∀ d ∈ Claims.operands l, d < 2 ^ (8 * w)) →
    (followerValue op mode w old (l.operand op mode w)).1 =
      (Claims.operands l).foldl (fun v d => ((amoNew op mode w 0 v d).1).getD v) old) ∧
  ∀ v d : Nat, (amoNew op mode w 0 v d).2 = 0 ∧ (pairOperand op mode w v d).2 = 0 ∧ (followerValue op mode w v d).2 = 0

/-- R210, R296 to R301: a combinable request that no router before has stopped follows a leader that waits in a router of its path, or
enters the wait buffer of a tower whose window is open; a request whose window has passed leaves the buffer, a pair leaving its split record; a reply that reaches a
split record goes on to both members. When a request waits in a router and how it goes along its path are the model's choice (logs 16
and 57). -/
def Obligations.CombiningEvents : Prop :=
  (∀ (s : State) (op : DevOp) (k : CombKey) (r : Nat), s.b.op? op.id = some op → s.ready s.b op = true →
    s.combKey s.b.bid op = some k → r ∈ s.pathFor s.b.bid k.pa → Claims.Reaches s op k r → s.routers = [] →
    (s.dome (towerOf r)).cwin ≠ 0 → ∃ t,
    exec (.combineArrival r op.id) s = .next t ∧
    t.routers = [⟨r, k, .leaf s.b.bid op.id op.data, s.clk, true, none⟩] ∧ (t.b.op? op.id).map DevOp.stage = some .queued) ∧
  (∀ (s : State) (op : DevOp) (k : CombKey) (r b i d c : Nat), s.b.op? op.id = some op → s.ready s.b op = true →
    s.combKey s.b.bid op = some k → r ∈ s.pathFor s.b.bid k.pa → Claims.Reaches s op k r → s.routers = [⟨r, k, .leaf b i d, c, true, none⟩] →
    (b, i) ≠ (s.b.bid, op.id) → ∃ t, exec (.combineArrival r op.id) s = .next t ∧
    t.routers = [⟨r, k, .pair (.leaf b i d) (.leaf s.b.bid op.id op.data), c, true, none⟩]) ∧
  (∀ (s : State) (k : CombKey) (r c : Nat) (l f : Tree), s.routers = [⟨r, k, .pair l f, c, true, none⟩] →
    l.leader.1 < 768 → c + (s.dome (towerOf r)).cwin ≤ s.clk → ∃ t, exec (.waitBufferRelease r) s = .next t ∧
    t.routers = [⟨r, k, .pair l f, c, false, none⟩]) ∧
  ∀ (s : State) (k : CombKey) (r c v i j dl df : Nat) (fl : Flags) (a b : DevOp), i ≠ j → s.b.bid < 768 →
    s.routers = [⟨r, k, .pair (.leaf s.b.bid i dl) (.leaf s.b.bid j df), c, false, some (v, fl)⟩] →
    s.b.op? i = some a → s.b.op? j = some b → a.id = i → b.id = j →
    let w := if k.w8 then 8 else 4
    let x := followerValue k.op k.mode w v dl
    ∃ t, exec (.splitReply r i) s = .next t ∧ t.routers = [] ∧
      (t.b.op? i).map DevOp.stage = some (.performed v (fl ||| (pairOperand k.op k.mode w dl df).2 ||| x.2)) ∧ (t.b.op? j).map DevOp.stage = some (.performed x.1 0)

/-! ## Chains (R212, R303 to R307) -/

namespace Sys2Proof.Machine.Claims

open Sys2Proof Sys2Proof.Machine

/-- The value a step computes from what its doubleword holds (R212). -/
def stepValue (s : State) (op : DevOp) (pa i : Nat) : Nat :=
  ((ofBytes (s.readPhys pa 8) &&& elem op.data 64 (2 * i)) + elem op.data 64 (2 * i + 1)) % 2 ^ 64

/-- A later step of a chain whose last one was performed in the slice of `pa` finds its doubleword at `pb` (R304). -/
def NextAt (s : State) (op : DevOp) (pa x pb : Nat) : Prop :=
  x % 8 = 0 ∧ s.xlate ⟨[], some (sliceOf pa / 24)⟩ op.ctx x .write false = .ok pb ∧ s.ownerNode pb = none

end Sys2Proof.Machine.Claims

/-- R212, R303 to R307: a step loads its doubleword, masks and adds, and the chain goes on from the value, at once where the same slice
serves it, or ends with it; a misaligned step stops the chain with a report; the return delivers the value, lowers `cnt.ld` and frees
the block's scoreboard entry. -/
def Obligations.ChainedLoadsStep : Prop :=
  (∀ (s : State) (op : DevOp) (pa off m i : Nat) (val : Word), Claims.AtSlice s op pa .write → op.kind = .chain off m i val →
    op.bytes = 0 → op.va % 8 = 0 → op.len = 8 →
    let x := Claims.stepValue s op pa i
    let stands := fun (t : State) => ∃ o, t.b.op? op.id = some o ∧ o.kind = .chain off m (i + 1) (BitVec.ofNat 64 x) ∧ o.va = x ∧
      o.stage = .issued ∧ o.dst = op.dst
    ∃ t, exec (.chainStep op.id) s = .next t ∧ Claims.SameMemory s t ∧
      (i + 1 < m → x % 8 ≠ 0 → stands t) ∧
      (∀ pb, i + 1 < m → x < 2 ^ 52 → Claims.NextAt s op pa x pb → sliceOf pb ≠ sliceOf pa → stands t) ∧
      (∀ pb, i + 2 = m → x < 2 ^ 52 → Claims.NextAt s op pa x pb → sliceOf pb = sliceOf pa → s.poisoned pb 8 = false →
        (t.b.op? op.id).map DevOp.stage = some (.performed (Claims.stepValue s op pb (i + 1)) 0)) ∧
      (m ≤ i + 1 → (t.b.op? op.id).map DevOp.stage = some (.performed x 0))) ∧
  (∀ (s : State) (op : DevOp) (off m i : Nat) (val : Word), s.b.op? op.id = some op → op.kind = .chain off m i val →
    op.stage = .issued → s.ready s.b op = true → s.wq = [] → op.va % 8 ≠ 0 → ∃ t r, exec (.chainStep op.id) s = .next t ∧
    (t.b.op? op.id).map DevOp.stage = some (.failed r) ∧ r.ctr = .ld ∧ r.tr.kind = 4 ∧ r.tr.addr = BitVec.ofNat 64 op.va) ∧
  ∀ (s : State) (op : DevOp) (off m i x n : Nat) (val : Word) (f : Flags), Claims.RunsHere s op → s.b.op? op.id = some op →
    op.kind = .chain off m i val → op.stage = .performed x f → op.dst = .g n → n < 64 → ∃ t,
    exec (.chainReturn op.id) s = .next t ∧ vget 0 t.b.r.g n = BitVec.ofNat 64 x ∧ t.b.cnt.ld = s.b.cnt.ld - 1 ∧
    t.b.op? op.id = none ∧ (∀ h ∈ t.b.score, h.seq ≠ chainSeq s.b.bid op.id) ∧ Claims.SameMemory s t

/-! ## A brick's own events (R154, R192, R221, R225, R268 to R276, R346, R401, R408, R411) -/

/-- R154, R192, R221, R401, R408, R411: results land when their last cycle ends; a stall of 4,096 cycles suspends its task, outside its
handler, with its reason; a spire stall of 256 takes the spire-full trap, which a handler that is enabled for it takes, and which
ends a task that is in its handler or whose handler is not enabled for it; the limits of `armw` and of a grant end their waits. The continuation of a stall that no sy operation makes, and that a limit waits while
the domain is held, are the model's (logs 24 and 94), and so is a record whose page is absent (log 22). -/
def Obligations.BrickTimersAndResults : Prop :=
  (∀ s : State, exec .operationResultWrite s = .next (s.onB Brick.landDue)) ∧
  (∀ (b : Brick) (l m : ResL) (x : Word), b.r.pipe = [⟨0, .res l x⟩] →
    b.landDue.r.pipe = [] ∧ b.landDue.r.res.get m = if m = l then x else b.r.res.get m) ∧
  (∀ (s : State) (st : Stall), s.b.stall = some st → s.b.running = true → 4096 ≤ s.b.timer → s.b.domainHeld = false → s.b.y.inh = false →
    Claims.Quiet s → ∃ t, exec .stallSuspension s = .next t ∧ t.b.running = false ∧
      ∀ pa r, s.recAt s.b.t.ctx s.b.t.recVa = some (pa, r) → recState r = 3 →
        t.readPhys pa 64 = toBytes 64 (recLeave r s.b (if st.reason = .counterFull then s.b.pc else s.b.contAt).toNat 4
          st.reason.code st.wake)) ∧
  (∀ (s : State) (st : Stall), s.b.stall = some st → s.b.running = true → 4096 ≤ s.b.timer → s.b.domainHeld = false → s.b.y.inh = true →
    s.wq = [] → ∃ t, exec .stallSuspension s = .next t ∧ t.b.saving = some (st.reason, st.wake) ∧ t.b.running = true) ∧
  (∀ (s : State) (slot base : Nat), s.b.own.find? (fun o => o.1 == 0) = some (0, slot) → s.b.running = true → 256 ≤ s.b.spTimer →
    s.b.domainHeld = false → s.wq = [] → ∃ t, exec .spireFull s = .next t ∧
    (s.b.y.inh = true ∨ bit s.b.y.tvec.toNat 9 = false → t.b.running = false) ∧
    (s.b.y.inh = false → bit s.b.y.tvec.toNat 9 = true → s.codeBase s.b.t.ctx (fld s.b.y.tvec 31 20) = some base →
      t.b.running = true ∧ t.b.y.inh = true ∧ t.b.pc = s.b.y.tvec.extractLsb' 32 32 ∧ t.b.codeBase = base ∧
      fld (vget 0 t.b.y.trec 0) 7 0 = 0x0A ∧ fld (vget 0 t.b.y.trec 0) 18 16 = slot % 8 ∧
      t.b.y.held = some (s.b.image 0x0A) ∧ t.b.spTimer = 0)) ∧
  (∀ s : State, ∃ t, exec .spireEntryArrival s = .next t ∧ t.b.spq.map SpEnt.data = s.b.spq.map SpEnt.data ∧
    t.b.spAvail = s.b.spAvail ∧ (∀ c ∈ t.b.spFreed, s.b.clk < c) ∧ t.b.r = s.b.r) ∧
  (∀ (s : State) (n : Nat), s.b.own.find? (fun o => o.1 == 2) = some (2, n) → 0 < n → n ≤ s.b.timer →
    exec .armwTimeout s = .next (s.onB (fun b => { b with armTimedOut := true }))) ∧
  ∀ (s : State) (a : Nat), s.b.own.find? (fun o => o.1 == 1) = some (1, a) → 4096 ≤ s.b.acqTimer → s.b.grant = none → ∃ t,
    exec .grantTimeout s = .next t ∧ t.b.grant = some false ∧ (∀ g ∈ t.dome0.grants ++ t.dome1.grants, g.tid ≠ s.b.t.tid)

/-- R258, R264, R268 to R276: the head operation begins with the stores as they stand, releases its ranges, waits for its stream, takes
each B block of a device product from memory, of which rows that its planes leave out are passed by, and completes: `cnt.mx` falls,
the queue moves up, and a cleared region of the accumulator reads zero with every other element as it was. -/
def Obligations.MatrixUnitEvents : Prop :=
  (∀ (s : State) (op : MxOp) (rest : List MxOp), s.b.mxq = op :: rest → op.frozen = false → op.snap = none → ∃ t o,
    exec .mxOpStart s = .next t ∧ t.b.mxq = o :: rest ∧ o.snap = some s.b.loc ∧ o.elapsed = 0 ∧ o.col = 0 ∧ o.desc = op.desc ∧
    t.b.loc = s.b.loc ∧ t.b.r = s.b.r) ∧
  (∀ (s : State) (op : MxOp) (rest : List MxOp), s.b.mxq = op :: rest → op.frozen = false → op.snap ≠ none →
    op.code.isProduct = true → ∃ t o, exec .mxRangeRelease s = .next t ∧ t.b.mxq = o :: rest ∧
      (op.prod.loadEnd ≤ op.elapsed → o.aRel = true) ∧ (op.lastCol ≤ op.col → op.colAt ≤ op.elapsed → o.bRel = true)) ∧
  (∀ (s : State) (op : MxOp) (rest : List MxOp), s.b.mxq = op :: rest → op.frozen = false → op.snap ≠ none →
    op.code.isProduct = true → op.prod.dev = true → op.col < op.lastCol → op.elapsed = op.colAt →
    op.bgot < op.prod.colLen * (op.col + 1) → ∃ t, exec .mxStreamWait s = .next t ∧ t.b.mxq = { op with waiting := true } :: rest) ∧
  (∀ (s : State) (op : MxOp) (rest : List MxOp) (pa : Nat), s.b.mxq = op :: rest → s.b.fetching = some (0, op) →
    s.bSkip op = 0 → s.b.holdsBlock op = false → op.det = none → s.streamPa op op.nextBlock.1 = .ok pa → s.ownerNode pa = none →
    Claims.Quiet s → s.bufs = [] → (∀ o ∈ s.b.dev, o.kind ≠ .bstream) → ∃ t o,
      exec .bStreamDelivery s = .next t ∧ t.b.mxq = o :: rest ∧ op.bgot + s.bPart op ≤ o.bgot ∧
      readBytes o.bbuf op.bgot (s.bPart op) = s.readPhys pa (s.bPart op) ∧ Claims.SameMemory s t ∧ t.b.r = s.b.r ∧
      (op.prod.zs = false → op.prod.et = false → o.bgot = op.bgot + s.bPart op)) ∧
  (∀ (s : State) (op : MxOp), op.prod.zs = false → op.prod.et = false → s.bSkip op = 0 ∧
    s.bPart op = 4 * (min (op.prod.blockLen - op.bgot % op.prod.blockLen) (32 - op.nextBlock.1 % 32) / 4)) ∧
  (∀ (s : State) (op : MxOp) (at_ : Nat), op.prod.zs = true → op.prod.et = false →
    let P := op.prod
    let q := at_ / P.blockLen % P.nq
    let n := at_ / P.blockLen / P.nq
    let row := at_ % P.blockLen / 4
    (s.bWants op at_ = true ↔ row < P.headRows ∨ ∃ i < P.p, row = P.fb.width - P.W + i ∧
      bit (P.bPair (op.snap.getD s.b.loc) q n).1 i = true)) ∧
  ∀ (s : State) (op : MxOp) (rest : List MxOp), s.b.mxq = op :: rest → op.frozen = false → op.snap ≠ none → op.waiting = false →
    op.code = .cclr → fixedCycles .cclr op.desc ≤ op.elapsed → s.b.lpois = [] → s.b.running = true → s.b.t.tid = op.tid →
    regionBad op.desc = false → ∃ t, exec .mxOpComplete s = .next t ∧ t.b.mxq = rest ∧ t.b.cnt.mx = s.b.cnt.mx - 1 ∧
    ∀ bank i j, bank < 2 → i < 256 → j < 256 → accRead t.b.loc.ac bank i j =
      if bank = fld op.desc 32 32 ∧ fld op.desc 7 0 ≤ i ∧ i ≤ fld op.desc 7 0 + fld op.desc 23 16 ∧
        fld op.desc 15 8 ≤ j ∧ j ≤ fld op.desc 15 8 + fld op.desc 31 24
      then 0 else accRead s.b.loc.ac bank i j

namespace Sys2Proof.Machine.Claims

open Sys2Proof Sys2Proof.Machine

/-- The head operation has done its last cycle; nothing has stopped it, and no local word is known to be poisoned. -/
def Finishing (s : State) (op : MxOp) (rest : List MxOp) : Prop :=
  s.b.mxq = op :: rest ∧ op.frozen = false ∧ op.snap ≠ none ∧ op.waiting = false ∧ op.cycles ≤ op.elapsed ∧ op.stop = none ∧
  s.b.lpois = []

/-- The head operation completes: the queue moves up, and every element of both accumulator banks is what `C` says. -/
def Leaves (s t : State) (rest : List MxOp) (C : Nat → Nat → Nat → BitVec 32 → Prop) : Prop :=
  exec .mxOpComplete s = .next t ∧ t.b.mxq = rest ∧
  ∀ bank i j, bank < 2 → i < 256 → j < 256 → C bank i j (accRead t.b.loc.ac bank i j)

/-- The scratchpad and the side bank as they were. -/
def SameStores (s t : State) : Prop :=
  (∀ a, cget 0 t.b.loc.sp a = cget 0 s.b.loc.sp a) ∧ ∀ a, cget 0 t.b.loc.sb a = cget 0 s.b.loc.sb a

/-- Whether an accumulator element lies in the region of a descriptor (R265). -/
def InRegion (desc : Word) (bank i j : Nat) : Prop :=
  bank = fld desc 32 32 ∧ fld desc 7 0 ≤ i ∧ i ≤ fld desc 7 0 + fld desc 23 16 ∧ fld desc 15 8 ≤ j ∧
  j ≤ fld desc 15 8 + fld desc 31 24

/-- An element of C after a product: its groups rounded into it one after another, in increasing k (R257). -/
def GroupByGroup (op : MxOp) (m n : Nat) (old new : BitVec 32) : Prop := ∃ c : Nat → BitVec 32,
  let P := op.prod
  let x := fun g =>
    let S := groupSum (bodyBits P.fa P.fb) P.W ((List.range 16).map (fun i =>
      (P.a op.locals m (16 * g + i), P.b op.locals op.bbuf (16 * g + i) n)))
    (mulNum (mulNum S.1 (P.aScale op.locals m (g / 2)).factor).1 (P.bScale op.locals (g / 2) n).factor).1
  c 0 = old ∧ new = c (P.K / 16) ∧
  ∀ g < P.K / 16, c (g + 1) = (round32 P.mode (if P.acc = false ∧ g = 0 then x g else (addNum (read32 (c g)) (x g)).1)).1

/-- The scale code and the element codes of a block that a drain writes (R281, R284). -/
def blockCodes (D : Drain) (ac : Cells Byte) (u v : Nat) : Nat × List Nat :=
  let cs := (List.range (min 32 (D.X - 32 * v))).map (fun i => read32 (D.elemOf ac u (32 * v + i)))
  if D.q then ((requant D.fd D.sf D.mode cs).1, (requant D.fd D.sf D.mode cs).2.1)
  else (0x7F, cs.map (fun c => (round D.fd D.mode c).1))

/-- The bytes of the scratchpad outside a drain's element destination, and the pairs of the side bank that it does not write, are as
they were (R281 to R283). -/
def DrainFrame (s t : State) (D : Drain) : Prop :=
  (∀ a, (a < D.eo ∨ D.eo + D.destLen ≤ a) → cget 0 t.b.loc.sp a = cget 0 s.b.loc.sp a) ∧
  ∀ a, (D.pairs = false ∨ a < 2 * D.sp ∨ 2 * (D.sp + D.nb * D.Y) ≤ a) → cget 0 t.b.loc.sb a = cget 0 s.b.loc.sb a

end Sys2Proof.Machine.Claims

/-- R257, R264, R265, R281 to R285: what the matrix operations leave at their completion. A product rounds each group into its element
of C, in order; `cacc` adds the other bank and `cscl` scales by a power of two, each with one rounding; `drain` converts every element
to its destination format; and `drainq` requantises each block under the least scale that holds its largest magnitude. -/
def Obligations.MatrixResults : Prop :=
  (∀ (s : State) (op : MxOp) (rest : List MxOp), Claims.Finishing s op rest → op.code.isProduct = true → op.col = op.prod.N →
    op.prod.bad op.desc op.o = false → ∃ t, Claims.Leaves s t rest (fun bank i j c =>
      let P := op.prod
      let old := accRead s.b.loc.ac bank i j
      let mine := bank = P.cb ∧ P.cr ≤ i ∧ i < P.cr + P.M ∧ P.cc ≤ j ∧ j < P.cc + P.N
      (mine → Claims.GroupByGroup op (i - P.cr) (j - P.cc) old c) ∧ (¬ mine → c = old)) ∧ Claims.SameStores s t) ∧
  (∀ (s : State) (op : MxOp) (rest : List MxOp), Claims.Finishing s op rest → op.code = .cacc → regionBad op.desc = false →
    ∃ t, Claims.Leaves s t rest (fun bank i j c =>
      let old := fun bank => accRead s.b.loc.ac bank i j
      (Claims.InRegion op.desc bank i j →
        c = (round32 (fld op.pcw 13 12) (addNum (read32 (old bank)) (read32 (old (1 - bank)))).1).1) ∧
      (¬ Claims.InRegion op.desc bank i j → c = old bank)) ∧ Claims.SameStores s t) ∧
  (∀ (s : State) (op : MxOp) (rest : List MxOp), Claims.Finishing s op rest → op.code = .cscl → regionBad op.desc = false →
    ∃ t, Claims.Leaves s t rest (fun bank i j c =>
      let old := accRead s.b.loc.ac bank i j
      (Claims.InRegion op.desc bank i j →
        c = (round32 (fld op.pcw 13 12) ((read32 old).scale (op.o.truncate 9 : BitVec 9).toInt)).1) ∧
      (¬ Claims.InRegion op.desc bank i j → c = old)) ∧ Claims.SameStores s t) ∧
  (∀ (s : State) (op : MxOp) (rest : List MxOp), Claims.Finishing s op rest → (op.code = .drain ∨ op.code = .drainq) →
    let D := Drain.ofOp op.code op.desc op.pcw
    D.bad op.desc = false → ∃ t, Claims.Leaves s t rest (fun bank i j c => c = accRead s.b.loc.ac bank i j) ∧
      Claims.DrainFrame s t D ∧ ∀ u < D.Y, ∀ v < D.nb,
        let y := Claims.blockCodes D s.b.loc.ac u v
        let b := D.nb * u + v
        let code := fun i => y.2.getD i 0
        (D.lay = 0 → ∀ i < min 32 (D.X - 32 * v), elemAt t.b.loc.sp D.eo D.fd.width (D.X * u + 32 * v + i) = code i) ∧
        (D.lay = 1 → readBytes t.b.loc.sp (D.eo + 4 * D.fd.width * b) (4 * D.fd.width) = blockBytes D.fd code) ∧
        (D.pairs = true → readBytes t.b.loc.sb (2 * (D.sp + b)) 2 = [BitVec.ofNat 8 (writeMask D.fd code), BitVec.ofNat 8 y.1])) ∧
  ∀ (fd : Fmt) (sf m : Nat) (e : Int), sf < 2 → fd.planes.isSome = true → m ≠ 0 →
    let r := chooseScale fd sf (.fin false m e)
    let holds := fun c => Claims.real (.fin false m e) ≤ Claims.real (scaleVal sf c) * Claims.real (maxVal fd)
    (r.2 = false → r.1 ∈ scaleCodes sf ∧ holds r.1 ∧ ∀ c ∈ scaleCodes sf, c < r.1 → ¬ holds c) ∧
    (r.2 = true → ∀ c ∈ scaleCodes sf, ¬ holds c)

/-- R225, R346: an arrival raises the barrier's count, and the last expected one starts the next generation with none arrived; a task
that used `bar` learns the generation in which it counted. -/
def Obligations.BarrierArrivals : Prop := ∀ (s : State) (op : DevOp) (pa idx block w : Nat), Claims.AtSlice s op pa .write →
  op.kind = .bar 0 idx block → op.len = 16 → op.va = block + 16 + 16 * idx → s.resolve op.ctx op.va .read false = .ok pa →
  s.resolve op.ctx op.va .write false = .ok pa → w = ofBytes (s.readPhys pa 16) → bit w 64 = false →
  idx < s.barrierCount op.ctx block → 1 ≤ bits w 15 0 → bits w 31 16 + 1 ≤ bits w 15 0 → ∃ t,
  exec (.barrierArrival op.id) s = .next t ∧ (t.b.op? op.id).map DevOp.stage = some (.performed 0 0) ∧
  (let x := ofBytes (t.readPhys pa 16)
   bits x 15 0 = bits w 15 0 ∧ bit x 64 = false ∧
   (bits w 31 16 + 1 < bits w 15 0 → bits x 31 16 = bits w 31 16 + 1 ∧ bits x 127 96 = bits w 127 96) ∧
   (bits w 31 16 + 1 = bits w 15 0 → bits x 31 16 = 0 ∧ bits x 127 96 = (bits w 127 96 + 1) % 2 ^ 32)) ∧
  (∀ a, (a < pa ∨ pa + 16 ≤ a) → cget 0 t.mem a = cget 0 s.mem a) ∧
  ∀ g : BarWait, s.b.running = true → s.b.t.tid = op.tid → s.b.barWait = some g → g.va = op.va → g.gen = none →
    t.b.barWait = some { g with gen := some (BitVec.ofNat 32 (bits w 127 96)) }


/-! ## Translation, faults and domes (R93 to R105, R108, R110, R426) -/

/-- R93 to R105: TOWER_WALK fills the brick's buffers, or parks the access under a token no other access holds and posts one fault
record; FREPL_RETRY releases a parked access and FREPL_ABORT completes it with kind 0x9; a TLBINV request ends with no buffer in its
scope holding its range, nor a product a page of it; a walk that succeeds ends the lockstep hold, and one parked for 67,200 cycles has its task saved. What buffers keep, which token an access
gets, the walk of a context that does not exist and tokens after a retry are the model's (logs 10, 17, 21 and 56), and so is a leaf that names the second tier (log 98). -/
def Obligations.WalksTokensAndInvalidation : Prop :=
  (∀ (s : State) (op : DevOp) (use : Use) (pa : Nat), s.b.op? op.id = some op → op.kind.use = some use → s.ready s.b op = true →
    op.kind.isChain = false → Claims.Quiet s →
    s.useWalk (if op.isParked then s.walk op.ctx op.va else s.walkIn (towerOf s.b.bid) op.ctx op.va) op.ctx op.va use false = .ok pa →
    ∃ t, exec (.towerWalk op.id) s = .next t ∧ (tlbFind t.b.dtlb op.ctx op.va).isSome = true ∧
    (tlbFind t.b.tlb op.ctx op.va).isSome = true ∧ t.b.dev = s.b.dev ∧ Claims.SameMemory s t) ∧
  (∀ (s : State) (op : DevOp) (use : Use) (rc level : Nat) (pte : Word), s.b.op? op.id = some op → op.kind.use = some use →
    s.ready s.b op = true → op.stage = .issued → op.kind.isChain = false → Claims.Quiet s →
    s.resolveIn (towerOf s.b.bid) op.ctx op.va use false = .error (0, rc, level, pte) → s.faultRoom (towerOf s.b.bid) = true →
    (s.dome (towerOf s.b.bid)).faultOwed = [] → (op.kind.isWrite = true → s.b.replay.length < 16) → s.toks.length < 65535 → ∃ t tok, exec (.towerWalk op.id) s = .next t ∧
    (t.b.op? op.id).map DevOp.stage = some (.parked tok) ∧ (∀ k ∈ s.toks, k.tok ≠ tok) ∧ tok ≠ 0xFFFF ∧
    t.toks = s.toks ++ [⟨tok, .dev s.b.bid op.id, op.va, false, false⟩] ∧
    (t.dome (towerOf s.b.bid)).faultQ = (s.dome (towerOf s.b.bid)).faultQ ++
      [faultRecord s.clk pte.toNat tok s.b.bid op.ctx rc level 0 op.kind.path op.va] ∧ t.b.tlb = s.b.tlb ∧ t.b.dtlb = s.b.dtlb) ∧
  (∀ (s : State) (k : Token) (n id : Nat), s.token k.tok = some k → k.who = .dev n id → k.aborted = false → ∃ t, exec (.freplRetry k.tok) s = .next t ∧
    (t.token k.tok).map Token.released = some true ∧ t.b = s.b) ∧
  (∀ (s : State) (k : Token) (op : DevOp), s.token k.tok = some k → k.who = .dev s.b.bid op.id → k.released = false →
    k.aborted = false → s.routers = [] → s.b.op? op.id = some op → (∀ c r, op.kind ≠ .msd c r) → ∃ t r, exec (.freplAbort k.tok) s = .next t ∧ t.token k.tok = none ∧
    (t.b.op? op.id).map DevOp.stage = some (.failed r) ∧ r.ctr = op.kind.ctr ∧ r.tr.kind = 5 ∧ r.tr.fkind = 9) ∧
  (∀ (s : State) (tower : Nat) (v : Word), fld v 62 60 ≤ 4 → ∃ t, exec (.tlbinv tower v) s = .next t ∧
    (t.dome tower).tlbReq = some v ∧ (t.dome tower).tlbDone = false) ∧
  (∀ (s : State) (tower : Nat) (v : Word), (s.dome tower).tlbReq = some v →
    (∀ b ∈ s.allBricks, ∀ op ∈ b.dev, op.usesRange (invRange v) = false) →
    (∀ e < 34, ∀ c ∈ (s.eng e).ctxs, c.usesRange (invRange v) = false) → ∃ t, exec (.tlbinvDone tower) s = .next t ∧
    (t.dome tower).tlbDone = true ∧ (t.dome tower).tlbReq = none ∧
    (∀ b ∈ t.allBricks, (bit v.toNat 63 = true ∨ towerOf b.bid = tower % 2) → ∀ e ∈ b.itlb ++ b.dtlb ++ b.stlb ++ b.tlb,
      e.inRange (invRange v) = false) ∧
    (∀ b ∈ t.allBricks, (bit v.toNat 63 = true ∨ towerOf b.bid = tower % 2) → ∀ op ∈ b.mxq, op.ctx = (invRange v).1 → ∀ p ∈ op.pages,
      overlaps (4096 * p.1) 4096 (invRange v).2.1 (invRange v).2.2 = false) ∧
    (∀ i < 34, (bit v.toNat 63 = true ∨ engTower i = tower % 2) → ∀ e ∈ (t.eng i).tlb ++ (t.eng i).coreTlb, e.inRange (invRange v) = false) ∧
    ∀ w < 2, (bit v.toNat 63 = true ∨ w = tower % 2) → ∀ e ∈ (t.dome w).walks, e.inRange (invRange v) = false) ∧
  (∀ (s : State) (h : Hold) (pa : Nat), s.b.hold = some h → h.fetch = true → h.tok = none → Claims.Quiet s →
    s.resolve s.b.t.ctx h.va .fetch false = .ok pa → ∃ t, exec .shadowWalk s = .next t ∧ t.b.hold = none ∧
    (tlbFind t.b.itlb s.b.t.ctx h.va).isSome = true ∧ (tlbFind t.b.tlb s.b.t.ctx h.va).isSome = true ∧ t.b.pc = s.b.pc) ∧
  ∀ (s : State) (h : Hold) (tok : Nat), s.b.hold = some h → h.tok = some tok → 67200 ≤ h.cycles → s.b.saving = none →
    s.b.running = true → ∃ t, exec .parkLimit s = .next t ∧ t.b.saving = some (.park, tok)

/-- R108, R110, R143, R385, R426: dome registers read back what is written, without their reserved bits, and a write of zero clears an
error log outside the bricks (log 125 has the numbers under which domes reach those); PREQ asks one brick of the tower to
leave its task; ACTCLR clears the tower's access counters; a thermal sample moves the step of the stack's bricks.
R396, R397, R401, R403, R404: a budget window, once 8,192 cycles long, moves the step of undeclared bricks and clears what they
triggered; a grant that fits
the budget gives the brick its class; a clear domain's power is cut, with its bricks reset, and returns. A sample while the fault queue is
full, and what a gate waits for, are the model's (logs 62 and 63), and so is a brick retired while it runs (log 77). -/
def Obligations.DomesSamplesAndPower : Prop :=
  ((∀ (s : State) (tower num : Nat) (v : Word), ∃ t, exec (.domeRegisterWrite tower num v) s = .next t ∧
    (num = 3 → t.domeReg tower num = some (BitVec.ofNat 64 (fld v 41 16 * 2 ^ 16))) ∧
    (num = 4 → t.domeReg tower num = some (BitVec.ofNat 64 (fld v 15 0))) ∧
    ((num = 6 ∨ num = 7) → t.domeReg tower num = some (BitVec.ofNat 64 (fld v 7 0))) ∧
    (num = 8 → t.domeReg tower num = some (BitVec.ofNat 64 (fld v 3 0))) ∧
    ((num = 9 ∨ num = 0xA ∨ num = 0xB) → t.domeReg tower num = some (BitVec.ofNat 64 (fld v 31 0))) ∧
    (0x10 ≤ num → num ≤ 0x17 → t.domeReg tower num = some (BitVec.ofNat 64 (fld v 15 0))) ∧
    (0x20 ≤ num → num ≤ 0x2F → t.domeReg tower num = some (BitVec.ofNat 64 (fld v 63 63 * 2 ^ 63 + fld v 47 16 * 2 ^ 16))) ∧
    (0x1000 ≤ num → v = 0 → t.logReg num = some 0) ∧ (∀ n, n < 0x1000 ∨ num < 0x1000 ∨ v ≠ 0 ∨ (n - 0x1000) / 2 ≠ (num - 0x1000) / 2 → t.logReg n = s.logReg n) ∧
    (∀ n, n ≠ num → t.domeReg tower n = s.domeReg tower n) ∧ t.b = s.b ∧ Claims.SameMemory s t) ∧
  (∀ (s : State) (tower n : Nat) (v : Word), n = fld v 9 0 → towerOf n = tower % 2 → s.inService n = true → ∃ t,
    exec (.preq tower v) s = .next t ∧ t.brick n = { s.brick n with preq := true } ∧ ∀ m, m ≠ n → t.brick m = s.brick m) ∧
  (∀ (s : State) (tower : Nat), ∃ t, exec (.actclr tower) s = .next t ∧ t.b = s.b ∧ Claims.SameMemory s t ∧
    ∀ line, paTower line = tower % 2 → cget 0 t.acnt (countKey line) = 0) ∧
  ∀ (s : State) (stack deg n : Nat), stack < 12 → s.inServ.hbm.getLsbD stack = true → deg < (s.dome (stack / 6)).tcrit →
    n ∈ stackBricks stack → ∃ t, exec (.thermalSample stack deg) s = .next t ∧
    (t.brick n).stepN = (if (s.dome (stack / 6)).twarn ≤ deg then max ((s.brick n).stepN - 1) 1
      else if deg + 3 < (s.dome (stack / 6)).twarn then min ((s.brick n).stepN + 1) 8 else (s.brick n).stepN)) ∧
  ((∀ (s : State) (d n : Nat), d < 16 → n ∈ domainNumbers d → (s.brick n).cls = none → (s.domain d).winAt + 8192 ≤ s.clk → ∃ t,
    exec (.budgetWindow d) s = .next t ∧ (t.domain d).winAt = s.clk ∧
    (t.brick n).stepD = (let sum := s.heldSum d + s.windowCost d
      if s.dbud d < sum then max ((s.brick n).stepD - 1) 1 else if 8 * sum < 7 * s.dbud d then min ((s.brick n).stepD + 1) 8
      else (s.brick n).stepD) ∧
    ∀ b ∈ t.allBricks, domainOf b.bid = d → b.hiCls = none) ∧
  (∀ (s : State) (d : Nat), s.clk < (s.domain d).winAt + 8192 → exec (.budgetWindow d) s = .next s) ∧
  (∀ (s : State) (d : Nat) (g : Grant), d < 16 → s.headGrant d = some g →
    s.heldSum d - (s.brick g.brick).heldCost + classCost g.cls ≤ s.dbud d → ∃ t, exec (.powerGrant d) s = .next t ∧
    (t.dome (d / 8)).grants = (s.dome (d / 8)).grants.erase g ∧
    (s.b.bid = g.brick → t.b = { s.b with cls := some g.cls, grant := some true, stepD := 8 })) ∧
  (∀ (s : State) (d : Nat), d < 16 → (s.domain d).state = 1 → s.domainClear d = true → ∃ t, exec (.domainGated d) s = .next t ∧
    (t.domain d).state = 2 ∧ ∀ b ∈ t.allBricks, domainOf b.bid = d → b.running = false ∧ b.loc = Locals.clear ∧ b.r = Regs.reset) ∧
  ∀ (s : State) (d : Nat), d < 16 → (s.domain d).state = 3 → (s.domain d).returns ≤ s.clk → (s.domain d).reqs = [] → ∃ t,
    exec (.domainPowerReturn d) s = .next t ∧ (t.domain d).state = 0 ∧
    ∀ b ∈ t.allBricks, domainOf b.bid = d → b.running = false ∧ b.loc = Locals.clear)


/-! ## Copy and collective engines (R111 to R127, R216, R429) -/

/-- R112, R115, R116, R119 to R121, R216: a command goes from the push buffer to its engine's queue and is accepted, a malformed one with
status 3, and dome firmware puts commands of its own there; a fill writes its pattern up to the next sector of its destination and nothing else, and gathers that of a 4 KiB block it covers whole
to write the block at once; a completion releases its context and
hulls, writes its completion word where act 1 names this brick, and lowers `cnt.cp`. How much one event does, how firmware submits, and
that what an aborted gang slice stops ends with status 5, are the model's (logs 68, 76 and 110); so are the checks of fields that a command does not use and the kind of key fault that comes
first (logs 34, 67, 108 and 111). -/
def Obligations.EngineCommands : Prop :=
  (∀ (s : State) (c : Cmd) (rest : List Cmd), s.b.push = c :: rest → (∀ p ∈ s.passed, p.brick ≠ s.b.bid) → c.eng < 34 →
    (s.eng c.eng).takes = true → ∃ t, exec .pushBufferDrain s = .next t ∧ t.b.push = rest ∧
    (t.eng c.eng).queue = (s.eng c.eng).queue ++ [c]) ∧
  (∀ (s : State) (e ctx : Nat) (raw : BitVec 512) (rest : List Item), s.agenda = .firmware e ctx raw :: rest → e < 34 →
    Claims.NothingWaits s → s.power = .on → (s.eng e).takes = true → ∃ t c, step s = .next t ∧ t.agenda = rest ∧ (t.eng e).queue = (s.eng e).queue ++ [c] ∧ c.raw = raw ∧ c.ctx = ctx ∧
    c.firm = true ∧ t.b = s.b) ∧
  (∀ (s : State) (e : Nat) (c : Cmd) (rest : List Cmd), e < 34 → (s.eng e).queue = c :: rest → (s.eng e).ctxs.length < 4 →
    s.upset = none → ∃ t x,
    exec (.engineCommandAccept e) s = .next t ∧ (t.eng e).queue = rest ∧ (t.eng e).ctxs = (s.eng e).ctxs ++ [x] ∧ x.cmd = c ∧
    x.outcome = (if s.malformed c e then some (3, 0) else if c.stopped then some (5, 0) else none)) ∧
  (∀ (s : State) (e : Nat) (x : CmdCtx) (rest : List CmdCtx) (d pa : Nat), e < 34 → (s.eng e).ctxs = x :: rest → x.tok = none →
    x.outcome = none → x.asked = 0 → x.cmd.op = 2 → x.cmd.xform = 0 → x.cmd.ds = 0 → x.cmd.det = none → x.todo = [] → x.k < x.cmd.runs →
    (d : Int) = x.cmd.dst + x.cmd.runOff true x.k + x.off → x.off < x.cmd.run → Claims.Quiet s →
    (coversBlock (x.cmd.dst + x.cmd.runOff true x.k) x.cmd.run d = false → let n := min (x.cmd.run - x.off) (32 - d % 32)
      d + n ≤ 2 ^ 52 → s.xlate (s.engLook e) x.cmd.ctx d .write false = .ok pa → s.ownerNode pa = none → ∃ t y,
      exec (.engineCommandStart e) s = .next t ∧ (t.eng e).ctxs = y :: rest ∧ y.count = x.count + n ∧ y.outcome = none ∧
      (∀ j < n, cget 0 t.mem (pa + j) = BitVec.ofNat 8 (x.cmd.aux / 2 ^ (8 * ((x.off + j) % 4)))) ∧
      (∀ a, (a < pa ∨ pa + n ≤ a) → cget 0 t.mem a = cget 0 s.mem a)) ∧
    (coversBlock (x.cmd.dst + x.cmd.runOff true x.k) x.cmd.run d = true → d % 4096 = 0 → d + 4096 ≤ 2 ^ 52 →
      bufLen x.ahead.buf < 4096 → (∀ p ∈ x.ahead.buf, p.2 = false) → let h := bufLen x.ahead.buf
      let n := 32 - (d + h) % 32
      let buf := x.ahead.buf ++ [((List.range n).map (fun j => BitVec.ofNat 8 (x.cmd.aux / 2 ^ (8 * ((x.off + h + j) % 4)))), false)]
      (h + n < 4096 → ∃ t y, exec (.engineCommandStart e) s = .next t ∧ (t.eng e).ctxs = y :: rest ∧ y.ahead.buf = buf ∧
        y.off = x.off ∧ y.k = x.k ∧ y.count = x.count ∧ y.outcome = none ∧ Claims.SameMemory s t) ∧
      (h + n = 4096 → s.xlate (s.engLook e) x.cmd.ctx d .write true = .ok pa → s.ownerNode pa = none → ∃ t y,
        exec (.engineCommandStart e) s = .next t ∧ (t.eng e).ctxs = y :: rest ∧ y.count = x.count + 4096 ∧ y.outcome = none ∧
        (∀ j < 4096, cget 0 t.mem (pa + j) = (buf.flatMap Prod.fst).getD j 0) ∧
        ∀ a, (a < pa ∨ pa + 4096 ≤ a) → cget 0 t.mem a = cget 0 s.mem a))) ∧
  ∀ (s : State) (e : Nat) (x : CmdCtx) (rest : List CmdCtx), e < 34 → (s.eng e).ctxs = x :: rest → x.outcome = some (0, 0) →
    x.tok = none → x.todo = [] → x.poisoned = false → x.asked = 0 → x.cmd.brick = s.b.bid → s.b.running = true → s.b.t.tid = x.cmd.tid →
    (∀ i ∈ s.images, i.task.tid ≠ x.cmd.tid) → (x.cmd.act = 0 ∨ x.cmd.act = 1) → s.wordHeld x.cmd = false → ∃ t,
    exec (.engineCommandComplete e 0) s = .next t ∧ (t.eng e).ctxs = rest ∧ t.b.cnt.cp = s.b.cnt.cp - 1 ∧
    t.b.reports = s.b.reports ∧ (∀ h ∈ t.b.score, h.seq ≠ x.cmd.scoreSeq) ∧
    (x.cmd.act = 1 → x.cmd.target < 2 ^ 30 → addrBrick x.cmd.target = s.b.bid → s.inService s.b.bid = true →
      s.takesWrites s.b = true → addrOff x.cmd.target % 8 = 0 →
      t.b.loc.read 0 (addrOff x.cmd.target) 8 = toBytes 8 (x.flags.toNat * 2 ^ 8 + e * 2 ^ 16 + min (2 ^ 32 - 1) x.count * 2 ^ 32))

/-- R125 to R127, R423, R429: a routine's ring accesses take or publish bytes, and one beyond the ring's content ends it with status 4,
as a trap, the watchdog and a nonzero `a0` do; its stream core reads and writes its scratch, and an access of it to device memory under a
page that is not present parks the command with a record of its own source and path; the first collective under way ends with status 5; an answer of the host is kept for
the command that waits for it, and a NAK or the retry limit ends it with status 2, kind 0x9, also where it is parked or a higher code was to be its status. A
routine's instructions are those of the standard that the rule names, which the model leaves to a free value; what they reach is the
model's (log 66), and so are the count of a routine that ends in error and what of its output is written (logs 32 and 128), the watchdog in an access, the
layout of parts, and output beyond the nest (logs 31, 107 and 135). -/
def Obligations.RoutinesCollectivesAndAnswers : Prop :=
  (∀ (s : State) (e i : Nat) (x : CmdCtx), e < 34 → s.routine e = some (i, x) →
    (∀ n, n ≤ x.ringIn.length → ∃ t, exec (.streamSbpop e n) s = .next t ∧
      t.cmdAt e i = some { x with ringIn := x.ringIn.drop n, inPos := (x.inPos + n) % 32768, idle := if n = 0 then x.idle else s.clk }) ∧
    (∀ n, x.ringIn.length < n → ∃ t y, exec (.streamSbpop e n) s = .next t ∧ t.cmdAt e i = some y ∧ y.outcome = some (4, 0) ∧
      y.count = (vget 0 x.regs.x 10).toNat) ∧
    (∀ d : Bytes, x.ringOut.length + d.length ≤ 32768 → ∃ t, exec (.streamSbpush e d) s = .next t ∧
      t.cmdAt e i = some { x with
        ringOut := x.ringOut ++ d, outPos := (x.outPos + d.length) % 32768, idle := if d = [] then x.idle else s.clk }) ∧
    (∀ d : Bytes, 32768 < x.ringOut.length + d.length → ∃ t y, exec (.streamSbpush e d) s = .next t ∧ t.cmdAt e i = some y ∧
      y.outcome = some (4, 0) ∧ y.count = (vget 0 x.regs.x 10).toNat) ∧
    (∀ a0 : Word, (a0 ≠ 0 ∨ x.count + x.lateBytes + x.ringOut.length ≠ x.cmd.runs * x.cmd.runBytes) → ∃ t,
      exec (.routineEcall e a0) s = .next t ∧
      t.cmdAt e i = some { x with outcome := some (4, 0), count := a0.toNat, flags := x.flags ||| coreFlags x.regs }) ∧
    (x.count + x.lateBytes + x.ringOut.length = x.cmd.runs * x.cmd.runBytes → ∃ t, exec (.routineEcall e 0) s = .next t ∧
      t.cmdAt e i = some { x with ended := true, flags := x.flags ||| coreFlags x.regs }) ∧
    (x.idle + 2 ^ 24 ≤ s.clk → ∃ t y, exec (.routineWatchdog e) s = .next t ∧ t.cmdAt e i = some y ∧ y.outcome = some (4, 0) ∧
      y.count = (vget 0 x.regs.x 10).toNat) ∧
    (∀ m : Word, ∃ t, exec (.streamCoreTrap e m) s = .next t ∧
      t.cmdAt e i = some { x with outcome := some (4, 0), count := m.toNat, flags := x.flags ||| coreFlags x.regs })) ∧
  (∀ (s : State) (e i : Nat) (x : CmdCtx) (rest : List Item), e < 34 → s.agenda = .coreStep e :: rest → Claims.NothingWaits s →
    s.routine e = some (i, x) →
    (s.coreFetch x = none → ∃ t y, step s = .next t ∧ t.agenda = rest ∧ t.cmdAt e i = some y ∧ y.outcome = some (4, 0) ∧ y.count = 1) ∧
    ∀ w, s.coreFetch x = some w → match Config.coreDo x.regs w with
      | .go r => ∃ t, step s = .next t ∧ t.agenda = rest ∧ t.cmdAt e i = some { x with regs := r }
      | .csr 0x800 none => ∃ t, step s = .next t ∧
        t.cmdAt e i = some { x with regs := Config.coreTook x.regs w (toBytes 8 x.ringIn.length), stepping := false }
      | .csr 0x801 none => ∃ t, step s = .next t ∧
        t.cmdAt e i = some { x with regs := Config.coreTook x.regs w (toBytes 8 (32768 - x.ringOut.length)), stepping := false }
      | .ecall => vget 0 x.regs.x 10 = 0 → x.count + x.lateBytes + x.ringOut.length = x.cmd.runs * x.cmd.runBytes → ∃ t,
        step s = .next t ∧ t.cmdAt e i = some { x with ended := true, flags := x.flags ||| coreFlags x.regs }
      | .illegal => ∃ t y, step s = .next t ∧ t.cmdAt e i = some y ∧ y.outcome = some (4, 0) ∧ y.count = 2
      | _ => ∃ t, step s = .next t ∧ t.agenda = rest ∧ Claims.SameMemory s t) ∧
  (∀ (s : State) (e i : Nat) (x : CmdCtx) (a : CoreAcc) (rest : List Item), e < 34 → s.agenda = .core e a :: rest →
    Claims.NothingWaits s → s.routine e = some (i, x) → coreFits a = true → ∃ t, step s = .next t ∧ t.agenda = rest ∧
    Claims.SameMemory s t ∧ (coreDevice a = true → t.cmdAt e i = some { x with core := some a }) ∧
    (coreIn a 0x20000000 0x4000 = true → ∀ j < a.len, match a.data with
      | some d => cget 0 (t.eng e).scratch (a.addr - 0x20000000 + j) = d.getD j 0
      | none => ∃ y, t.cmdAt e i = some y ∧ y.loaded.getD j 0 = cget 0 (s.eng e).scratch (a.addr - 0x20000000 + j))) ∧
  (∀ (s : State) (e rc level : Nat) (x : CmdCtx) (rest : List CmdCtx) (a : CoreAcc) (pte : Word), e < 32 → (s.eng e).ctxs = x :: rest →
    x.tok = none → x.outcome = none → x.asked = 0 → x.cmd.op = 3 → x.cmd.det = none → x.todo = [] → x.late = [] → x.core = some a →
    coreFits a = true → Claims.Quiet s → a.data = none → s.xlate ⟨(s.eng e).coreTlb, some (engTower e)⟩ x.cmd.ctx (a.addr % 2 ^ 52) .read false = .error (0, rc, level, pte) →
    s.faultRoom (engTower e) = true → (s.dome (engTower e)).faultOwed = [] → ∃ t y tok, exec (.engineCommandStart e) s = .next t ∧
    (t.eng e).ctxs = y :: rest ∧ y.tok = some tok ∧ y.core = some a ∧ Claims.SameMemory s t ∧
    (t.dome (engTower e)).faultQ = (s.dome (engTower e)).faultQ ++
      [faultRecord s.clk pte.toNat tok (0x440 + e) x.cmd.ctx rc level 0 7 (a.addr % 2 ^ 52)]) ∧
  (∀ (s : State) (e : Nat) (x : CmdCtx) (rest : List CmdCtx), e < 34 → (s.eng e).ctxs = x :: rest → x.cmd.op = 4 →
    x.outcome = none → ∃ t y, exec (.collectiveAbort e) s = .next t ∧ (t.eng e).ctxs = y :: rest ∧ y.outcome = some (5, 0) ∧
    y.cmd = x.cmd) ∧
  (∀ (s : State) (e i : Nat) (x : CmdCtx) (n kind : Nat), e < 34 → s.cmdAt e i = some x → 0 < x.asked →
    ((x.outcome = none ∧ x.tok.isSome = true) ∨ (x.outcome = some (n, kind) ∧ (n = 0 ∨ 2 < n))) →
    (∃ t y, exec (.hostResponse e i false []) s = .next t ∧ t.cmdAt e i = some y ∧ y.outcome = some (2, 9) ∧ y.tok = none ∧ y.asked = 0) ∧
    ∃ t y, exec (.retryExhaustion e i) s = .next t ∧ t.cmdAt e i = some y ∧ y.outcome = some (2, 9) ∧ y.tok = none ∧ y.asked = 0) ∧
  ∀ (s : State) (e i : Nat) (x : CmdCtx), e < 34 → s.cmdAt e i = some x → x.outcome = none → x.tok = none → x.asked = 1 → s.upset = none →
    (∀ d : Bytes, x.reading = true → d.length = x.want → ∃ t, exec (.hostResponse e i true d) s = .next t ∧
      t.cmdAt e i = some { x with asked := 0, got := x.got ++ [(d, false)] }) ∧
    (x.reading = false → ∃ t, exec (.hostResponse e i true []) s = .next t ∧ t.cmdAt e i = some { x with asked := 0 }) ∧
    (∃ t, exec (.hostResponse e i false []) s = .next t ∧
      t.cmdAt e i = some { x with asked := 0, got := [], outcome := some (2, 9), undec := false }) ∧
    ∃ t, exec (.retryExhaustion e i) s = .next t ∧
      t.cmdAt e i = some { x with asked := 0, got := [], outcome := some (2, 9), undec := false }


/-! ## From a ready record to a brick, and off it again (R194, R332 to R346, R355 to R364, R386 to R394) -/

namespace Sys2Proof.Machine.Claims

open Sys2Proof Sys2Proof.Machine

/-- A brick that runs a task from its record: pc, guards and g0 to g3 as the record has them, every other register, latch and
pipeline entry zero, and the local stores of another context cleared (R132, R157, R360). -/
def Started (old new : Brick) (t : Task) (r base : Nat) : Prop :=
  new.running = true ∧ new.t.tid = t.tid ∧ new.pc = BitVec.ofNat 32 (recPc r) ∧ new.cbi = recCbi r ∧ new.codeBase = base ∧
  new.r.k = BitVec.ofNat 6 (bits r 7 2) ∧
  (∀ n < 64, vget 0 new.r.g n = if n < 4 then BitVec.ofNat 64 (bits r (319 + 64 * n) (256 + 64 * n)) else 0) ∧
  new.r.v = Vector.replicate 32 0 ∧ new.r.m = Vector.replicate 8 0 ∧ new.r.res = Res.zero ∧ new.r.opd = Opd.zero ∧
  new.r.pipe = [] ∧ new.r.lp = none ∧ new.r.h = old.r.h ∧ new.t.prio = recPrio r ∧ new.t.member = recMember r ∧
  (old.lastCtx = some t.ctx → new.loc = old.loc) ∧
  (∀ c, old.lastCtx = some c → c ≠ t.ctx → new.loc = Locals.clear ∧ new.y.tag = Vector.replicate 256 0)

end Sys2Proof.Machine.Claims

/-- R194, R335, R357 to R360: an exit whose stores are performed leaves its record done and its registration gone; a task whose wait is
over becomes ready and is queued at its priority; a free brick takes an entry of the highest priority that its tower has for it, of its
own quadrant first, or is held for the entry that a tower serves (log 126); a dispatched record runs, and a team entry leaves the queue when its team is placed.
When an exit is reported, and the wakes of scoreboard and matrix stalls, are the model's (logs 36 and 96), and so are a
record's page, a retired brick's task and a local queue's (logs 22, 74 and 77). -/
def Obligations.ReadyTasksReachBricks : Prop :=
  (∀ (s : State) (tid pa r : Nat) (e : Exit) (t : Task), s.exits.find? (fun e => e.task.tid == tid) = some e → s.reg tid = some t →
    s.exitReleased tid = true → s.exposedDone tid = true → t.reports = [] → t.bar = 0 → s.recAt t.ctx t.recVa = some (pa, r) →
    recState r = 3 → Claims.Quiet s → ∃ u, exec (.taskExitReport tid) s = .next u ∧ u.readPhys pa 64 = toBytes 64 (recSet r 6 0 0) ∧
    u.reg tid = none ∧ (∀ x ∈ u.exits, x.task.tid ≠ tid) ∧ (∀ l ∈ s.launches, l.id = t.launch → l.ended 0 ∈ u.launches) ∧
    (∀ a, (a < pa ∨ pa + 64 ≤ a) → cget 0 u.mem a = cget 0 s.mem a) ∧ u.b = s.b) ∧
  (∀ (s : State) (tid pa r : Nat) (t : Task), s.reg tid = some t → (∀ x ∈ s.images, x.task.tid ≠ tid) →
    s.recAt t.ctx t.recVa = some (pa, r) → (recState r = 1 ∧ recDep r = 0 ∨ recState r = 4 ∧
      s.wakeMet t (s.brick t.brick) (recDep r) (recReason r) (bits r 163 128) = true) →
    (s.dome (towerOf t.brick)).spills (recPrio r) = false → Claims.Quiet s → ∃ u e, exec (.taskWake tid) s = .next u ∧
    u.readPhys pa 64 = toBytes 64 (recSet r 2 0 0) ∧
    (u.dome (towerOf t.brick)).hw = (s.dome (towerOf t.brick)).hw ++ [e] ∧ e.recVa = t.recVa ∧ e.ctx = t.ctx ∧ e.kind = 0 ∧
    e.prio = recPrio r ∧ e.quad = quadOf t.brick ∧ u.b = s.b ∧
    ∀ a, (a < pa ∨ pa + 64 ≤ a) → cget 0 u.mem a = cget 0 s.mem a) ∧
  (∀ (s : State), s.b.running = false → s.b.free = true → s.usable s.b.bid = true → s.b.assigned = none → s.b.reserved = none →
    s.b.localQ = [] →
    (∀ e, s.choose s.b.bid = .take e → ∃ u, exec .brickTakesWork s = .next u ∧ u.b = { s.b with assigned := some e } ∧
      (u.dome (towerOf s.b.bid)).hw = (s.dome (towerOf s.b.bid)).hw.erase e ∧ Claims.SameMemory s u) ∧
    ∀ w m, s.choose s.b.bid = .reserve w m → ∃ u, exec .brickTakesWork s = .next u ∧ u.b = { s.b with reserved := some (w, m) } ∧
      Claims.SameMemory s u) ∧
  (∀ (s : State) (n : Nat) (e : QEnt), s.choose n = .take e → e ∈ (s.dome (towerOf n)).hw ∧ e.kind = 0 ∧ s.eligible n e = true ∧
    ∀ x ∈ (s.dome (towerOf n)).hw, x.kind = 0 → s.eligible n x = true → x.prio ≤ 3 →
      x.prio ≤ e.prio ∧ (x.prio = e.prio → x.quad = quadOf n → e.quad = quadOf n)) ∧
  (∀ (s : State) (e : QEnt) (pa r base : Nat) (t : Task), s.b.assigned = some e → e.kind = 0 → s.b.free = true →
    s.usable s.b.bid = true → s.recAt e.ctx e.recVa = some (pa, r) → recState r = 2 → s.taskAt e.ctx e.recVa = some t →
    s.codeBase e.ctx (recCbi r) = some base → Claims.Quiet s → ∃ u, exec .dispatch s = .next u ∧ Claims.Started s.b u.b t r base ∧
    u.b.bid = s.b.bid ∧ u.b.assigned = none ∧ ((∀ l, s.launch? t.launch = some l → bit l.raw.toNat 44 = false) →
      u.readPhys pa 64 = toBytes 64 (recSet r 3 0 0) ∧ ∀ a, (a < pa ∨ pa + 64 ≤ a) → cget 0 u.mem a = cget 0 s.mem a)) ∧
  ∀ (s : State) (tower : Nat) (e : QEnt), s.homeTeam tower = [] → s.holder tower = some e → s.need e ≠ 0 →
    s.teamBricks tower e ≠ none → Claims.Quiet s → ∃ u, exec (.teamDispatch tower) s = .next u ∧
    (u.dome tower).hw = (s.dome tower).hw.erase e ∧
    ∀ (pa r base : Nat) (t : Task), s.teamBricks tower e = some [s.b.bid] → e.kind = 1 → e.cnt = 0 →
      s.recAt e.ctx e.recVa = some (pa, r) → recState r = 2 → s.taskAt e.ctx e.recVa = some t →
      s.codeBase e.ctx (recCbi r) = some base → Claims.Started s.b u.b t r base

/-- R344, R358, R362, R364, R386 to R394: a drained task is saved with all it holds, and restored as it was, or ended when its image
fails; a write meets the saved image; local entries below the queue's priority are recalled; a ring's head returns to hardware; a round
each 2,048 cycles moves quadrant tags alone, half of a difference beyond 16; a retired brick gives its entries back; a team whose slice is over is asked
to leave while another waits. The bytes of an image, poison in one, a save into no slot, what a restore waits for, flags that come late, and
a brick retired while it runs a task or has been given one, are the model's (logs 12, 35, 71, 77, 90, 92, 109 and 127). -/
def Obligations.SavesRestoresAndQueues : Prop :=
  (∀ (s : State) (reason : Reason) (wake : Nat), s.b.saving = some (reason, wake) → s.b.running = true → s.drained = true →
    Claims.Quiet s → ∃ u, exec .preempt s = .next u ∧ u.b.running = false ∧ u.b.saving = none ∧
    (∃ x ∈ u.images, x.task.tid = s.b.t.tid ∧ x.reason = reason ∧ x.wake = wake ∧ x.image.pc = s.b.pc ∧ x.image.r = s.b.r ∧
      x.image.loc = s.b.loc ∧ x.image.y = s.b.y ∧ x.task.cnt = s.b.cnt) ∧
    ∀ pa r, s.recAt s.b.t.ctx s.b.t.recVa = some (pa, r) → recState r = 3 → s.slotFor s.b.t = none → reason ≠ .none → s.images = [] →
      u.readPhys pa 64 = toBytes 64 (recLeave r s.b s.b.pc.toNat 5 reason.code wake)) ∧
  (∀ (s : State) (tid : Nat) (x : Saved) (t : Task) (img : Brick), s.images.find? (fun x => x.task.tid == tid) = some x →
    s.reg tid = some t → s.mayRestore x = true → x.reason ≠ .park → Claims.Quiet s →
    (x.task.slot = none ∧ img = x.image ∨ ∃ n gs, x.task.slot = some n ∧ s.readImage t.ctx n = .ok gs ∧
      img = x.image.loadImage gs) → ∃ u, exec (.restore tid) s = .next u ∧ u.b.running = true ∧ u.b.bid = s.b.bid ∧
    u.b.t.tid = tid ∧ u.b.pc = img.pc ∧ u.b.r = { img.r with h := s.b.r.h } ∧ u.b.loc = img.loc ∧ u.b.y.trec = img.y.trec ∧
    u.b.y.nflg = img.y.nflg ||| t.nflg ∧ u.b.y.held = img.y.held ∧ u.b.cnt = t.cnt ∧ u.b.reports = t.reports ∧
    (∀ y ∈ u.images, y.task.tid ≠ tid) ∧ ∀ pa r, s.recAt t.ctx t.recVa = some (pa, r) → recState r = 5 →
      u.readPhys pa 64 = toBytes 64 (recSet r 3 0 0)) ∧
  (∀ (s : State) (tid n a : Nat) (x : Saved) (t : Task), s.images.find? (fun x => x.task.tid == tid) = some x →
    s.reg tid = some t → s.mayRestore x = true → x.task.slot = some n → s.readImage t.ctx n = .error a →
    Claims.Quiet s → ∃ u, exec (.restore tid) s = .next u ∧ u.b.running = false ∧ u.reg tid = none ∧ ∀ y ∈ u.images, y.task.tid ≠ tid) ∧
  (∀ (s : State) (tid space off : Nat) (data : Bytes) (x : Saved), s.images.find? (fun x => x.task.tid == tid) = some x →
    s.wq = [] → data ≠ [] → space < 3 → off % 64 + data.length ≤ 64 → off + data.length ≤ spaceSize space → ∃ u y, exec (.savedImageWrite tid space off data) s = .next u ∧
    u.images.find? (fun x => x.task.tid == tid) = some y ∧ y.image.loc.read space off data.length = data ∧ y.image.r = x.image.r ∧
    y.task = x.task ∧ (∀ sp o, sp < 3 → (sp ≠ space ∨ o < off ∨ off + data.length ≤ o) →
      y.image.loc.read sp o 1 = x.image.loc.read sp o 1) ∧ u.b = s.b) ∧
  (∀ s : State, ∃ u, exec .localQueueRecall s = .next u ∧
    (∀ l ∈ u.b.localQ, ∀ e ∈ (s.dome (towerOf s.b.bid)).hw, e.kind = 0 → e.quad = quadOf s.b.bid → e.prio ≤ l.prio) ∧
    (∀ l ∈ s.b.localQ, l ∈ u.b.localQ ∨ l ∈ (u.dome (towerOf s.b.bid)).hw) ∧ u.b.r = s.b.r ∧ Claims.SameMemory s u) ∧
  (∀ (s : State) (tower prio pa : Nat) (r : Ring) (e : QEnt) (rest : List QEnt), (∀ k ∈ s.toks, k.who ≠ .ring tower prio) →
    (s.dome tower).hw.length < 4096 → (s.dome tower).oldestRing prio = some r → r.ents = e :: rest →
    (∀ x ∈ rest.head?, x.kind ≠ 3) → Claims.Quiet s →
    s.resolve r.ctx (ringVa (s.queueWord r.ctx).2 (s.queueWord r.ctx).1 tower r.prio r.head) .read false = .ok pa → ∃ u,
    exec (.queueRefill tower prio) s = .next u ∧
    (u.dome tower).hw = (s.dome tower).hw ++ [QEnt.ofWord (ofBytes (s.readPhys pa 16)) e] ∧
    { r with head := r.head + 1, ents := rest } ∈ (u.dome tower).rings ∧ u.b = s.b ∧ Claims.SameMemory s u) ∧
  (∀ (s : State) (tower : Nat), s.clk < (s.dome tower).balAt + 2048 → exec (.balancingRound tower) s = .next s) ∧
  (∀ (s : State) (tower : Nat), (s.dome tower).balAt + 2048 ≤ s.clk → ∃ u, exec (.balancingRound tower) s = .next u ∧
    (u.dome tower).balAt = s.clk ∧
    (u.dome tower).hw.map (fun e : QEnt => { e with quad := 0 }) = (s.dome tower).hw.map (fun e : QEnt => { e with quad := 0 }) ∧
    u.b = s.b ∧ Claims.SameMemory s u) ∧
  (∀ (d : Dome) (a b : Nat), a ≠ b → d.hw.Nodup → (∀ e ∈ d.hw, e.prio ≤ 3) → d.depth b + 16 < d.depth a →
    (d.balance (a, b)).depth a = d.depth a - (d.depth a - d.depth b) / 2 ∧
    (d.balance (a, b)).depth b = d.depth b + (d.depth a - d.depth b) / 2) ∧
  (∀ (s : State) (n : Nat), n < 768 → ∃ u, exec (.brickRetirement n) s = .next u ∧ u.inService n = false ∧
    (u.brick n).localQ = [] ∧ (u.brick n).r = (s.brick n).r ∧ (∀ e ∈ (s.brick n).localQ, e ∈ (u.dome (towerOf n)).hw) ∧
    (∀ m, m ≠ n → u.inService m = s.inService m ∧ (u.brick m).r = (s.brick m).r) ∧
    (s.givenTo (s.brick n) = none → Claims.SameMemory s u ∧ ∀ m, m ≠ n → u.brick m = s.brick m) ∧
    ∀ x, s.givenTo (s.brick n) = some x → ∀ c ∈ u.allBricks, c.running = true → x.task.teamWith c.t = true → c.preq = true) ∧
  ∀ (s : State) (launch : Nat) (b : Brick), s.longestTeam launch = some b → ∃ u, exec (.teamSliceEnd launch) s = .next u ∧
    Claims.SameMemory s u ∧ u.b.r = s.b.r ∧
    (s.teamWaits launch = true → b.t.since + (s.dome (towerOf b.bid)).tslice ≤ s.clk → (∀ p ∈ s.gangNext, s.ftime < p.2) →
      ∀ c ∈ u.allBricks, c.running = true → b.t.teamWith c.t = true → c.preq = true) ∧
    ((s.teamWaits launch = false ∨ s.clk < b.t.since + (s.dome (towerOf b.bid)).tslice ∨ ∃ p ∈ s.gangNext, p.2 ≤ s.ftime) → u = s)


/-! ## Launches, gangs and must-save sets (R337 to R345, R361, R365 to R369, R415, R416, R430 to R432) -/

/-- R337, R340 to R342, R361, R430: a ring wake hands over every entry up to the tail and moves the head; a malformed launch ends at
once; another starts on its records with the next deterministic id where it has that mode; each team made adds its tasks with their
records, behind its block's header; of several contexts' launches any one goes on (log 129); a launch whose tasks have ended writes its completion word and is gone. The first deterministic id, the block of a launch without
barriers, and that a ring is read whole, and when tasks are registered, are the model's (logs 37, 72, 73 and 75). -/
def Obligations.LaunchesExpandAndComplete : Prop :=
  (∀ (s : State) (ctx d va pa n : Nat), s.power = .on → s.ringVaOf ctx = some va → s.ringDesc ctx = some d →
    n = (bits d 63 0 + 2 ^ 64 - bits d 127 64) % 2 ^ 64 → n ≠ 0 → n ≤ ringSize d → bits d 511 264 = 0 → bits d 163 128 = 0 →
    s.paOf ctx (va + 8) .read = some pa → Claims.Quiet s → ∃ u,
    exec (.launchRingWake ctx) s = .next u ∧
    u.ringQ = s.ringQ ++ (List.range n).map (fun k =>
      let i := (bits d 127 64 + k) % 2 ^ 64
      Launch.fresh (s.nextLaunch + k) ctx (((s.readVa ctx (bits d 211 168 * 256 + 256 * (i % ringSize d)) 256).map ofBytes).getD 0)
        (some i)) ∧
    u.readPhys pa 8 = toBytes 8 (bits d 127 64 + n) ∧ (∀ a, (a < pa ∨ pa + 8 ≤ a) → cget 0 u.mem a = cget 0 s.mem a) ∧ u.b = s.b) ∧
  (∀ (s : State) (m : Bool) (l : Launch), (m, l) ∈ s.expandable ↔ if m = true then l ∈ s.launches ∧ l.expanded = false ∧ s.teamFits l = true
    else l ∈ s.ringHeads ∧ s.canStart l = true) ∧
  (∀ s : State, s.power = .on → s.wq = [] → s.expandable = [] → exec .launchExpand s = .next s) ∧
  (∀ s : State, s.power = .on → Claims.Quiet s → s.expandable ≠ [] → ∃ u m l, (m, l) ∈ s.expandable ∧
    exec .launchExpand s = .next u ∧ u.b = s.b ∧
    (m = false → ∃ k, u.launches = s.launches ++ [k] ∧ k.id = l.id ∧ (∀ x ∈ u.ringQ, x.id ≠ l.id) ∧
      (s.launchBad l = true → k.status = 2 ∧ k.expanded = true ∧ Claims.SameMemory s u) ∧
      (s.launchBad l = false → ∀ a p, s.recordsFor l = some (a, p) → k.rbase = a ∧ k.pooled = p ∧
        (l.detBit = true → k.det = some ((s.detId + 1) % 2 ^ 32) ∧ u.detId = (s.detId + 1) % 2 ^ 32) ∧
        (l.detBit = false → k.det = none ∧ u.detId = s.detId))) ∧
    (m = true →
      (∃ k ∈ u.launches, k.id = l.id ∧ k.teamsMade = l.teamsMade + 1 ∧ k.live = l.live + l.tsize ∧
        k.expanded = decide (l.teams ≤ l.teamsMade + 1)) ∧
      u.tasks.length = s.tasks.length + l.tsize ∧
      (∀ j < l.tsize, ∃ t ∈ u.tasks, t.tid = s.nextTid + j ∧ t.recVa = l.rbase + 64 * (l.teamsMade * l.tsize + j) ∧ t.ctx = l.ctx ∧
        t.launch = l.id ∧ t.team = l.teamsMade ∧ t.member = j ∧ t.det = l.det) ∧
      ∀ head hpa pa, head = l.f 371 320 + 64 * l.teamsMade → l.tsize = 1 → l.nbar = 0 → l.times = [] → head % 4096 ≤ 4080 →
        (s.dome (l.teamTower l.teamsMade)).spills (l.f 47 46) = false →
        let rec_ := fun (pa : Nat) =>
          let r := ofBytes (u.readPhys pa 64)
          recState r = 2 ∧ recPc r = l.f 95 64 ∧ recCbi r = l.cbi ∧ recPrio r = l.f 47 46 ∧ recTeam r = l.teamsMade % 2 ^ 32 ∧
          recMember r = 0 ∧ recBar r = 0 ∧ recDep r = 0 ∧ bits r 319 256 = l.f 243 192
        (s.paOf l.ctx head .write = none → s.paOf l.ctx (l.rbase + 64 * l.teamsMade) .write = some pa →
          rec_ pa ∧ ∀ a, (a < pa ∨ pa + 64 ≤ a) → cget 0 u.mem a = cget 0 s.mem a) ∧
        (s.paOf l.ctx head .write = some hpa → (pa + 64 ≤ hpa ∨ hpa + 16 ≤ pa) →
          ({ s with mem := writeBytes s.mem hpa (toBytes 16 (2 ^ 32)) } : State).paOf l.ctx (l.rbase + 64 * l.teamsMade) .write = some pa →
          rec_ pa ∧ u.readPhys hpa 16 = toBytes 16 (2 ^ 32) ∧
          ∀ a, (a < pa ∨ pa + 64 ≤ a) → (a < hpa ∨ hpa + 16 ≤ a) → cget 0 u.mem a = cget 0 s.mem a))) ∧
  ∀ (s : State) (l : Launch), s.launch? l.id = some l → l.expanded = true → l.live = 0 → Claims.Quiet s → ∃ u,
    exec (.launchComplete l.id) s = .next u ∧ u.launch? l.id = none ∧ (l.traceBit = false → l.comp = 0 → Claims.SameMemory s u) ∧
    u.b = s.b ∧ ∀ pa, l.traceBit = false → l.comp ≠ 0 → s.paOf l.ctx l.comp .write = some pa →
      u.readPhys pa 8 = toBytes 8 ((if l.status = 2 then 2 else if 0 < l.nfault + l.nkill then 1 else 0) + l.nkill * 2 ^ 16 +
        l.nfault * 2 ^ 24 + l.ntask * 2 ^ 32) ∧ ∀ a, (a < pa ∨ pa + 8 ≤ a) → cget 0 u.mem a = cget 0 s.mem a

/-- R365, R366: rank 0 names a start at least 100 µs ahead, and no nearer one; at the start the gang team is named and the bricks it
needs are asked to leave their tasks; at its end the team leaves; a member still missing at the skew limit, or an abort received of that
slice, ends it early: the team leaves, its collectives stop, and the saved tasks it displaced go back to their bricks. Which team a
module brings, how members count, and what an aborted slice leaves, are the model's (logs 38 and 76). -/
def Obligations.GangSlices : Prop :=
  (∀ (s : State) (i start : Nat) (g : Group), s.gangGroup i = some g → bit (s.gangReg i).toNat 63 = true → g.rank = 0 →
    (s.ftime + 100000 ≤ start → ∃ u, exec (.gangSliceBroadcast i start) s = .next u ∧
      u.gangNext = s.gangNext.erase (i, start) ++ [(i, start)] ∧ u.b = s.b ∧ Claims.SameMemory s u) ∧
    (start < s.ftime + 100000 → exec (.gangSliceBroadcast i start) s = .next s)) ∧
  (∀ (s : State) (i start w : Nat) (e : QEnt), s.gangNext.find? (fun p => p.1 == i && decide (p.2 ≤ s.ftime)) = some (i, start) →
    bit (s.gangReg i).toNat 63 = true → s.gangTeam i (fld (s.gangReg i) 47 32) = some (w, e) → ∃ u prior,
    exec (.gangSliceStart i) s = .next u ∧ u.gangNext = s.gangNext.erase (i, start) ∧
    u.gangNow = s.gangNow.filter (fun g => !(g.idx == i && g.aborted)) ++
      [⟨i, fld (s.gangReg i) 47 32, start, s.entryTasks e, prior, false, false⟩] ∧
    e ∈ (u.dome w).hw ∧ u.b.r = s.b.r ∧ Claims.SameMemory s u ∧
    ∀ b ∈ u.allBricks, b.running = true → b.bid ∈ s.gangBricks w e → b.preq = true) ∧
  (∀ (s : State) (g : Gang), s.gangNow.find? s.gangOver = some g → ∃ u, exec .gangSliceEnd s = .next u ∧
    g.start + s.dome0.gslice * 20 / 21 ≤ s.ftime ∧ g.aborted = false ∧ u.gangNow = s.gangNow.erase g ∧ u.b.r = s.b.r ∧
    ((∀ x ∈ s.images, x.task.tid ∉ g.team) → Claims.SameMemory s u) ∧
    ∀ b ∈ u.allBricks, b.running = true → b.t.tid ∈ g.team → b.preq = true) ∧
  (∀ s : State, ((∀ g ∈ s.gangNow, g.aborted = true ∨ s.ftime < g.start + s.dome0.gslice * 20 / 21) → exec .gangSliceEnd s = .next s) ∧
    ((∀ g ∈ s.gangNow, g.aborted = true ∨ g.met = true ∨ s.ftime < g.start + s.dome0.gskew * 20 / 21) →
      exec .gangSkewExpiry s = .next s) ∧
    (s.gangStops = [] → exec .gangAbort s = .next s)) ∧
  (∀ (s : State) (g : Gang), s.gangNow.find? s.gangLate = some g →
    (s.gangRuns g = true → exec .gangSkewExpiry s = .next { s with gangNow := s.gangNow.map (fun x => if x = g then { g with met := true } else x) }) ∧
    (s.gangRuns g = false → ∃ u, exec .gangSkewExpiry s = .next u ∧
      u.gangNow = s.gangNow.map (fun x => if x = g then { g with aborted := true } else x) ∧ u.b.r = s.b.r ∧
      ((∀ x ∈ s.images, x.task.tid ∉ g.team) → Claims.SameMemory s u) ∧
      ∀ b ∈ u.allBricks, b.running = true → b.t.tid ∈ g.team → b.preq = true)) ∧
  ∀ (s : State) (i start : Nat) (rest : List (Nat × Nat)), s.gangStops = (i, start) :: rest →
    (s.gangNow.find? (fun g => g.idx == i && g.start == start && !g.aborted) = none →
      exec .gangAbort s = .next { s with gangStops := rest }) ∧
    ∀ g, s.gangNow.find? (fun g => g.idx == i && g.start == start && !g.aborted) = some g → ∃ u, exec .gangAbort s = .next u ∧
      u.gangStops = rest ∧ u.gangNow = s.gangNow.map (fun x => if x = g then { g with aborted := true } else x) ∧ u.b.r = s.b.r ∧
      ((∀ x ∈ s.images, x.task.tid ∉ g.team) → Claims.SameMemory s u) ∧
      (∀ b ∈ u.allBricks, b.running = true → b.t.tid ∈ g.team → b.preq = true) ∧
      (∀ x ∈ u.images, x.task.tid ∈ g.prior → x.reason = .none → x.home = true) ∧
      ∀ e < 34, (∀ c ∈ (u.eng e).ctxs, c.cmd.op = 4 → c.cmd.tid ∈ g.team → c.outcome ≠ none) ∧
        ∀ c ∈ (u.eng e).queue, c.op = 4 → c.tid ∈ g.team → c.stopped = true

/-- R406, R415, R416: a declaration without overlap whose pages are all present and writable replaces its context's set when the total
charge stays within the limit, and is refused with its status otherwise: 3 for a reserved bit or an overlap, 2 for an entry that
faults or comes poisoned or a page that is not writable. Its result reaches the register and `cnt.st` falls. A range
beyond 2^52 is the model's reading (log 83). -/
def Obligations.MustSaveDeclarations : Prop := ∀ (s : State) (op : DevOp) (n reg m : Nat),
  s.power = .on → s.b.op? op.id = some op → op.kind = .msd n reg → op.stage = .issued → op.va < 2 ^ 52 → Claims.RunsHere s op →
  op.dst = .g m → m < 64 → Claims.Quiet s →
  let met := fun i => s.mustRead (towerOf s.b.bid) op.ctx (op.va + 16 * i)
  let word := fun i => (s.readVaNat op.ctx (op.va + 16 * i) 16).getD 0
  let es := (List.range n).map (fun i => mustEntry (word i))
  let page := fun (e : Nat × Nat) i => s.mustPage (towerOf s.b.bid) op.ctx (e.1 + 4096 * i)
  let ends := fun (status : Nat) => ∃ u, exec (.msdComplete op.id) s = .next u ∧ u.b.op? op.id = none ∧ u.b.cnt.st = s.b.cnt.st - 1 ∧
    Claims.SameMemory s u ∧ u.musts = s.musts ∧ vget 0 u.b.r.g m = BitVec.ofNat 64 (status + s.charge * 2 ^ 32)
  let total := s.charge - s.chargeOf op.ctx + (es.map (fun e => 4096 * e.2 + 32 * ceilDiv (4096 * e.2) 65536)).sum
  ((∀ i < n, met i = .fine ∧ mustReserved (word i) = false) → mustOverlap es = false →
    ((∀ e ∈ es, ∀ i < e.2, page e i = .fine) →
      (total ≤ 335544320 → ∃ u, exec (.msdComplete op.id) s = .next u ∧ u.b.op? op.id = none ∧ u.b.cnt.st = s.b.cnt.st - 1 ∧
        Claims.SameMemory s u ∧ u.chargeOf op.ctx = (es.map mustCharge).sum ∧ (∀ x ∈ u.musts, x.ctx = op.ctx → x.ents = es) ∧
        (∀ x ∈ s.musts, x.ctx ≠ op.ctx → x ∈ u.musts) ∧ vget 0 u.b.r.g m = BitVec.ofNat 64 (u.charge * 2 ^ 32)) ∧
      (335544320 < total → ends 1)) ∧
    ((∃ e ∈ es, ∃ i < e.2, page e i = .refused) → ends 2)) ∧
  ((∃ i < n, met i = .refused) → (∀ i < n, met i = .refused ∨ met i = .fine ∧ mustReserved (word i) = false) →
    mustOverlap (((List.range n).filter (fun i => met i == .fine)).map (fun i => mustEntry (word i))) = false → ends 2) ∧
  ((∃ i < n, met i = .fine ∧ mustReserved (word i) = true) → ends 3) ∧
  ((∀ i < n, met i = .fine) → mustOverlap es = true → ends 3)


/-! ## Hold-up, the keep and reset (R132, R413, R414, R417, R419, R439, R441) -/

/-- R413, R414, R417, R419: a freeze performs the stores that can be performed, stops all work, then opens the older bank under the next
sequence and writes its directory; a save adds no more bytes than the time allows; a seal closes the bank; the end of supply leaves the
keep, the fuses and the flash; supply that returns runs the save through its seal first. In which steps hold-up goes, and what the return
of supply does within it, are the model's (logs 78 and 80). -/
def Obligations.HoldUpSequence : Prop :=
  (∀ s : State, s.power = .on → ∃ u, exec .holdupFreeze s = .next u ∧ u.power = .freeze ∧ u.b.running = false ∧ u.peers = [] ∧
    u.tasks = [] ∧ u.launches = [] ∧ u.images = [] ∧ u.wq = [] ∧
    ∀ (op : DevOp) (pa : Nat), Claims.AtSlice s op pa .write → op.kind = .store → op.len ≤ 32 → s.b.dev = [op] → s.routers = [] →
      s.peers = [] → Claims.Masked s u pa op.len op.data op.bytes) ∧
  (∀ s : State, s.power = .freeze → ∃ u, exec .holdupFreeze s = .next u ∧ u.power = .opened ∧
    (u.bank s.bankToWrite).hdr = some (s.nextSeq, false) ∧ (u.bank s.bankToWrite).segs = [] ∧
    (∀ i, i ≠ s.bankToWrite → u.bank i = s.bank i) ∧ Claims.SameMemory s u ∧
    ∀ i q f, (s.bank i).hdr = some (q, f) → i < 2 → q < s.nextSeq) ∧
  (∀ (s : State) (i : Nat), s.power = .opened → s.newest (fun _ => true) = some i → ∃ u, exec .holdupFreeze s = .next u ∧
    u.power = .save ∧ (u.bank i).dirDone = true ∧ (u.bank i).dir = s.directory ∧ (u.bank i).hdr = (s.bank i).hdr ∧
    (∀ j, j ≠ i → u.bank j = s.bank j) ∧ Claims.SameMemory s u) ∧
  (∀ (s : State) (i n : Nat), s.power = .save → s.newest (fun _ => true) = some i → ∃ u, exec (.holdupSave n) s = .next u ∧
    (u.bank i).segs = s.fillSegs (dirSegs (s.bank i).dir) ((s.bank i).written + n) ∧
    (u.bank i).written ≤ (s.bank i).written + n ∧ (u.bank i).hdr = (s.bank i).hdr ∧ (∀ j, j ≠ i → u.bank j = s.bank j) ∧
    Claims.SameMemory s u) ∧
  (∀ (s : State) (i q : Nat) (f : Bool), s.power = .save → s.newest (fun _ => true) = some i → (s.bank i).hdr = some (q, f) →
    (s.bank i).size ≤ (s.bank i).written → ∃ u, exec .holdupSeal s = .next u ∧ u.power = .sealed ∧
    (u.bank i).hdr = some (q, true) ∧ (u.bank i).segs = (s.bank i).segs ∧ (∀ j, j ≠ i → u.bank j = s.bank j)) ∧
  (∀ s : State, s.newest id ≠ some s.bankToWrite) ∧
  (∀ s : State, s.power ≠ .on → s.power ≠ .off → ∃ u, exec .supplyEnd s = .next u ∧ u.power = .off ∧ u.keep = s.keep ∧
    u.sec = s.sec ∧ u.mem = [] ∧ u.b = Brick.reset 0 ∧ u.peers = []) ∧
  ∀ (s : State) (i q : Nat) (f : Bool), s.power = .save → s.newest (fun _ => true) = some i → (s.bank i).hdr = some (q, f) → ∃ u,
    exec .supplyReturn s = .next u ∧ u.power = .on ∧ (u.bank i).hdr = some (q, true) ∧
    (u.bank i).segs = s.fillSegs (dirSegs (s.bank i).dir) ((s.bank i).written + (s.bank i).size) ∧ u.mem = [] ∧
    ∀ j, j ≠ i → u.bank j = s.bank j

/-- R132, R157, R413, R426, R439, R441: a reset leaves every brick without a task, its local stores zero and its registers cleared, the
dome registers at their defaults and no context, launch or token; the keep, the lock fuse, the boot flash and the parts in service
stay. What this model starts from is such a machine. Logs 5 to 7 name the values that the manual does not give, and log 79 what a reset
keeps. -/
def Obligations.ResetLeavesTheMachine : Prop :=
  (∀ s : State, ∃ u, exec .reset s = .next u ∧ u.keep = s.keep ∧ u.inServ = s.inServ ∧ u.sec.locked = s.sec.locked ∧
    u.sec.fw = s.sec.fw ∧ u.sec.level = 0 ∧ u.power = .on ∧
    (∀ n, (u.brick n).running = false ∧ (u.brick n).loc = Locals.clear ∧ (u.brick n).r = Regs.reset ∧ (u.brick n).dev = [] ∧
      (u.brick n).mxq = [] ∧ (u.brick n).y.wakeQ = [] ∧ (∀ e < 256, vget 0 (u.brick n).y.tag e = 0)) ∧
    u.tasks = [] ∧ u.launches = [] ∧ u.toks = [] ∧ (∀ ctx, u.ctxEnt ctx = none)) ∧
  (∀ n tower, (State.reset.brick n).running = false ∧ (∀ i, vget 0 (State.reset.brick n).r.g i = 0) ∧
    (State.reset.brick n).loc = Locals.clear ∧
    State.reset.domeReg tower 6 = some 95 ∧ State.reset.domeReg tower 7 = some 105 ∧ State.reset.domeReg tower 8 = some 0 ∧
    State.reset.domeReg tower 9 = some 2100000 ∧ State.reset.domeReg tower 0xA = some 2100000 ∧
    State.reset.domeReg tower 0xB = some 52500 ∧ State.reset.domeReg tower 4 = some 256 ∧
    ∀ q < 8, State.reset.domeReg tower (0x10 + q) = some 6000) ∧
  State.reset.Inv ∧ State.reset.mem = [] ∧ State.reset.power = .on


/-! ## The host's side: Ethernet ports, management commands, security (R29 to R32, R423 to R431, R438 to R443) -/

namespace Sys2Proof.Machine.Claims

open Sys2Proof Sys2Proof.Machine

/-- A packet leaves on an Ethernet port, or is kept back while the port is paused; nothing else leaves (R423). -/
def Sends (s u : State) (port : Nat) (m : Bytes) : Prop :=
  if s.paused.contains port = true then u.egress = s.egress ++ [(port, m)] ∧ u.out = s.out
  else u.out = s.out ++ [(port, m)] ∧ u.egress = s.egress

/-- An answer to a management command: its header, then its payload (R425). -/
def Answers (s u : State) (h : MgmtHeader) (op status : Nat) (payload : Bytes) : Prop :=
  Sends s u h.port (toBytes 16 (op + status * 2 ^ 8 + h.tag.toNat * 2 ^ 16 + payload.length * 2 ^ 32 + h.arg.toNat * 2 ^ 64) ++ payload)

/-- A command that is heard, taken in this state of the module, and as long as its header says (R425, R441). -/
def Asked (s : State) (h : MgmtHeader) (pl : Bytes) (op : Nat) : Prop :=
  s.hears h = true ∧ (s.sec.recovery = false ∨ op = 1 ∨ op = 0xA ∨ op = 0x10 ∨ op = 0x11) ∧ h.len = pl.length ∧ pl.length ≤ 65536 ∧
  h.status = 0

/-- The management commands with their operation numbers (R427). -/
noncomputable def commands : List ((MgmtHeader → Bytes → Instr) × Nat) :=
  [(.readConfiguration, 1), (.readDomeRegister, 2), (.writeDomeRegister, 3), (.setContext, 4), (.setWindow, 5), (.setRegion, 6),
    (.openKeyTransport, 7), (.loadKey, 8), (.clearKey, 9), (.attest, 0xA), (.debugNonce, 0xB), (.debugUnlock, 0xC),
    (.debugRevoke, 0xD), (.restartReport, 0xE), (.readKeep, 0xF), (.stageFirmware, 0x10), (.commitFirmware, 0x11), (.setGroup, 0x12),
    (.setNode, 0x13), (.readLogs, 0x14)]

/-- Every byte of an operation's range has its place in memory of this module whenever it is asked for, whatever stands in the range. -/
def PortMaps (s : State) (o : PortOp) (ctx pa : Nat) : Prop :=
  ∀ (m : List Host.Cell) (tick : Nat), (∀ a, (a < pa ∨ pa + o.kind.len ≤ a) → cget 0 m a = cget 0 s.mem a) → ∀ i < o.kind.len,
    ({ s with mem := m, tick := tick } : State).xlate o.look ctx (o.va + i) o.kind.use false = .ok (pa + i) ∧ s.ownerNode (pa + i) = none

/-- An operation that its port takes now: its pair waits for nothing, a region of its key holds its range, and the range lies in one page
that the context's tables map for it to memory of this module (R424). -/
def PortReady (s : State) (o : PortOp) (ctx pa : Nat) : Prop :=
  s.portTakes o.port o.qp = true ∧ s.pair o.port o.qp = [] ∧ (s.region o).isSome = true ∧
  (∀ r ∈ s.regions, r.rkey.toNat = o.rkey → r.ctx = ctx) ∧ 0 < o.kind.len ∧ o.va % 4096 + o.kind.len ≤ 4096 ∧ PortMaps s o ctx pa ∧
  s.poisoned pa o.kind.len = false ∧ Quiet s

end Sys2Proof.Machine.Claims

/-- R321, R423, R424: a write request stores its bytes and no others, sector by sector, and is acknowledged; a read answers with the
bytes as they stand, where nothing comes between its sectors; what is left of either waits in its pair (a free value says where one
pauses, log 26). An atomic leaves its new value and answers with the old one; a request outside its region is refused, as are a
misaligned atomic, a request of the management pair and an unsupported packet, and none of them stores; a pause keeps a port's packets
back until it is lifted. What packets carry is free (log 19), and which packets are unsupported is the model's (log 123). -/
def Obligations.EthernetRequests : Prop :=
  (∀ (s : State) (port qp rkey va pa ctx : Nat) (data : Bytes),
    Claims.PortReady s ⟨port, qp, rkey, va, .write data, none, []⟩ ctx pa → ∃ u k, exec (.rdmaWrite port qp rkey va data) s = .next u ∧
    k ≤ data.length ∧ (va % 32 + data.length ≤ 32 → k = data.length) ∧
    u.readPhys pa k = data.take k ∧ (∀ a, (a < pa ∨ pa + k ≤ a) → cget 0 u.mem a = cget 0 s.mem a) ∧
    (k = data.length ∧ u.ports = s.ports ∧ Claims.Sends s u port (Config.packetBytes 16 [qp, 0]) ∨
      0 < k ∧ k < data.length ∧ (va + k) % 32 = 0 ∧ u.out = s.out ∧ u.egress = s.egress ∧
      u.ports = s.ports ++ [⟨port, qp, rkey, va + k, .write (data.drop k), none, []⟩])) ∧
  (∀ (s : State) (port qp rkey va pa ctx len : Nat), Claims.PortReady s ⟨port, qp, rkey, va, .read len [], none, []⟩ ctx pa → ∃ u k,
    exec (.rdmaRead port qp rkey va len) s = .next u ∧ Claims.SameMemory s u ∧
    k ≤ len ∧ (va % 32 + len ≤ 32 → k = len) ∧
    (k = len ∧ u.ports = s.ports ∧ Claims.Sends s u port (Config.packetBytes 17 [qp, len, ofBytes (s.readPhys pa len)]) ∨
      0 < k ∧ k < len ∧ (va + k) % 32 = 0 ∧ u.out = s.out ∧ u.egress = s.egress ∧
      u.ports = s.ports ++ [⟨port, qp, rkey, va + k, .read (len - k) (s.readPhys pa k), none, []⟩])) ∧
  (∀ (s : State) (port qp rkey va pa ctx : Nat) (add : Word), va % 8 = 0 →
    Claims.PortReady s ⟨port, qp, rkey, va, .fetchAdd add, none, []⟩ ctx pa → ∃ u,
    exec (.atomicFetchAdd port qp rkey va add) s = .next u ∧
    ofBytes (u.readPhys pa 8) = (ofBytes (s.readPhys pa 8) + add.toNat) % 2 ^ 64 ∧
    (∀ a, (a < pa ∨ pa + 8 ≤ a) → cget 0 u.mem a = cget 0 s.mem a) ∧
    Claims.Sends s u port (Config.packetBytes 18 [qp, ofBytes (s.readPhys pa 8)])) ∧
  (∀ (s : State) (port qp rkey va pa ctx : Nat) (cmp swap : Word), va % 8 = 0 →
    Claims.PortReady s ⟨port, qp, rkey, va, .cmpSwap cmp swap, none, []⟩ ctx pa → ∃ u,
    exec (.atomicCmpSwap port qp rkey va cmp swap) s = .next u ∧
    ofBytes (u.readPhys pa 8) = (if ofBytes (s.readPhys pa 8) = cmp.toNat then swap.toNat else ofBytes (s.readPhys pa 8)) ∧
    (∀ a, (a < pa ∨ pa + 8 ≤ a) → cget 0 u.mem a = cget 0 s.mem a) ∧
    Claims.Sends s u port (Config.packetBytes 18 [qp, ofBytes (s.readPhys pa 8)])) ∧
  (∀ (s : State) (port qp rkey va : Nat) (data : Bytes), s.portTakes port qp = true → s.pair port qp = [] →
    s.region ⟨port, qp, rkey, va, .write data, none, []⟩ = none → ∃ u, exec (.rdmaWrite port qp rkey va data) s = .next u ∧
    Claims.SameMemory s u ∧ Claims.Sends s u port (Config.packetBytes 16 [qp, 1])) ∧
  (∀ (s : State) (port qp rkey va : Nat) (add cmp swap : Word), s.portTakes port qp = true → va % 8 ≠ 0 →
    (∃ u, exec (.atomicFetchAdd port qp rkey va add) s = .next u ∧ Claims.SameMemory s u ∧ u.ports = s.ports ∧
      Claims.Sends s u port (Config.packetBytes 16 [qp, 2])) ∧
    ∃ u, exec (.atomicCmpSwap port qp rkey va cmp swap) s = .next u ∧ Claims.SameMemory s u ∧ u.ports = s.ports ∧
      Claims.Sends s u port (Config.packetBytes 16 [qp, 2])) ∧
  (∀ (s : State) (port rkey va len : Nat) (data : Bytes), s.portHears port 2 = true →
    (∃ u, exec (.rdmaWrite port 2 rkey va data) s = .next u ∧ Claims.SameMemory s u ∧ Claims.Sends s u port (Config.packetBytes 16 [2, 2])) ∧
    ∃ u, exec (.rdmaRead port 2 rkey va len) s = .next u ∧ Claims.SameMemory s u ∧ Claims.Sends s u port (Config.packetBytes 16 [2, 2])) ∧
  (∀ (s : State) (port qp : Nat) (rest : List Item), s.agenda = .packet port qp .unsupported :: rest → Claims.NothingWaits s →
    s.portHears port qp = true → ∃ u, step s = .next u ∧ u.agenda = rest ∧ Claims.SameMemory s u ∧
    Claims.Sends s u port (Config.packetBytes 16 [qp, 2])) ∧
  ∀ (s : State) (port : Nat), port < 4 → (∃ u, exec (.pauseFrame port true) s = .next u ∧ u.paused.contains port = true ∧
      u.out = s.out ∧ u.egress = s.egress) ∧
    ∃ u, exec (.pauseFrame port false) s = .next u ∧ u.out = s.out ++ s.egress.filter (fun p => p.1 == port) ∧
      (∀ p ∈ u.egress, p.1 ≠ port) ∧ (s.paused.Nodup → u.paused.contains port = false)

/-- R29 to R32, R425 to R430, R434, R438, R441: a command that is not heard has no effect; one that recovery denies answers 2, and one
whose length or status is wrong, or whose operation the table has not, answers 1, with no other effect; the others set or read what they name and answer.
The key of a region, the offsets of the capability entries, statuses that the table does not give, and a command to a port that has not
answered the one before, are the model's (logs 15, 39, 70, 81 and 118). -/
def Obligations.ManagementCommands : Prop :=
  (∀ c ∈ Claims.commands, ∀ (s : State) (h : MgmtHeader) (pl : Bytes),
    (s.hears h = false → exec (c.1 h pl) s = .next s) ∧
    (s.hears h = true → s.sec.recovery = true → inRecovery c.2 = false → ∃ u, exec (c.1 h pl) s = .next u ∧
      Claims.Answers s u h c.2 2 [] ∧ u.b = s.b ∧ u.mem = s.mem ∧ u.sec = s.sec ∧ u.ctxTab = s.ctxTab) ∧
    (s.hears h = true → (s.sec.recovery = false ∨ inRecovery c.2 = true) →
      (h.len ≠ pl.length ∨ 65536 < pl.length ∨ h.status ≠ 0) → ∃ u,
      exec (c.1 h pl) s = .next u ∧ Claims.Answers s u h c.2 1 [] ∧ u.b = s.b ∧ u.mem = s.mem ∧ u.sec = s.sec ∧
      u.ctxTab = s.ctxTab)) ∧
  (∀ (s : State) (h : MgmtHeader) (pl : Bytes) (op : Nat) (rest : List Item), s.agenda = .manage h op pl :: rest →
    Claims.NothingWaits s → (op = 0 ∨ 0x14 < op) → op < 256 → s.hears h = true → s.sec.recovery = false → ∃ u, step s = .next u ∧
    u.agenda = rest ∧ Claims.Answers s u h op 1 [] ∧ u.b = s.b ∧ u.mem = s.mem ∧ u.sec = s.sec) ∧
  (∀ (s : State) (h : MgmtHeader), Claims.Asked s h [] 1 → let off := fld h.arg 31 0
    let n := fld h.arg 63 32
    off % 8 = 0 → n % 8 = 0 → 8 ≤ n → n ≤ 65536 → off + n ≤ 65536 → ∃ u, exec (.readConfiguration h []) s = .next u ∧
    Claims.Answers s u h 1 0 ((s.config.drop off).take n) ∧ u.b = s.b ∧ u.mem = s.mem) ∧
  (∀ (s : State) (h : MgmtHeader), Claims.Asked s h [] 2 → fld h.arg 63 17 = 0 → ∃ u, exec (.readDomeRegister h []) s = .next u ∧
    u.b = s.b ∧ u.mem = s.mem ∧
    (∀ v, s.domeReg (fld h.arg 16 16) (fld h.arg 15 0) = some v → Claims.Answers s u h 2 0 (toBytes 8 v.toNat)) ∧
    (s.domeReg (fld h.arg 16 16) (fld h.arg 15 0) = none → Claims.Answers s u h 2 1 [])) ∧
  (∀ (s : State) (h : MgmtHeader) (v : Word), Claims.Asked s h (toBytes 8 v.toNat) 3 → fld h.arg 63 17 = 0 →
    let num := fld h.arg 15 0
    ∃ u, exec (.writeDomeRegister h (toBytes 8 v.toNat)) s = .next u ∧ u.b.r = s.b.r ∧ u.mem = s.mem ∧
    (num = 0 ∨ num = 1 ∨ num = 3 → Claims.Answers s u h 3 2 [] ∧ u.dome0 = s.dome0 ∧ u.dome1 = s.dome1) ∧
    (num = 4 ∨ 6 ≤ num ∧ num ≤ 0xB ∨ 0x10 ≤ num ∧ num ≤ 0x17 ∨ 0x20 ≤ num ∧ num ≤ 0x2F → Claims.Answers s u h 3 0 [] ∧
      u.dome (fld h.arg 16 16) = (s.dome (fld h.arg 16 16)).write num v ∧
      u.dome (1 - fld h.arg 16 16) = s.dome (1 - fld h.arg 16 16)) ∧
    (num = 0xC → Claims.Answers s u h 3 1 [] ∧ u.dome0 = s.dome0 ∧ u.dome1 = s.dome1)) ∧
  (∀ (s : State) (h : MgmtHeader) (e : BitVec 256), Claims.Asked s h (toBytes 32 e.toNat) 4 → h.arg.toNat < 4096 →
    bits e.toNat 7 3 ≤ 22 → (∀ k ∈ s.keys, k.clearing = none) → s.wq = [] → Claims.NothingWaits s →
    (∀ i < 34, ∀ x ∈ (s.eng i).ctxs, x.todo = []) → ∃ u,
    exec (.setContext h (toBytes 32 e.toNat)) s = .next u ∧
    (bits e.toNat 2 1 = 2 → Claims.Answers s u h 4 2 [] ∧ u.ctxTab = s.ctxTab ∧ u.mem = s.mem) ∧
    (bits e.toNat 2 1 < 2 → Claims.Answers s u h 4 0 [] ∧ cget 0 u.ctxTab h.arg.toNat = e ∧
      (∀ c, c ≠ h.arg.toNat → cget 0 u.ctxTab c = cget 0 s.ctxTab c) ∧
      (bit e.toNat 0 = false → (s.ctxEnt h.arg.toNat).isSome = true → (∀ t ∈ u.tasks, t.ctx ≠ h.arg.toNat) ∧
        (∀ m ∈ u.musts, m.ctx ≠ h.arg.toNat) ∧ ∀ k ∈ u.keys, k.ctx ≠ h.arg.toNat))) ∧
  (∀ (s : State) (h : MgmtHeader) (e : BitVec 256), Claims.Asked s h (toBytes 32 e.toNat) 5 → h.arg.toNat < 256 →
    bits e.toNat 73 1 = 0 → ∃ u, exec (.setWindow h (toBytes 32 e.toNat)) s = .next u ∧ Claims.Answers s u h 5 0 [] ∧
    cget 0 u.win h.arg.toNat = e ∧ (∀ w, w ≠ h.arg.toNat → cget 0 u.win w = cget 0 s.win w) ∧ u.b = s.b ∧ u.mem = s.mem) ∧
  (∀ (s : State) (h : MgmtHeader) (va n : Word), Claims.Asked s h (toBytes 8 va.toNat ++ toBytes 8 n.toNat) 6 →
    h.arg.toNat < 4096 → va.toNat < 2 ^ 52 → n ≠ 0 → ∃ u, exec (.setRegion h (toBytes 8 va.toNat ++ toBytes 8 n.toNat)) s = .next u ∧
    u.b = s.b ∧ u.mem = s.mem ∧
    ((s.ctxEnt h.arg.toNat).isSome = true → ∃ key : BitVec 32, u.regions = s.regions ++ [⟨key, h.arg.toNat, va.toNat, n.toNat⟩] ∧
      Claims.Answers s u h 6 0 (toBytes 4 key.toNat)) ∧
    (s.ctxEnt h.arg.toNat = none → Claims.Answers s u h 6 4 [] ∧ u.regions = s.regions)) ∧
  (∀ (s : State) (h : MgmtHeader) (pl : Bytes) (n rank : Nat), Claims.Asked s h pl 0x12 → n = ofBytes (pl.take 2) →
    rank = ofBytes ((pl.drop 2).take 2) → pl.length = 4 + 2 * n → h.arg.toNat < 65536 → 0 < n → n ≤ 1024 → rank < n →
    (∀ i < n, ofBytes ((pl.drop (4 + 2 * i)).take 2) < 1024) → ∃ u, exec (.setGroup h pl) s = .next u ∧ u.b = s.b ∧ u.mem = s.mem ∧
    (s.groupUsed h.arg.toNat = true → Claims.Answers s u h 0x12 3 [] ∧ u.groups = s.groups) ∧
    (s.groupUsed h.arg.toNat = false → Claims.Answers s u h 0x12 0 [] ∧ u.groups.find? (fun g => g.index == h.arg.toNat) =
      some ⟨h.arg.toNat, rank, (List.range n).map (fun i => ofBytes ((pl.drop (4 + 2 * i)).take 2))⟩)) ∧
  (∀ (s : State) (h : MgmtHeader) (pl : Bytes), Claims.Asked s h pl 0x13 → pl.length = 4100 → h.arg = 0 →
    ofBytes (pl.take 2) < 1024 → ofBytes ((pl.drop 2).take 2) = 0 →
    (∀ i, 4 ≤ i → i < 4100 → (pl.getD i 0).toNat < 36 ∨ pl.getD i 0 = 0xFF) → ∃ u x, exec (.setNode h pl) s = .next u ∧
    Claims.Answers s u h 0x13 0 [] ∧ u.node = some x ∧ x.id = ofBytes (pl.take 2) ∧ u.b = s.b ∧ u.mem = s.mem ∧
    ∀ d < 1024, x.routes.getD d [] =
      ((List.range 4).map (fun i => (pl.getD (4 + 4 * d + i) 0).toNat)).filter (fun l => decide (l < 36))) ∧
  ∀ (s : State) (h : MgmtHeader), Claims.Asked s h [] 0x14 → fld h.arg 31 5 = 0 → fld h.arg 3 0 = 0 →
    let k := min (fld h.arg 63 32) 2048
    let q := (s.dome (fld h.arg 4 4)).faultQ
    ∃ u, exec (.readLogs h []) s = .next u ∧ Claims.Answers s u h 0x14 0 ((q.take k).flatMap (fun r => toBytes 32 r.toNat)) ∧
    (let owed := (s.dome (fld h.arg 4 4)).faultOwed
     (u.dome (fld h.arg 4 4)).faultQ = q.drop k ++ owed.take (1024 - (q.length - k)) ∧
     (u.dome (fld h.arg 4 4)).faultOwed = owed.drop (1024 - (q.length - k))) ∧ (u.dome (fld h.arg 4 4)).trapLog = (s.dome (fld h.arg 4 4)).trapLog ∧ u.b = s.b

/-- R418, R427, R439 to R443: a key loads into an empty slot for its context alone, and a slot that is cleared answers once it is empty;
a debug token opens a level for its context and spends the nonce it names either way; only that level halts a task, whose registers a debugger then reads and writes (log 130); an image is staged, and
committed to the inactive slot; a blown lock fuse revokes the level. Signatures, keys and digests are free values (log 8); a key that
fails to unwrap and an image that fails to verify are the model's cases (logs 80 and 81), and so is an
access that fails two key checks (log 111). -/
def Obligations.SecurityCommands : Prop :=
  (∀ (s : State) (h : MgmtHeader), Claims.Asked s h [] 7 → h.arg = 0 → ∃ u, exec (.openKeyTransport h []) s = .next u ∧
    u.sec.transports = s.sec.transports + 1 ∧ Claims.Answers s u h 7 0 (toBytes 1184 (Config.encapsulationKey (s.sec.transports + 1)).toNat) ∧ u.b = s.b) ∧
  (∀ (s : State) (h : MgmtHeader) (pl : Bytes) (slot ctx : Nat), Claims.Asked s h pl 8 → pl.length = 1128 → slot = fld h.arg 6 0 →
    ctx = fld h.arg 31 16 → slot ≠ 0 → fld h.arg 15 7 = 0 → fld h.arg 63 32 = 0 → ∃ u, exec (.loadKey h pl) s = .next u ∧
    u.b = s.b ∧ u.mem = s.mem ∧
    ((∃ k ∈ s.keys, k.slot = slot) → Claims.Answers s u h 8 3 [] ∧ u.keys = s.keys) ∧
    ((∀ k ∈ s.keys, k.slot ≠ slot) → s.sec.transports ≠ 0 → match Config.unwrapKey s.sec.transports pl with
      | some _ => Claims.Answers s u h 8 0 [] ∧ u.keyLoaded ctx slot = true ∧ ∀ c, c ≠ ctx → u.keyLoaded c slot = false
      | none => u.keys = s.keys)) ∧
  (∀ (s : State) (h : MgmtHeader) (slot : Nat), Claims.Asked s h [] 9 → slot = fld h.arg 6 0 → slot ≠ 0 → fld h.arg 63 7 = 0 →
    ∃ u, exec (.clearKey h []) s = .next u ∧ u.b = s.b ∧
    ((∀ k ∈ s.keys, k.slot ≠ slot) → Claims.Answers s u h 9 0 [] ∧ u.keys = s.keys ∧ u.mem = s.mem) ∧
    ((∃ k ∈ s.keys, k.slot = slot) →
      (s.underSlot slot = true → u.out = s.out ∧ u.egress = s.egress ∧ u.mem = s.mem ∧
        ∀ k ∈ u.keys, k.slot = slot → ∃ l, k.clearing = some l ∧ h ∈ l) ∧
      (s.underSlot slot = false → (∀ k ∈ s.keys, k.clearing = none) →
        Claims.Answers s u h 9 0 [] ∧ (∀ x ∈ u.keys, x.slot ≠ slot) ∧ ∀ c, u.keyLoaded c slot = false))) ∧
  (∀ (s : State) (k : KeySlot) (l : List MgmtHeader), s.keys.find? (fun x => x.slot == k.slot) = some k → k.clearing = some l →
    (s.underSlot k.slot = true → exec (.keySlotCleared k.slot) s = .next s) ∧
    (s.underSlot k.slot = false → ∃ u, exec (.keySlotCleared k.slot) s = .next u ∧ (∀ x ∈ u.keys, x.slot ≠ k.slot) ∧ u.b = s.b ∧
      (∀ c, k.slot ≠ 0 → u.keyLoaded c k.slot = false) ∧ (∀ h, l = [h] → Claims.Answers s u h 9 0 []) ∧
      (l = [] → u.out = s.out ∧ u.egress = s.egress))) ∧
  (∀ (s : State) (h : MgmtHeader) (pl : Bytes), Claims.Asked s h pl 0xA → pl.length = 32 → h.arg = 0 → ∃ u,
    exec (.attest h pl) s = .next u ∧ Claims.Answers s u h 0xA 0 (s.quote pl) ∧ (s.quote pl).take 32 = pl ∧
    (s.quote pl).length = (s.quoteInputs pl).length + 3309 ∧ u.b = s.b ∧ u.sec = s.sec) ∧
  (∀ (s : State) (h : MgmtHeader), Claims.Asked s h [] 0xB → h.arg = 0 → ∃ u x, exec (.debugNonce h []) s = .next u ∧
    u.sec.nonce = some x ∧ x.length = 32 ∧ Claims.Answers s u h 0xB 0 x ∧ u.b = s.b ∧ u.sec.level = s.sec.level) ∧
  (∀ (s : State) (h : MgmtHeader) (pl : Bytes), Claims.Asked s h pl 0xC → pl.length = 3376 → h.arg = 0 → ∃ u,
    exec (.debugUnlock h pl) s = .next u ∧ u.b = s.b ∧
    u.sec.nonce = (if s.sec.nonce = some (((pl.drop 3309).drop 32).take 32) then none else s.sec.nonce) ∧ u.sec.locked = s.sec.locked ∧
    (s.sec.locked = true → s.sec.nonce = none → Claims.Answers s u h 0xC 2 [] ∧ u.sec.level = s.sec.level) ∧
    (s.sec.tokenHolds (pl.take 3309) (pl.drop 3309) = true → Claims.Answers s u h 0xC 0 [] ∧
      u.sec.level = ofBytes ((pl.drop 3373).take 1) ∧ u.sec.dbgCtx = ofBytes ((pl.drop 3374).take 2))) ∧
  (∀ (s : State) (h : MgmtHeader), Claims.Asked s h [] 0xD → h.arg = 0 → ∃ u, exec (.debugRevoke h []) s = .next u ∧
    u.sec.level = 0 ∧ Claims.Answers s u h 0xD 0 [] ∧ u.b = s.b) ∧
  (∀ (s : State) (h : MgmtHeader), Claims.Asked s h [] 0xE → fld h.arg 31 0 = 0 → ∃ u, exec (.restartReport h []) s = .next u ∧
    Claims.Answers s u h 0xE 0 (s.report (fld h.arg 63 32)) ∧ u.keep = s.keep ∧ u.b = s.b) ∧
  (∀ (s : State) (h : MgmtHeader), Claims.Asked s h [] 0xF → fld h.arg 31 1 = 0 → ∃ u, exec (.readKeep h []) s = .next u ∧
    u.keep = s.keep ∧ u.b = s.b ∧
    (let b := s.bank (fld h.arg 0 0)
     ∀ e, (dirSegs b.dir)[fld h.arg 63 32]? = some e →
      (∀ x, b.segs.find? (fun x => x.ctx == e.1 && x.decl == e.2.1 && x.seg == e.2.2.1) = some x → b.locked = s.sec.locked →
        Claims.Answers s u h 0xF 0 x.body) ∧
      ((∀ x ∈ b.segs, (x.ctx, x.decl, x.seg) ≠ (e.1, e.2.1, e.2.2.1)) → Claims.Answers s u h 0xF 4 []))) ∧
  (∀ (s : State) (h : MgmtHeader) (pl : Bytes), Claims.Asked s h pl 0x10 → fld h.arg 63 32 = 0 → ∃ u,
    exec (.stageFirmware h pl) s = .next u ∧ Claims.Answers s u h 0x10 0 [] ∧
    readBytes u.sec.staged (fld h.arg 31 0) pl.length = pl ∧ u.sec.stagedLen = max s.sec.stagedLen (fld h.arg 31 0 + pl.length) ∧
    u.sec.fw = s.sec.fw ∧ u.b = s.b) ∧
  (∀ (s : State) (h : MgmtHeader) (i : Nat), Claims.Asked s h [] 0x11 → h.arg = 0 → s.sec.active = some i → i < 2 →
    let image := readBytes s.sec.staged 0 s.sec.stagedLen
    ∃ u, exec (.commitFirmware h []) s = .next u ∧ u.b = s.b ∧ u.sec.stagedLen = 0 ∧
    vget none u.sec.fw i = vget none s.sec.fw i ∧ u.sec.active = some i ∧
    vget none u.sec.fw (1 - i) = some image ∧ (bootable (some image) = true → Claims.Answers s u h 0x11 0 []) ∧
    (bootable (some image) = false → Claims.Answers s u h 0x11 1 [])) ∧
  (∀ (s : State) (n : Nat), (s.power ≠ .on → exec (.halt n) s = .next s) ∧
    (s.power = .on → s.mayHalt n = false → ∃ status, (status = 2 ∨ status = 4) ∧ (s.sec.level < 2 → status = 2) ∧
      (2 ≤ s.sec.level → ((s.brick n).running = false ∨ s.domState n ≠ 0) → status = 4) ∧
      exec (.halt n) s = .next { s with out := s.out ++ [(40, [BitVec.ofNat 8 status])] }) ∧
    (s.mayHalt n = true → 2 ≤ s.sec.level ∧ (s.brick n).running = true ∧ ∃ u, exec (.halt n) s = .next u ∧ (u.brick n).halted = true ∧
      (u.brick n).r = (s.brick n).r ∧ u.mem = s.mem ∧ u.out = s.out ++ [(40, [0])])) ∧
  (∀ (s : State) (n i : Nat) (v : Word) (rest : List Item), Claims.NothingWaits s → s.mayHalt n = true → (s.brick n).halted = true → i < 64 →
    (s.agenda = .debug n (.readReg i) :: rest → ∃ u, step s = .next u ∧ u.agenda = rest ∧ u.b = s.b ∧
      u.out = s.out ++ [(40, 0 :: toBytes 8 (vget 0 (s.brick n).r.g i).toNat)]) ∧
    (s.agenda = .debug n (.writeReg i v) :: rest → ∃ u, step s = .next u ∧ u.agenda = rest ∧ vget 0 (u.brick n).r.g i = v ∧
      (∀ j, j ≠ i → vget 0 (u.brick n).r.g j = vget 0 (s.brick n).r.g j) ∧ u.mem = s.mem ∧ u.out = s.out ++ [(40, [0])])) ∧
  (∀ (s : State) (n : Nat), (s.brick n).halted = true → (s.domain (domainOf n)).reqs = [] → ∃ u, exec (.haltResume n) s = .next u ∧
    (u.brick n).halted = false ∧ (u.brick n).r = (s.brick n).r ∧ u.mem = s.mem) ∧
  ∀ s : State, ∃ u, exec .lockFuseBlow s = .next u ∧ u.sec.locked = true ∧ (s.sec.locked = false → u.sec.level = 0) ∧ u.b = s.b


/-! ## The fabric (R127, R209, R292, R304 to R307, R365, R433 to R438) -/

namespace Sys2Proof.Machine.Claims

open Sys2Proof Sys2Proof.Machine

/-- A reply to a node is put on the link that its route gives, when one works (R433, R434). -/
def Replies (s u : State) (node : Nat) : Prop :=
  ∀ l, s.linkTo node = some l → (s.link l).unacked.length < (u.link l).unacked.length

/-- A packet sent to a node, with nothing else sent (R433, R434). -/
def Replied (s u : State) (node cls : Nat) (bad : Bool) (fields : List Nat) : Prop :=
  Replies s u node ∧ ∃ v : State, v.links = s.links ∧ v.node = s.node ∧ v.out = s.out ∧ u = v.replyTo node cls bad fields

/-- A request of another module whose bytes lie in this module's HBM under a key that fits, while nothing else of another module is under
way here and memory is quiet (R79, R80, R292). -/
def Served (s : State) (q : FabReq) (pa n : Nat) : Prop :=
  s.fabricOn = true ∧ s.ownsRange pa n = true ∧ s.jobs = [] ∧ s.visits = [] ∧ s.routers = [] ∧ Quiet s ∧
  ∀ i < n, s.keyFault q.ctx q.key (pa + i) false = none

/-- An atomic of another module performed at its slice: what it leaves in memory, and its reply with the old value and the flags (R209). -/
def AtomicServed (s u : State) (q : FabReq) (pa w mode cmp opd : Nat) (code : AmoOp) : Prop :=
  let old := ofBytes (s.readPhys pa w)
  let x := amoNew code mode w (cmp % 2 ^ (8 * w)) old (opd % 2 ^ (8 * w))
  u.b = s.b ∧ u.visits = [] ∧ Replied s u q.src 5 false [q.source, q.tag, old, x.2.toNat, 0, 0] ∧
  ∀ a, cget 0 u.mem a = match x.1 with
    | some y => if pa ≤ a ∧ a < pa + w then BitVec.ofNat 8 (y / 2 ^ (8 * (a - pa))) else cget 0 s.mem a
    | none => cget 0 s.mem a

/-- A combinable atomic of another module taken into a router's wait buffer: it waits there from now on (R296, R297). -/
def TakenAt (s u : State) (q : FabReq) (pa r : Nat) (opd : Word) : Prop :=
  ∃ k, k.pa = pa ∧ k.ctx = q.ctx ∧ k.key = q.key ∧ u.routers = [⟨r, k, .leaf visitor s.tick opd.toNat, s.clk, true, none⟩] ∧
    u.visits.map Visit.id = [s.tick] ∧ SameMemory s u ∧ u.b = s.b ∧ u.links = s.links ∧ u.out = s.out

/-- An access of the brick in focus, whose task runs there, that is away at another module (R434). -/
def Away (s : State) (op : DevOp) : Prop :=
  s.fabricOn = true ∧ op.id < 2 ^ 20 ∧ s.b.op? op.id = some op ∧ op.isRemote = true ∧ RunsHere s op ∧ s.upset = none

end Sys2Proof.Machine.Claims

/-- R209, R210, R292, R296, R304, R307, R321, R433, R434, R438: what another module asks of this one's memory: a store writes its bytes,
sector by sector, poisoned where its data is, and a load reads them so; what is left of either waits where a free value lets others in
between two sectors (log 26). An atomic leaves its new value; a combinable one does too, unless a router on its way takes it; the last
step of a chain returns its value to the brick that asked; each is answered, what a key does not admit with its kind. A time from a
lower node is followed to within 1 µs, and the lowest node sends its own every 10 µs; a collective keeps a rank's contribution; a gang
slice's start and another member's abort are kept. Which numbers the packets carry, the walk of a visiting chain, a path from a link and
a contribution that nothing awaits are the model's choice (logs 16, 19, 29, 38, 41, 42 and 45); so are the owner
of a frame's bytes at a port and the order of two key checks (logs 65 and 111). -/
def Obligations.FabricRequests : Prop :=
  (∀ (s : State) (q : FabReq) (pa : Nat) (data : Bytes) (bad : Bool), Claims.Served s q pa data.length → ∃ u k,
    exec (.fabricStore q.toFabSource pa q.toFabAccess ⟨data, bad⟩ q.tag) s = .next u ∧ u.b = s.b ∧
    k ≤ data.length ∧ (pa % 32 + data.length ≤ 32 → k = data.length) ∧
    u.readPhys pa k = data.take k ∧ (∀ a, (a < pa ∨ pa + k ≤ a) → cget 0 u.mem a = cget 0 s.mem a) ∧
    (bad = true → ∀ line ∈ linesOf pa k, line ∈ u.pois) ∧
    (k = data.length ∧ u.jobs = [] ∧ Claims.Replied s u q.src 10 false [q.source, q.tag, 0, 0] ∨
      0 < k ∧ k < data.length ∧ (pa + k) % 32 = 0 ∧ u.links = s.links ∧ u.out = s.out ∧
      ∃ good, u.jobs = [⟨q, pa + k, some (data.drop k), 0, [], bad, good⟩])) ∧
  (∀ (s : State) (q : FabReq) (pa len : Nat), Claims.Served s q pa len → ∃ u k,
    exec (.fabricLoad q.toFabSource pa q.toFabAccess len q.tag) s = .next u ∧ Claims.SameMemory s u ∧ u.b = s.b ∧
    k ≤ len ∧ (pa % 32 + len ≤ 32 → k = len) ∧
    (k = len ∧ u.jobs = [] ∧ Claims.Replied s u q.src 2 (s.poisoned pa len) [q.source, q.tag, 0, 0, ofBytes (s.readPhys pa len)] ∨
      0 < k ∧ k < len ∧ (pa + k) % 32 = 0 ∧ u.links = s.links ∧ u.out = s.out ∧
      u.jobs = [⟨q, pa + k, none, len - k, s.readPhys pa k, s.poisoned pa k, []⟩])) ∧
  (∀ (s : State) (q : FabReq) (pa n kind : Nat) (data : Bytes) (bad : Bool), s.fabricOn = true → s.jobs = [] →
    s.keyFault q.ctx q.key pa false = some kind →
    (s.ownsRange pa data.length = true → ∃ u, exec (.fabricStore q.toFabSource pa q.toFabAccess ⟨data, bad⟩ q.tag) s = .next u ∧
      Claims.SameMemory s u ∧ u.b = s.b ∧ Claims.Replied s u q.src 10 false [q.source, q.tag, 1, kind]) ∧
    (s.ownsRange pa n = true → ∃ u, exec (.fabricLoad q.toFabSource pa q.toFabAccess n q.tag) s = .next u ∧
      Claims.SameMemory s u ∧ u.b = s.b ∧ Claims.Replied s u q.src 2 false [q.source, q.tag, 1, kind])) ∧
  (∀ (s : State) (q : FabReq) (pa op mode : Nat) (w8 : Bool) (opd cmp : Word) (bad : Bool) (code : AmoOp), amoOfCode op = some code →
    let w := if w8 then 8 else 4
    pa % w = 0 → Claims.Served s q pa w →
    (s.poisoned pa w = false → bad = false → ∃ u, exec (.fabricAtomic q pa op w8 mode opd cmp false) s = .next u ∧
      Claims.AtomicServed s u q pa w mode cmp.toNat opd.toNat code) ∧
    ((s.poisoned pa w = true ∨ bad = true) → ∃ u, exec (.fabricAtomic q pa op w8 mode opd cmp bad) s = .next u ∧
      Claims.SameMemory s u ∧ u.b = s.b ∧ pa / 64 * 64 ∈ u.pois ∧ Claims.Replied s u q.src 5 false [q.source, q.tag, 0, 0, 2, 0])) ∧
  (∀ (s : State) (q : FabReq) (pa op mode kind : Nat) (w8 bad : Bool) (opd cmp : Word), (amoOfCode op).isSome = true →
    s.fabricOn = true → s.ownsRange pa (if w8 then 8 else 4) = true → pa % (if w8 then 8 else 4) = 0 → s.wq = [] → s.visits = [] →
    s.routers = [] → s.keyFault q.ctx q.key pa false = some kind → ∃ u,
    exec (.fabricAtomic q pa op w8 mode opd cmp bad) s = .next u ∧ Claims.SameMemory s u ∧ u.b = s.b ∧
    Claims.Replied s u q.src 5 false [q.source, q.tag, 0, 0, 1, kind]) ∧
  (∀ (s : State) (q : FabReq) (pa op mode : Nat) (w8 : Bool) (opd : Word) (code : AmoOp), op ≠ 9 → amoOfCode op = some code →
    let w := if w8 then 8 else 4
    pa % w = 0 → Claims.Served s q pa w → s.poisoned pa w = false → ∃ u,
    exec (.fabricCombinableAtomic q pa op w8 mode opd false) s = .next u ∧
    (Claims.AtomicServed s u q pa w mode 0 opd.toNat code ∨ ∃ r ∈ pathIn q.link pa, Claims.TakenAt s u q pa r opd) ∧
    ((∀ r ∈ pathIn q.link pa, (s.dome (towerOf r)).cwin = 0) → (∀ i, Config.portBusy (s.tick + i) = false) →
      Claims.AtomicServed s u q pa w mode 0 opd.toNat code) ∧
    ∀ r, (pathIn q.link pa).head? = some r → (s.dome (towerOf r)).cwin ≠ 0 → Claims.TakenAt s u q pa r opd) ∧
  (∀ (s : State) (link : Nat) (p : Bytes) (h : Hop) (op : DevOp) (pa : Nat), s.fabricOn = true → s.hops = [] →
    Hop.ofPacket p = some h → packetCheck p = chainCheck p → h.addr % 8 = 0 →
    s.xlate ⟨[], some (linkTower link)⟩ h.ctx h.addr .write false = .ok pa → s.ownerNode pa = none → Claims.Quiet s →
    s.poisoned pa 8 = false → h.i + 1 = h.n → (s.node.map Node.id) = some h.node → h.brick = s.b.bid →
    s.b.away h.tag = some op → ∃ u, exec (.fabricChainStep ⟨link, p⟩) s = .next u ∧ Claims.SameMemory s u ∧ u.b.r = s.b.r ∧
    (u.b.op? op.id).map DevOp.stage = some (.performed (((ofBytes (s.readPhys pa 8) &&& elem h.steps 64 (2 * h.i)) +
      elem h.steps 64 (2 * h.i + 1)) % 2 ^ 64) 0)) ∧
  (∀ (s : State) (link e rank : Nat) (data : Bytes) (bad : Bool) (x : CmdCtx) (rest : List CmdCtx) (g : Group), s.fabricOn = true →
    e < 34 → (s.eng e).ctxs = x :: rest → x.cmd.op = 4 → x.outcome = none → (∀ p ∈ x.parts, p.1 ≠ rank) → s.upset = none →
    s.groupOf x.cmd = some g → rank < g.nodes.length → rank ≠ g.rank → ∃ u,
    exec (.fabricCollective e rank ⟨⟨data, bad⟩, link⟩) s = .next u ∧
    (u.eng e).ctxs = { x with parts := x.parts ++ [(rank, data)], poisoned := x.poisoned || bad } :: rest ∧ u.b = s.b ∧
    Claims.SameMemory s u) ∧
  (∀ (s : State) (src time : Nat) (n : Node), s.power = .on → s.node = some n → time < 2 ^ 64 → ∃ u,
    exec (.fabricControl src none time) s = .next u ∧ u.b = s.b ∧ Claims.SameMemory s u ∧
    (src < n.id → u.ftime < 2 ^ 64 ∧ (u.ftime + 2 ^ 64 + 1000 - time) % 2 ^ 64 ≤ 2000) ∧ (n.id ≤ src → u.ftime = s.ftime)) ∧
  (∀ (s : State) (src i time : Nat) (g : Group), s.fabricOn = true → i < 16 → s.gangGroup i = some g →
    (bit (s.gangReg i).toNat 63 = true → g.rank ≠ 0 → g.nodes.head? = some src → ∃ u,
      exec (.fabricControl src (some i) time) s = .next u ∧ (i, time) ∈ u.gangNext ∧ (∀ p ∈ s.gangNext, p ∈ u.gangNext) ∧
      u.gangNow = s.gangNow ∧ u.b = s.b ∧ Claims.SameMemory s u) ∧
    (src ∈ g.nodes → exec (.fabricControl src (some (i + 16)) time) s = .next { s with gangStops := s.gangStops ++ [(i, time)] })) ∧
  ∀ s : State, s.fabricOn = true →
    (s.node.any Node.lowest = true → s.syncAt + 10000 ≤ s.ftime → ∃ u, exec .fabricTimeSync s = .next u ∧ u.ftime = s.ftime ∧
      u.syncAt = s.ftime ∧ (∀ l < 36, (s.link l).up = true → (s.link l).unacked.length < (u.link l).unacked.length) ∧ u.b = s.b) ∧
    (s.node.any Node.lowest = false ∨ s.ftime < s.syncAt + 10000 → exec .fabricTimeSync s = .next s)

/-- R204, R294, R307, R321, R433 to R437: what comes back from another module is kept with the access that asked, of a 256-byte access
sector by sector, and the access's delivery puts it in the register that was bound and lowers the counter; a store's acknowledgement
lowers it at once. A flit is taken in sequence alone and acknowledged in a flit of class 10, a bad one is counted and asked for again; a
link trains at full width, gives up or takes back lanes one step at a time, and fails what only it could carry when it goes down. What
the acknowledgements carry, the snapshot lines of another module, flits that cannot be used and the measure of a link's use are the
model's choice (logs 19, 40, 43, 84 and 85). -/
def Obligations.FabricAnswersAndLinks : Prop :=
  (∀ (s : State) (op : DevOp) (sg : Bool) (data : Bytes) (link : Nat), Claims.Away s op → op.kind = .load sg →
    let x := if data.length = op.len then ofBytes data else ofBytes data / 2 ^ (8 * (op.va % 64)) % 2 ^ (8 * op.len)
    (op.len ≤ 32 → (data.length = op.len ∨ data.length = (linesOf op.data op.len).length * 64) → ∃ u o val,
      exec (.fabricLoadReply op.id data ⟨link, 0, 0⟩) s = .next u ∧ u.b.op? op.id = some o ∧ o.stage = .performed val 0 ∧ o.dst = op.dst ∧
      val / 2 ^ (8 * (op.va % 64)) % 2 ^ (8 * op.len) = x ∧ u.b.r = s.b.r ∧ u.b.cnt = s.b.cnt ∧ Claims.SameMemory s u ∧
      ∀ n, op.dst = .g n → n < 64 → 1 ≤ op.len → op.len ≤ 8 → ∃ w, exec (.deviceLoadComplete ⟨op.id, false⟩) u = .next w ∧
        Claims.Extended sg op.len x (vget 0 w.b.r.g n) ∧ (∀ j, j ≠ n → vget 0 w.b.r.g j = vget 0 s.b.r.g j) ∧
        w.b.cnt.ld = s.b.cnt.ld - 1 ∧ w.b.op? op.id = none ∧ Claims.SameMemory s w) ∧
    (op.len = 256 → data.length = 32 → ∃ u o, exec (.fabricLoadReply op.id data ⟨link, 0, 0⟩) s = .next u ∧ u.b.op? op.id = some o ∧
      o.acc = op.acc + ofBytes data * 2 ^ (256 * op.turn) ∧ o.sect = (op.sectorDone op.turn o.acc).sect ∧
      o.stage = (if (op.sectorDone op.turn o.acc).sectorsLeft = [] then .performed o.acc 0 else .issued) ∧ u.b.r = s.b.r ∧
      u.b.cnt = s.b.cnt ∧ Claims.SameMemory s u)) ∧
  (∀ (s : State) (op : DevOp) (code : AmoOp) (comb nr : Bool) (mode cmp n : Nat) (old : Word) (f : BitVec 7), Claims.Away s op →
    s.routers = [] → op.kind = .amo code comb mode nr cmp → (op.len = 4 ∨ op.len = 8) → ∃ u,
    exec (.fabricAtomicReply op.id old f 0 0) s = .next u ∧ u.b.r = s.b.r ∧ u.b.cnt = s.b.cnt ∧ Claims.SameMemory s u ∧
    (u.b.op? op.id).map DevOp.stage = some (.performed (old.toNat % 2 ^ (8 * op.len)) f) ∧
    (op.dst = .g n → n < 64 → ∃ w, exec (.deviceAccessReply op.id) u = .next w ∧
      vget 0 w.b.r.g n = BitVec.ofNat 64 (old.toNat % 2 ^ (8 * op.len)) ∧ w.b.y.nflg = s.b.y.nflg ||| f.zeroExtend 64 ∧
      w.b.cnt.st = s.b.cnt.st - 1 ∧ w.b.op? op.id = none ∧ Claims.SameMemory s w)) ∧
  (∀ (s : State) (op : DevOp) (off m i step addr n : Nat) (v val : Word), Claims.Away s op → op.kind = .chain off m i v → ∃ u,
    exec (.fabricChainReturn op.id 0 0 step addr val) s = .next u ∧ u.b.r = s.b.r ∧ u.b.cnt = s.b.cnt ∧ Claims.SameMemory s u ∧
    (u.b.op? op.id).map DevOp.stage = some (.performed val.toNat 0) ∧
    (op.dst = .g n → n < 64 → ∃ w, exec (.chainReturn op.id) u = .next w ∧ vget 0 w.b.r.g n = val ∧
      w.b.cnt.ld = s.b.cnt.ld - 1 ∧ w.b.op? op.id = none ∧ Claims.SameMemory s w)) ∧
  (∀ (s : State) (op : DevOp), Claims.Away s op → op.kind = .store → s.routers = [] →
    (op.dst = .none → (op.len ≤ 32 ∨ (op.sectorDone op.turn op.acc).sectorsLeft = []) → ∃ u,
      exec (.fabricAcknowledgement ⟨op.id, 0, 0⟩) s = .next u ∧
      u.b.op? op.id = none ∧ u.b.cnt.st = s.b.cnt.st - 1 ∧ u.b.cnt.ld = s.b.cnt.ld ∧ u.b.r = s.b.r ∧ Claims.SameMemory s u) ∧
    (op.len = 256 → (op.sectorDone op.turn op.acc).sectorsLeft ≠ [] → ∃ u, exec (.fabricAcknowledgement ⟨op.id, 0, 0⟩) s = .next u ∧
      u.b.op? op.id = some (op.sectorDone op.turn op.acc) ∧ u.b.cnt = s.b.cnt ∧ Claims.SameMemory s u)) ∧
  (∀ (s : State) (l : Nat) (f : Bytes), s.linkHere l = true → (s.link l).up = true → f.length = 256 →
    let h := ofBytes (f.take 12)
    let said := fun (u : State) => ∃ a : Bytes, a.length = 256 ∧ bits (ofBytes (a.take 12)) 75 72 = 10 ∧ u.out = s.out ++ [(4 + l, a)]
    ∃ u, exec (.flitReceive l f) s = .next u ∧ u.b = s.b ∧ Claims.SameMemory s u ∧
    (flitGood f = false → (u.link l).errs = (s.link l).errs + 1 ∧ (u.link l).rseq = (s.link l).rseq ∧ said u) ∧
    (flitGood f = true → bits h 75 72 = 10 → (u.link l).unacked = (s.link l).unacked.drop (Config.linkAnswer f).1 ∧
      (u.link l).rseq = (s.link l).rseq ∧ (u.link l).errs = (s.link l).errs) ∧
    (flitGood f = true → bits h 75 72 ≠ 10 → bits h 47 32 = (s.link l).rseq →
      (u.link l).rseq = ((s.link l).rseq + 1) % 65536 ∧ (u.link l).errs = (s.link l).errs ∧ said u) ∧
    (flitGood f = true → bits h 75 72 ≠ 10 → bits h 47 32 ≠ (s.link l).rseq → u = s)) ∧
  (∀ (s : State) (l : Nat) (c : Bool), s.linkHere l = true → (s.link l).up = false → ∃ u, exec (.linkTraining l c) s = .next u ∧
    (u.link l).up = true ∧ (u.link l).lanes = 4 ∧ (u.link l).combines = c ∧ (u.link l).lseq = 0 ∧ (u.link l).rseq = 0 ∧
    (∀ j, j ≠ l → u.link j = s.link j) ∧ u.b = s.b) ∧
  (∀ (s : State) (l use : Nat), s.linkHere l = true → (s.link l).up = true →
    ((s.link l).lanes = 1 ∨ (s.link l).lanes = 2 ∨ (s.link l).lanes = 4) → ∃ u, exec (.linkLaneChange l use) s = .next u ∧
    u.b = s.b ∧ (u.link l).lanes = (if use < 25 then max 1 ((s.link l).lanes / 2) else if 75 < use then min 4 (2 * (s.link l).lanes)
      else (s.link l).lanes)) ∧
  ∀ (s : State) (l : Nat), l < 36 → (s.link l).up = true → ∃ u, exec (.linkDown l) s = .next u ∧ (u.link l).up = false ∧
    u.b.r = s.b.r ∧ Claims.SameMemory s u ∧ ∀ op ∈ s.b.dev, ∀ node, op.stage = .remote node → u.lost node = true →
      ∃ o ∈ u.b.dev, o.id = op.id ∧ ∃ r, o.stage = .failed r ∧ r.tr.kind = 5 ∧ r.tr.fkind = 0xB


/-! ## The whole machine -/

/-- R145 to R147, R149 to R152: the slots of the spec's worked bundle, and one word of each family, decode to what they stand for. -/
def Obligations.DecodedWords : Prop :=
  (bundleSlots 0x80000080000001500A9103FD202C44002840756789701234).map (fun w => (decodeSlot w).toOption) =
    [some (.literalSignExtending 0x01234), some (.literalSignExtending 0x56789), some (.move .always .lit (.g 10)),
      some (.move (.on 1) (.ix 0) (.g 11)), some (.move (.off 0) (.imm 0x1FD) (.opd .ia0o)),
      some (.move .always (.g 10) (.k 3)), some .emptySlot, some .emptySlot] ∧
  (decodeSlot 0x030001).toOption = some (.iaAdd .always .ia1 (.g 1)) ∧ (decodeSlot 0x040C02).toOption = some (.agPre .always (.g 2)) ∧
  (decodeSlot 0x148003).toOption = some (.lsSldB (.on 0) (.g 3)) ∧ (decodeSlot 0x050803).toOption = some (.lsStW .always (.g 3)) ∧
  (decodeSlot 0x070040).toOption = some (.vxVaddI32 .always .lit) ∧ (decodeSlot 0x0B0440).toOption = some (.mxMmT .always .lit) ∧
  (decodeSlot 0xEBAC40).toOption = some (.brLoop (.off 5) .lit) ∧ (decodeSlot 0x0C27FF).toOption = some (.syBar .always (.imm 0x1FF)) ∧
  (decodeSlot 0x0D0004).toOption = some (.qpPush .always (.g 4)) ∧ (decodeSlot 0x0D4804).toOption = some (.spRecv .always (.g 4)) ∧
  (decodeSlot 0x0D8E01).toOption = some (.pwDst .always (.imm 1)) ∧ (decodeSlot 0x80_0001).toOption = none ∧
  (decodeSlot 0x00004C).toOption = none ∧ (decodeSlot 0x0E0000).toOption = none

/-- R145 to R152, R159: a word that encodes an instruction decodes to it, whatever its guard, source and destination; no two instructions
share one; and every word that decodes is the encoding of what it decodes to. -/
def Obligations.DecodeAndEncodeAgree : Prop :=
  (∀ i : Instr, i.isSlot = true → ∃ w, encode i = some w) ∧
  (∀ (i : Instr) (w : BitVec 24), encode i = some w → decodeSlot w = .ok i) ∧
  ∀ (i : Instr) (w : BitVec 24), decodeSlot w = .ok i → encode i = some w

/-- A step does what is next, once what waits in the memory system has gone on: an item of the agenda (an event, a brick brought into
focus, what dome firmware asks), an event that the module's clocks or the counts of the brick in focus have made due, or a cycle. A cycle
at which the bundle at the pc meets no trap, stall, request or notice performs each of its decoded slots in order, the moves into operand
latches first, takes the errors of the protected words that they read and wrote, of which there are none where no word is in error and no
injection is armed, and then ends (R142, R146, R153, R155, R386, R447); without loop or cached line, the bundle is the 24 bytes at the pc
(R4, R146). What comes next where the spec fixes no order is the agenda's, the model's own (logs 1, 2 and 3); what an instruction cache holds still is
a free value (log 10). -/
def Obligations.StepRunsTheDecodedBundle : Prop :=
  (∀ s : State, Claims.NothingWaits s → s.memGo = s) ∧
  (∀ s : State, s.b.stall = none ∨ s.b.timer < 4096 → s.retested = s) ∧
  (∀ (s : State) (i : Instr) (rest : List Item), s.agenda = .event i :: rest →
    step s = exec i ({ s with agenda := rest } : State).memGo.retested) ∧
  (∀ (s : State) (n : Nat) (rest : List Item), s.agenda = .turn n :: rest → Claims.NothingWaits s → ∃ t, step s = .next t ∧
    t.b = s.brick n ∧ t.agenda = rest ∧ t.mem = s.mem) ∧
  (∀ (s : State) (e ctx : Nat) (raw : BitVec 512) (rest : List Item), s.agenda = .firmware e ctx raw :: rest →
    step s = .next (({ s with agenda := rest } : State).memGo.firmware e ctx raw)) ∧
  (∀ (s : State) (f : Nat) (rest : List Item), s.agenda = .freeFrame f :: rest → Claims.NothingWaits s → ∃ t, step s = .next t ∧
    t.agenda = rest ∧ t.frameKey (f * 4096) = 0 ∧ ∀ g, g ≠ f → t.frameKey (g * 4096) = s.frameKey (g * 4096)) ∧
  (∀ (s : State) (ctx e : Nat) (rest : List Item), s.agenda = .startup ctx :: rest → Claims.NothingWaits s → s.ctxEnt ctx = some e → ∃ t x,
    step s = .next t ∧ t.agenda = rest ∧ t.ctxEnt ctx = some x ∧ bits x 2 1 = 2 ∧ (∀ j, (j = 0 ∨ 3 ≤ j) → bit x j = bit e j) ∧
    t.b = s.b ∧ t.mem = s.mem) ∧
  (∀ (s : State) (slot : Nat) (image : Bytes) (rest : List Item), s.agenda = .loadSlot slot image :: rest → Claims.NothingWaits s →
    slot < s.inServ.routines → image.length ≤ 0x10000 → image ≠ [] → ∃ t, step s = .next t ∧ t.agenda = rest ∧ (slot, image) ∈ t.slots ∧
    (∀ p ∈ t.slots, p.1 = slot → p.2 = image) ∧ t.b = s.b ∧ t.mem = s.mem) ∧
  (∀ (s : State) (i : Instr), s.agenda = [] → Claims.NothingWaits s → s.moduleDue = some i → step s = exec i s) ∧
  (∀ (s : State) (i : Instr), s.agenda = [] → Claims.NothingWaits s → s.moduleDue = none → s.retested.due = some i →
    step s = exec i s.retested) ∧
  (∀ (s r t u : State) (w : BitVec 192), s.agenda = [] → Claims.NothingWaits s → s.moduleDue = none → r = s.retested → r.due = none →
    r.powered? = true → r.b.halted = false → r.b.permits = true → r.b.domainHeld = false → r.b.running = true → r.b.saving = none →
    r.b.skip = false → r.b.preq = false → r.notices = [] → r.nextBundle = (.word w, t) → checkBundle w = none → t.tryWord w = .go u →
    (t.wq = [] ∨ u.b.iss.leave = none) →
    step s = .next u.closeGo ∧ ∃ a b v : State,
      (t.onB (fun k => { k with iss := { Issue.idle with opd0 := k.r.opd } })).runSlots ((slotsOf w).filter SlotIn.early) = .next a ∧
      b = (if a.b.barWait.isSome then a.onB (fun k => { k.dropSnap with barWait := none }) else a) ∧
      (b.onIss (fun i => { i with go := true })).runSlots ((slotsOf w).filter (fun x => !x.early)) = .next v ∧
      u = v.protect b (((slotsOf w).map (fun x => (b.atSlot x).slotWords x.ins)).flatten)) ∧
  (∀ (s t : State) (ws : List (Nat × Nat)), s.b.ecc = [] → bit s.b.y.einj.toNat 63 = false → s.partner.ecc = [] →
    bit s.partner.y.einj.toNat 63 = false → t.protect s ws = t) ∧
  (∀ (s : State) (x : SlotIn) (rest : List SlotIn),
    s.runSlots (x :: rest) = match exec x.ins (s.onIss (fun i => { i with slot := x.slot, litN := x.litN, litV := x.litV, litS := x.litS })) with
      | .next t => t.runSlots rest
      | r => r) ∧
  (∀ (w : BitVec 192), ∀ x ∈ slotsOf w, x.slot < 8 ∧ decodeSlot (w.extractLsb' (24 * x.slot) 24) = .ok x.ins) ∧
  (∀ (w : BitVec 192) (j : Nat) (i : Instr), j < 8 → decodeSlot (w.extractLsb' (24 * j) 24) = .ok i → ∃ x ∈ slotsOf w,
    x.slot = j ∧ x.ins = i) ∧
  ∀ (s : State) (pa : Nat), s.b.r.lp = none → s.b.ic = [] → (s.b.codeBase + 24 * s.b.pc.toNat) % 4096 + 24 ≤ 4096 →
    s.xlate s.b.fetchLook s.b.t.ctx (s.b.codeBase + 24 * s.b.pc.toNat) .fetch false = .ok pa → s.poisoned pa 24 = false →
    Claims.Quiet s →
    s.nextBundle.1 = .word (BitVec.ofNat 192 (ofBytes (s.readPhys pa 24)))

/-- R142 to R144: an armed injection is made by the next store of its word and disarms; the first load of a word with one inverted bit
gives the stored value, corrects the word and counts a corrected error; one of a word with two takes the poisoned-data trap and
counts an uncorrectable error; a write of the whole word leaves no error; and a register word with two inverted bits ends the reading
bundle in the machine check. The layout of words outside the local stores, and an injection that names one bit twice, are the model's
(logs 49 and 115). -/
def Obligations.ErrorsAreInjectedAndMet : Prop :=
  (∀ (gd : Guard) (x : Src) (s : State) (e : EccErr), let off := fld (s.src x) 19 0
    s.guardOn gd = true → Claims.LocalAddr (s.src x) 8 → fld (s.src x) 21 20 = 0 → s.b.hullHit 0 off 8 = false →
    s.b.mxHoldsStore 0 off 8 = false → s.b.ecc = [] → bit s.b.y.einj.toNat 63 = true → injection s.b.y.einj = some e →
    e.array = 1 → e.word = off → e.bits ≠ [] → ∃ t, exec (.lsSstD gd x) s = .next t ∧ t.b.ecc = [e] ∧
      bit t.b.y.einj.toNat 63 = false ∧ t.b.loc.read 0 off 8 = toBytes 8 (s.opd .lsd).toNat) ∧
  (∀ (gd : Guard) (x : Src) (s : State) (i : Nat), let off := fld (s.src x) 19 0
    s.guardOn gd = true → Claims.LocalAddr (s.src x) 8 → fld (s.src x) 21 20 = 0 → s.b.hullHit 0 off 8 = false →
    s.b.mxHoldsLoad 0 off 8 = false → s.b.lpois = [] → s.b.ecc = [⟨1, off, [i]⟩] → ∃ t r, exec (.lsSldD gd x) s = .next t ∧
      t.b.r.pipe = s.b.r.pipe ++ [⟨4, .res .lsr r⟩] ∧ r.toNat = ofBytes (s.b.loc.read 0 off 8) ∧ t.b.ecc = [] ∧
      (let old := (cget 0 s.b.y.elog 1).toNat; let new := (cget 0 t.b.y.elog 1).toNat
       bits new 111 96 = min 65535 (bits old 111 96 + 1) ∧ bits new 95 80 = bits old 95 80 ∧ bit new 63 = true)) ∧
  (∀ (gd : Guard) (x : Src) (s : State) (i j : Nat), let off := fld (s.src x) 19 0
    s.guardOn gd = true → Claims.LocalAddr (s.src x) 8 → fld (s.src x) 21 20 = 0 → s.b.hullHit 0 off 8 = false →
    s.b.mxHoldsLoad 0 off 8 = false → s.b.lpois = [] → s.b.ecc = [⟨1, off, [i, j]⟩] → ∃ t, exec (.lsSldD gd x) s = .next t ∧
      t.b.iss.ev = .trapped 3 s.b.iss.slot 2 ∧
      (let old := (cget 0 s.b.y.elog 1).toNat; let new := (cget 0 t.b.y.elog 1).toNat
       bits new 95 80 = min 65535 (bits old 95 80 + 1) ∧ bits new 111 96 = bits old 111 96 ∧ bit new 63 = true ∧
       bit new 62 = true)) ∧
  (∀ (b : Brick) (array : Nat) (ws : List (Nat × Bool)), bit b.y.einj.toNat 63 = false →
    (∀ e, e ∈ (b.plant array ws).ecc ↔
      e ∈ b.ecc ∧ ¬ (e.array = array ∧ ((e.word, true) ∈ ws ∨ ((e.word, false) ∈ ws ∧ e.bits.length < 2)))) ∧
    (b.plant array ws).r = b.r ∧ (b.plant array ws).y = b.y ∧ (b.plant array ws).loc = b.loc) ∧
  ∀ (s : State) (gd : Guard) (n : Fin 64) (d : Dst) (k slot : Nat) (i j : Nat), s.guardOn gd = true →
    s.b.ecc = [⟨9, physG s.b.r.rrb n.val, [i, j]⟩] → ∃ t,
    s.errTrap ⟨slot, .move gd (.g n) d, k, 0, false⟩ = some ((4, slot, 1), t) ∧ t.b.iss.ev = .trapped 3 slot 1

/-- Every instruction has its effect in every state, and every step goes on: no state stops the machine. Where the manual gives no effect
or no value, the model goes on with a free value or a choice that its log names (logs 8, 14, 19, 21, 53, 66, 98 and 101 among them). -/
def Obligations.NothingStopsTheMachine : Prop :=
  (∀ (i : Instr) (s : State), ∃ t, exec i s = .next t) ∧ (∀ s : State, ∃ t, step s = .next t) ∧ ∀ s : State, s.Safe

/-- Every step keeps device memory in its canonical form and fabric time a 64-bit number (R438), from every state that has them. What one step
is, is the model's (logs 1 and 2). -/
def Obligations.StepKeepsTheInvariant : Prop := ∀ s t : State, s.Inv → step s = .next t → t.Inv

/-- R439: once the lock fuse is blown no step unblows it, a reset and the end of supply among them. What one step is, is the
model's (logs 1 and 2). -/
def Obligations.TheLockFuseStaysBlown : Prop := ∀ s t : State, s.sec.locked = true → step s = .next t → t.sec.locked = true

/-- R153, R154, R203 to R209, R225: a slot that takes no trap writes no byte of device memory and no vector, mask, guard or history
register, and no general register or result latch, as it issues; nor does it change the pc, the counters, `nflg`, another brick's
registers or stores, a context, a must-save set or the keep. -/
def Obligations.SlotsChangeNoMemoryAsTheyIssue : Prop := ∀ (i : Instr) (s t : State) (gd : Guard), i.guard = some gd →
  exec i s = .next t → (∀ r k c, t.b.iss.ev ≠ .trapped r k c) →
  Claims.SameMemory s t ∧ t.b.r.g = s.b.r.g ∧ t.b.r.v = s.b.r.v ∧ t.b.r.m = s.b.r.m ∧ t.b.r.k = s.b.r.k ∧ t.b.r.h = s.b.r.h ∧
  t.b.r.res = s.b.r.res ∧ t.ctxTab = s.ctxTab ∧ t.musts = s.musts ∧ t.keep = s.keep ∧ t.b.cnt = s.b.cnt ∧
  t.b.pc = s.b.pc ∧ t.b.y.nflg = s.b.y.nflg ∧ ∀ n, n ≠ s.b.bid → (t.brick n).r = (s.brick n).r ∧ (t.brick n).loc = (s.brick n).loc
end

