-- ==== Sys2Proof/Laws/Cells.lean ====
section
/-!
SUPPORT. Sparse stores: reading after writing, and the canonical form kept by every write.
-/

namespace Sys2Proof.Machine

open Sys2Proof

variable {α : Type} [DecidableEq α]

omit [DecidableEq α] in
@[simp] theorem cget_nil (d : α) (k : Nat) : cget d [] k = d := rfl

omit [DecidableEq α] in
theorem cget_cons (d : α) (j : Nat) (x : α) (m : Cells α) (k : Nat) :
    cget d ((j, x) :: m) k = if j = k then x else cget d m k := rfl

omit [DecidableEq α] in
theorem cget_cdrop (d : α) (m : Cells α) (k j : Nat) : cget d (cdrop m k) j = if j = k then d else cget d m j := by
  induction m with
  | nil => simp [cdrop]
  | cons e m ih =>
    obtain ⟨i, x⟩ := e
    unfold cdrop at *
    by_cases h : i = k
    · subst h
      simp only [List.filter_cons, bne_self_eq_false, Bool.false_eq_true, if_false, ih, cget_cons]
      by_cases h' : j = i
      · simp [h']
      · simp [h', Ne.symm h']
    · simp only [List.filter_cons, bne_iff_ne, ne_eq, h, not_false_eq_true, if_true, cget_cons, ih]
      by_cases h' : i = j <;> simp_all

omit [DecidableEq α] in
/-- Putting a key that the store does not hold. -/
theorem cget_cput (d : α) (m : Cells α) (k : Nat) (x : α) (j : Nat) (h : ∀ e ∈ m, e.1 ≠ k) :
    cget d (cput m k x) j = if k = j then x else cget d m j := by
  induction m with
  | nil => rfl
  | cons e m ih =>
    obtain ⟨i, y⟩ := e
    have hi : i ≠ k := h (i, y) (by simp)
    have ih := ih (fun e he => h e (by simp [he]))
    unfold cput
    split
    · rfl
    · simp only [cget_cons, ih]
      by_cases h1 : i = j <;> by_cases h2 : k = j <;> simp_all

omit [DecidableEq α] in
theorem cdrop_ne (m : Cells α) (k : Nat) : ∀ e ∈ cdrop m k, e.1 ≠ k := by
  intro e he
  simpa [cdrop] using (List.mem_filter.1 he).2

/-- A store reads what was last set at a key, and elsewhere what it read before. -/
theorem cget_cset (d : α) (m : Cells α) (k : Nat) (x : α) (j : Nat) :
    cget d (cset d m k x) j = if k = j then x else cget d m j := by
  unfold cset
  split
  · next h => rw [cget_cdrop]; by_cases h' : j = k <;> simp_all [eq_comm]
  · rw [cget_cput _ _ _ _ _ (cdrop_ne m k), cget_cdrop]
    by_cases h' : k = j <;> simp_all [eq_comm]

/-- Lower bounds can be weakened. -/
theorem cwfFrom_weaken {d : α} {m : Cells α} {a b : Nat} (h : cwfFrom d (some b) m = true) (hab : a ≤ b) :
    cwfFrom d (some a) m = true := by
  cases m with
  | nil => rfl
  | cons e m =>
    obtain ⟨k, x⟩ := e
    simp only [cwfFrom, Bool.and_eq_true, decide_eq_true_eq] at h ⊢
    exact ⟨⟨by omega, h.1.2⟩, h.2⟩

/-- Every key of a canonical store is above its bound. -/
theorem cwfFrom_lt {d : α} {m : Cells α} {a : Nat} (h : cwfFrom d (some a) m = true) : ∀ e ∈ m, a < e.1 := by
  induction m generalizing a with
  | nil => simp
  | cons e m ih =>
    obtain ⟨k, x⟩ := e
    simp only [cwfFrom, Bool.and_eq_true, decide_eq_true_eq] at h
    intro e he
    rcases List.mem_cons.1 he with rfl | he
    · exact h.1.1
    · exact lt_trans h.1.1 (ih h.2 e he)

/-- Dropping a key keeps the form. -/
theorem cwfFrom_cdrop {d : α} {m : Cells α} {lo : Option Nat} (k : Nat) (h : cwfFrom d lo m = true) :
    cwfFrom d lo (cdrop m k) = true := by
  induction m generalizing lo with
  | nil => exact h
  | cons e m ih =>
    obtain ⟨j, x⟩ := e
    simp only [cwfFrom, Bool.and_eq_true] at h
    unfold cdrop at *
    rw [List.filter_cons]
    split
    · simp only [cwfFrom, Bool.and_eq_true]
      exact ⟨h.1, ih h.2⟩
    · have := ih h.2
      cases lo with
      | none =>
        revert this
        cases (List.filter (fun e => e.1 != k) m) with
        | nil => intro _; rfl
        | cons e m =>
          obtain ⟨i, y⟩ := e
          simp only [cwfFrom, Bool.and_eq_true]
          rintro ⟨⟨_, h1⟩, h2⟩
          exact ⟨⟨by simp, h1⟩, h2⟩
      | some b => exact cwfFrom_weaken this (by have := h.1.1; simp only [decide_eq_true_eq] at this; omega)

/-- Putting a key that the store does not hold, with a value that is not the default, keeps the form. -/
theorem cwfFrom_cput {d : α} {m : Cells α} {lo : Option Nat} {k : Nat} {x : α} (h : cwfFrom d lo m = true)
    (hk : ∀ e ∈ m, e.1 ≠ k) (hlo : ∀ b, lo = some b → b < k) (hx : x ≠ d) : cwfFrom d lo (cput m k x) = true := by
  induction m generalizing lo with
  | nil =>
    unfold cput
    simp only [cwfFrom, Bool.and_eq_true, decide_eq_true_eq]
    refine ⟨⟨?_, hx⟩, trivial⟩
    cases lo with
    | none => rfl
    | some b => simpa using hlo b rfl
  | cons e m ih =>
    obtain ⟨j, y⟩ := e
    have hj : j ≠ k := hk (j, y) (by simp)
    simp only [cwfFrom, Bool.and_eq_true, decide_eq_true_eq] at h
    unfold cput
    split
    · next hlt =>
      simp only [cwfFrom, Bool.and_eq_true, decide_eq_true_eq]
      refine ⟨⟨?_, hx⟩, ⟨hlt, h.1.2⟩, h.2⟩
      cases lo with
      | none => rfl
      | some b => simpa using hlo b rfl
    · next hlt =>
      simp only [cwfFrom, Bool.and_eq_true, decide_eq_true_eq]
      refine ⟨h.1, ih h.2 (fun e he => hk e (by simp [he])) ?_⟩
      rintro b ⟨⟩
      omega

/-- Setting a key keeps the form. -/
theorem cwf_cset {d : α} {m : Cells α} (k : Nat) (x : α) (h : cwf d m = true) : cwf d (cset d m k x) = true := by
  unfold cset cwf at *
  split
  · exact cwfFrom_cdrop k h
  · next hx => exact cwfFrom_cput (cwfFrom_cdrop k h) (cdrop_ne m k) (by simp) hx

omit [DecidableEq α] in
@[simp] theorem readBytes_length (m : Cells Byte) (a n : Nat) : (readBytes m a n).length = n := by
  induction n generalizing a with
  | zero => rfl
  | succ n ih => simp [readBytes, ih]

/-- Bytes outside a write read as before. -/
theorem cget_writeBytes_out (m : Cells Byte) (a : Nat) (bs : List Byte) (j : Nat) (h : j < a ∨ a + bs.length ≤ j) :
    cget 0 (writeBytes m a bs) j = cget 0 m j := by
  induction bs generalizing m a with
  | nil => rfl
  | cons b bs ih =>
    simp only [List.length_cons] at h
    rw [writeBytes, ih _ _ (by omega), cget_cset, if_neg (by omega)]

/-- Bytes inside a write read as written. -/
theorem cget_writeBytes_in (m : Cells Byte) (a : Nat) (bs : List Byte) (i : Nat) (h : i < bs.length) :
    cget 0 (writeBytes m a bs) (a + i) = bs[i] := by
  induction bs generalizing m a i with
  | nil => simp at h
  | cons b bs ih =>
    rw [writeBytes]
    cases i with
    | zero => rw [cget_writeBytes_out _ _ _ _ (by omega), cget_cset, if_pos (by omega)]; rfl
    | succ i =>
      have := ih (cset 0 m a b) (a + 1) i (by simpa using h)
      rw [show a + (i + 1) = a + 1 + i by omega, this]; rfl

/-- A read of what was written. -/
theorem readBytes_writeBytes (m : Cells Byte) (a : Nat) (bs : List Byte) :
    readBytes (writeBytes m a bs) a bs.length = bs := by
  apply List.ext_getElem (by simp)
  intro i h1 h2
  have key : ∀ (m : Cells Byte) (n a i : Nat) (h : i < (readBytes m a n).length), (readBytes m a n)[i] = cget 0 m (a + i) := by
    intro m n
    induction n with
    | zero => intro a i h; simp [readBytes] at h
    | succ n ih =>
      intro a i h
      cases i with
      | zero => rfl
      | succ i =>
        simp only [readBytes, List.getElem_cons_succ]
        rw [ih (a + 1) i (by simpa using h), show a + 1 + i = a + (i + 1) by omega]
  rw [key, cget_writeBytes_in _ _ _ _ h2]

/-- Writing bytes keeps the canonical form. -/
theorem Memory.wf_writeBytes (m : Cells Byte) (a : Nat) (bs : List Byte) (h : Memory.wf m = true) :
    Memory.wf (writeBytes m a bs) = true := by
  induction bs generalizing m a with
  | nil => exact h
  | cons b bs ih => exact ih _ _ (cwf_cset a b h)

/-- Empty memory is canonical. -/
theorem Memory.wf_nil : Memory.wf [] = true := rfl

end Sys2Proof.Machine
end

