-- ==== Sys2Proof/Laws/State.lean ====
section
/-!
SUPPORT. What each named update of the state leaves and sets, one lemma per field.
-/

namespace Sys2Proof.Machine

open Sys2Proof

/-! ## onB -/

@[simp] theorem State.onB_b (s : State) (f : Brick → Brick) : (s.onB f).b = f s.b := rfl
@[simp] theorem State.onB_peers (s : State) (f : Brick → Brick) : (s.onB f).peers = s.peers := rfl
@[simp] theorem State.onB_agenda (s : State) (f : Brick → Brick) : (s.onB f).agenda = s.agenda := rfl
@[simp] theorem State.onB_tick (s : State) (f : Brick → Brick) : (s.onB f).tick = s.tick := rfl
@[simp] theorem State.onB_clk (s : State) (f : Brick → Brick) : (s.onB f).clk = s.clk := rfl
@[simp] theorem State.onB_ftime (s : State) (f : Brick → Brick) : (s.onB f).ftime = s.ftime := rfl
@[simp] theorem State.onB_mem (s : State) (f : Brick → Brick) : (s.onB f).mem = s.mem := rfl
@[simp] theorem State.onB_pois (s : State) (f : Brick → Brick) : (s.onB f).pois = s.pois := rfl
@[simp] theorem State.onB_dtag (s : State) (f : Brick → Brick) : (s.onB f).dtag = s.dtag := rfl
@[simp] theorem State.onB_blk (s : State) (f : Brick → Brick) : (s.onB f).blk = s.blk := rfl
@[simp] theorem State.onB_img (s : State) (f : Brick → Brick) : (s.onB f).img = s.img := rfl
@[simp] theorem State.onB_twk (s : State) (f : Brick → Brick) : (s.onB f).twk = s.twk := rfl
@[simp] theorem State.onB_cache (s : State) (f : Brick → Brick) : (s.onB f).cache = s.cache := rfl
@[simp] theorem State.onB_bufs (s : State) (f : Brick → Brick) : (s.onB f).bufs = s.bufs := rfl
@[simp] theorem State.onB_acnt (s : State) (f : Brick → Brick) : (s.onB f).acnt = s.acnt := rfl
@[simp] theorem State.onB_wq (s : State) (f : Brick → Brick) : (s.onB f).wq = s.wq := rfl
@[simp] theorem State.onB_remote (s : State) (f : Brick → Brick) : (s.onB f).remote = s.remote := rfl
@[simp] theorem State.onB_upset (s : State) (f : Brick → Brick) : (s.onB f).upset = s.upset := rfl
@[simp] theorem State.onB_logs (s : State) (f : Brick → Brick) : (s.onB f).logs = s.logs := rfl
@[simp] theorem State.onB_routers (s : State) (f : Brick → Brick) : (s.onB f).routers = s.routers := rfl
@[simp] theorem State.onB_dome0 (s : State) (f : Brick → Brick) : (s.onB f).dome0 = s.dome0 := rfl
@[simp] theorem State.onB_dome1 (s : State) (f : Brick → Brick) : (s.onB f).dome1 = s.dome1 := rfl
@[simp] theorem State.onB_toks (s : State) (f : Brick → Brick) : (s.onB f).toks = s.toks := rfl
@[simp] theorem State.onB_doms (s : State) (f : Brick → Brick) : (s.onB f).doms = s.doms := rfl
@[simp] theorem State.onB_engs (s : State) (f : Brick → Brick) : (s.onB f).engs = s.engs := rfl
@[simp] theorem State.onB_ctxTab (s : State) (f : Brick → Brick) : (s.onB f).ctxTab = s.ctxTab := rfl
@[simp] theorem State.onB_win (s : State) (f : Brick → Brick) : (s.onB f).win = s.win := rfl
@[simp] theorem State.onB_regions (s : State) (f : Brick → Brick) : (s.onB f).regions = s.regions := rfl
@[simp] theorem State.onB_groups (s : State) (f : Brick → Brick) : (s.onB f).groups = s.groups := rfl
@[simp] theorem State.onB_node (s : State) (f : Brick → Brick) : (s.onB f).node = s.node := rfl
@[simp] theorem State.onB_links (s : State) (f : Brick → Brick) : (s.onB f).links = s.links := rfl
@[simp] theorem State.onB_out (s : State) (f : Brick → Brick) : (s.onB f).out = s.out := rfl
@[simp] theorem State.onB_egress (s : State) (f : Brick → Brick) : (s.onB f).egress = s.egress := rfl
@[simp] theorem State.onB_hops (s : State) (f : Brick → Brick) : (s.onB f).hops = s.hops := rfl
@[simp] theorem State.onB_ports (s : State) (f : Brick → Brick) : (s.onB f).ports = s.ports := rfl
@[simp] theorem State.onB_paused (s : State) (f : Brick → Brick) : (s.onB f).paused = s.paused := rfl
@[simp] theorem State.onB_keys (s : State) (f : Brick → Brick) : (s.onB f).keys = s.keys := rfl
@[simp] theorem State.onB_sec (s : State) (f : Brick → Brick) : (s.onB f).sec = s.sec := rfl
@[simp] theorem State.onB_inServ (s : State) (f : Brick → Brick) : (s.onB f).inServ = s.inServ := rfl
@[simp] theorem State.onB_launches (s : State) (f : Brick → Brick) : (s.onB f).launches = s.launches := rfl
@[simp] theorem State.onB_ringQ (s : State) (f : Brick → Brick) : (s.onB f).ringQ = s.ringQ := rfl
@[simp] theorem State.onB_tasks (s : State) (f : Brick → Brick) : (s.onB f).tasks = s.tasks := rfl
@[simp] theorem State.onB_exits (s : State) (f : Brick → Brick) : (s.onB f).exits = s.exits := rfl
@[simp] theorem State.onB_images (s : State) (f : Brick → Brick) : (s.onB f).images = s.images := rfl
@[simp] theorem State.onB_musts (s : State) (f : Brick → Brick) : (s.onB f).musts = s.musts := rfl
@[simp] theorem State.onB_keep (s : State) (f : Brick → Brick) : (s.onB f).keep = s.keep := rfl
@[simp] theorem State.onB_power (s : State) (f : Brick → Brick) : (s.onB f).power = s.power := rfl
@[simp] theorem State.onB_gangNow (s : State) (f : Brick → Brick) : (s.onB f).gangNow = s.gangNow := rfl
@[simp] theorem State.onB_gangNext (s : State) (f : Brick → Brick) : (s.onB f).gangNext = s.gangNext := rfl
@[simp] theorem State.onB_notices (s : State) (f : Brick → Brick) : (s.onB f).notices = s.notices := rfl
@[simp] theorem State.onB_passed (s : State) (f : Brick → Brick) : (s.onB f).passed = s.passed := rfl
@[simp] theorem State.onB_visits (s : State) (f : Brick → Brick) : (s.onB f).visits = s.visits := rfl
@[simp] theorem State.onB_jobs (s : State) (f : Brick → Brick) : (s.onB f).jobs = s.jobs := rfl
@[simp] theorem State.onB_slots (s : State) (f : Brick → Brick) : (s.onB f).slots = s.slots := rfl
@[simp] theorem State.onB_gangStops (s : State) (f : Brick → Brick) : (s.onB f).gangStops = s.gangStops := rfl
@[simp] theorem State.onB_syncAt (s : State) (f : Brick → Brick) : (s.onB f).syncAt = s.syncAt := rfl
@[simp] theorem State.onB_nextTid (s : State) (f : Brick → Brick) : (s.onB f).nextTid = s.nextTid := rfl
@[simp] theorem State.onB_nextLaunch (s : State) (f : Brick → Brick) : (s.onB f).nextLaunch = s.nextLaunch := rfl
@[simp] theorem State.onB_detId (s : State) (f : Brick → Brick) : (s.onB f).detId = s.detId := rfl
@[simp] theorem State.onB_cmdSeq (s : State) (f : Brick → Brick) : (s.onB f).cmdSeq = s.cmdSeq := rfl

/-! ## setEng -/

@[simp] theorem State.setEng_b (s : State) (e : Nat) (x : Engine) : (s.setEng e x).b = s.b := rfl
@[simp] theorem State.setEng_peers (s : State) (e : Nat) (x : Engine) : (s.setEng e x).peers = s.peers := rfl
@[simp] theorem State.setEng_agenda (s : State) (e : Nat) (x : Engine) : (s.setEng e x).agenda = s.agenda := rfl
@[simp] theorem State.setEng_tick (s : State) (e : Nat) (x : Engine) : (s.setEng e x).tick = s.tick := rfl
@[simp] theorem State.setEng_clk (s : State) (e : Nat) (x : Engine) : (s.setEng e x).clk = s.clk := rfl
@[simp] theorem State.setEng_ftime (s : State) (e : Nat) (x : Engine) : (s.setEng e x).ftime = s.ftime := rfl
@[simp] theorem State.setEng_mem (s : State) (e : Nat) (x : Engine) : (s.setEng e x).mem = s.mem := rfl
@[simp] theorem State.setEng_pois (s : State) (e : Nat) (x : Engine) : (s.setEng e x).pois = s.pois := rfl
@[simp] theorem State.setEng_dtag (s : State) (e : Nat) (x : Engine) : (s.setEng e x).dtag = s.dtag := rfl
@[simp] theorem State.setEng_blk (s : State) (e : Nat) (x : Engine) : (s.setEng e x).blk = s.blk := rfl
@[simp] theorem State.setEng_img (s : State) (e : Nat) (x : Engine) : (s.setEng e x).img = s.img := rfl
@[simp] theorem State.setEng_twk (s : State) (e : Nat) (x : Engine) : (s.setEng e x).twk = s.twk := rfl
@[simp] theorem State.setEng_cache (s : State) (e : Nat) (x : Engine) : (s.setEng e x).cache = s.cache := rfl
@[simp] theorem State.setEng_bufs (s : State) (e : Nat) (x : Engine) : (s.setEng e x).bufs = s.bufs := rfl
@[simp] theorem State.setEng_acnt (s : State) (e : Nat) (x : Engine) : (s.setEng e x).acnt = s.acnt := rfl
@[simp] theorem State.setEng_wq (s : State) (e : Nat) (x : Engine) : (s.setEng e x).wq = s.wq := rfl
@[simp] theorem State.setEng_remote (s : State) (e : Nat) (x : Engine) : (s.setEng e x).remote = s.remote := rfl
@[simp] theorem State.setEng_upset (s : State) (e : Nat) (x : Engine) : (s.setEng e x).upset = s.upset := rfl
@[simp] theorem State.setEng_logs (s : State) (e : Nat) (x : Engine) : (s.setEng e x).logs = s.logs := rfl
@[simp] theorem State.setEng_routers (s : State) (e : Nat) (x : Engine) : (s.setEng e x).routers = s.routers := rfl
@[simp] theorem State.setEng_dome0 (s : State) (e : Nat) (x : Engine) : (s.setEng e x).dome0 = s.dome0 := rfl
@[simp] theorem State.setEng_dome1 (s : State) (e : Nat) (x : Engine) : (s.setEng e x).dome1 = s.dome1 := rfl
@[simp] theorem State.setEng_toks (s : State) (e : Nat) (x : Engine) : (s.setEng e x).toks = s.toks := rfl
@[simp] theorem State.setEng_doms (s : State) (e : Nat) (x : Engine) : (s.setEng e x).doms = s.doms := rfl
@[simp] theorem State.setEng_engs (s : State) (e : Nat) (x : Engine) : (s.setEng e x).engs = vset s.engs e x := rfl
@[simp] theorem State.setEng_ctxTab (s : State) (e : Nat) (x : Engine) : (s.setEng e x).ctxTab = s.ctxTab := rfl
@[simp] theorem State.setEng_win (s : State) (e : Nat) (x : Engine) : (s.setEng e x).win = s.win := rfl
@[simp] theorem State.setEng_regions (s : State) (e : Nat) (x : Engine) : (s.setEng e x).regions = s.regions := rfl
@[simp] theorem State.setEng_groups (s : State) (e : Nat) (x : Engine) : (s.setEng e x).groups = s.groups := rfl
@[simp] theorem State.setEng_node (s : State) (e : Nat) (x : Engine) : (s.setEng e x).node = s.node := rfl
@[simp] theorem State.setEng_links (s : State) (e : Nat) (x : Engine) : (s.setEng e x).links = s.links := rfl
@[simp] theorem State.setEng_out (s : State) (e : Nat) (x : Engine) : (s.setEng e x).out = s.out := rfl
@[simp] theorem State.setEng_egress (s : State) (e : Nat) (x : Engine) : (s.setEng e x).egress = s.egress := rfl
@[simp] theorem State.setEng_hops (s : State) (e : Nat) (x : Engine) : (s.setEng e x).hops = s.hops := rfl
@[simp] theorem State.setEng_ports (s : State) (e : Nat) (x : Engine) : (s.setEng e x).ports = s.ports := rfl
@[simp] theorem State.setEng_paused (s : State) (e : Nat) (x : Engine) : (s.setEng e x).paused = s.paused := rfl
@[simp] theorem State.setEng_keys (s : State) (e : Nat) (x : Engine) : (s.setEng e x).keys = s.keys := rfl
@[simp] theorem State.setEng_sec (s : State) (e : Nat) (x : Engine) : (s.setEng e x).sec = s.sec := rfl
@[simp] theorem State.setEng_inServ (s : State) (e : Nat) (x : Engine) : (s.setEng e x).inServ = s.inServ := rfl
@[simp] theorem State.setEng_launches (s : State) (e : Nat) (x : Engine) : (s.setEng e x).launches = s.launches := rfl
@[simp] theorem State.setEng_ringQ (s : State) (e : Nat) (x : Engine) : (s.setEng e x).ringQ = s.ringQ := rfl
@[simp] theorem State.setEng_tasks (s : State) (e : Nat) (x : Engine) : (s.setEng e x).tasks = s.tasks := rfl
@[simp] theorem State.setEng_exits (s : State) (e : Nat) (x : Engine) : (s.setEng e x).exits = s.exits := rfl
@[simp] theorem State.setEng_images (s : State) (e : Nat) (x : Engine) : (s.setEng e x).images = s.images := rfl
@[simp] theorem State.setEng_musts (s : State) (e : Nat) (x : Engine) : (s.setEng e x).musts = s.musts := rfl
@[simp] theorem State.setEng_keep (s : State) (e : Nat) (x : Engine) : (s.setEng e x).keep = s.keep := rfl
@[simp] theorem State.setEng_power (s : State) (e : Nat) (x : Engine) : (s.setEng e x).power = s.power := rfl
@[simp] theorem State.setEng_gangNow (s : State) (e : Nat) (x : Engine) : (s.setEng e x).gangNow = s.gangNow := rfl
@[simp] theorem State.setEng_gangNext (s : State) (e : Nat) (x : Engine) : (s.setEng e x).gangNext = s.gangNext := rfl
@[simp] theorem State.setEng_notices (s : State) (e : Nat) (x : Engine) : (s.setEng e x).notices = s.notices := rfl
@[simp] theorem State.setEng_passed (s : State) (e : Nat) (x : Engine) : (s.setEng e x).passed = s.passed := rfl
@[simp] theorem State.setEng_visits (s : State) (e : Nat) (x : Engine) : (s.setEng e x).visits = s.visits := rfl
@[simp] theorem State.setEng_jobs (s : State) (e : Nat) (x : Engine) : (s.setEng e x).jobs = s.jobs := rfl
@[simp] theorem State.setEng_slots (s : State) (e : Nat) (x : Engine) : (s.setEng e x).slots = s.slots := rfl
@[simp] theorem State.setEng_gangStops (s : State) (e : Nat) (x : Engine) : (s.setEng e x).gangStops = s.gangStops := rfl
@[simp] theorem State.setEng_syncAt (s : State) (e : Nat) (x : Engine) : (s.setEng e x).syncAt = s.syncAt := rfl
@[simp] theorem State.setEng_nextTid (s : State) (e : Nat) (x : Engine) : (s.setEng e x).nextTid = s.nextTid := rfl
@[simp] theorem State.setEng_nextLaunch (s : State) (e : Nat) (x : Engine) : (s.setEng e x).nextLaunch = s.nextLaunch := rfl
@[simp] theorem State.setEng_detId (s : State) (e : Nat) (x : Engine) : (s.setEng e x).detId = s.detId := rfl
@[simp] theorem State.setEng_cmdSeq (s : State) (e : Nat) (x : Engine) : (s.setEng e x).cmdSeq = s.cmdSeq := rfl

/-! ## setDomain -/

@[simp] theorem State.setDomain_b (s : State) (d : Nat) (x : Domain) : (s.setDomain d x).b = s.b := rfl
@[simp] theorem State.setDomain_peers (s : State) (d : Nat) (x : Domain) : (s.setDomain d x).peers = s.peers := rfl
@[simp] theorem State.setDomain_agenda (s : State) (d : Nat) (x : Domain) : (s.setDomain d x).agenda = s.agenda := rfl
@[simp] theorem State.setDomain_tick (s : State) (d : Nat) (x : Domain) : (s.setDomain d x).tick = s.tick := rfl
@[simp] theorem State.setDomain_clk (s : State) (d : Nat) (x : Domain) : (s.setDomain d x).clk = s.clk := rfl
@[simp] theorem State.setDomain_ftime (s : State) (d : Nat) (x : Domain) : (s.setDomain d x).ftime = s.ftime := rfl
@[simp] theorem State.setDomain_mem (s : State) (d : Nat) (x : Domain) : (s.setDomain d x).mem = s.mem := rfl
@[simp] theorem State.setDomain_pois (s : State) (d : Nat) (x : Domain) : (s.setDomain d x).pois = s.pois := rfl
@[simp] theorem State.setDomain_dtag (s : State) (d : Nat) (x : Domain) : (s.setDomain d x).dtag = s.dtag := rfl
@[simp] theorem State.setDomain_blk (s : State) (d : Nat) (x : Domain) : (s.setDomain d x).blk = s.blk := rfl
@[simp] theorem State.setDomain_img (s : State) (d : Nat) (x : Domain) : (s.setDomain d x).img = s.img := rfl
@[simp] theorem State.setDomain_twk (s : State) (d : Nat) (x : Domain) : (s.setDomain d x).twk = s.twk := rfl
@[simp] theorem State.setDomain_cache (s : State) (d : Nat) (x : Domain) : (s.setDomain d x).cache = s.cache := rfl
@[simp] theorem State.setDomain_bufs (s : State) (d : Nat) (x : Domain) : (s.setDomain d x).bufs = s.bufs := rfl
@[simp] theorem State.setDomain_acnt (s : State) (d : Nat) (x : Domain) : (s.setDomain d x).acnt = s.acnt := rfl
@[simp] theorem State.setDomain_wq (s : State) (d : Nat) (x : Domain) : (s.setDomain d x).wq = s.wq := rfl
@[simp] theorem State.setDomain_remote (s : State) (d : Nat) (x : Domain) : (s.setDomain d x).remote = s.remote := rfl
@[simp] theorem State.setDomain_upset (s : State) (d : Nat) (x : Domain) : (s.setDomain d x).upset = s.upset := rfl
@[simp] theorem State.setDomain_logs (s : State) (d : Nat) (x : Domain) : (s.setDomain d x).logs = s.logs := rfl
@[simp] theorem State.setDomain_routers (s : State) (d : Nat) (x : Domain) : (s.setDomain d x).routers = s.routers := rfl
@[simp] theorem State.setDomain_dome0 (s : State) (d : Nat) (x : Domain) : (s.setDomain d x).dome0 = s.dome0 := rfl
@[simp] theorem State.setDomain_dome1 (s : State) (d : Nat) (x : Domain) : (s.setDomain d x).dome1 = s.dome1 := rfl
@[simp] theorem State.setDomain_toks (s : State) (d : Nat) (x : Domain) : (s.setDomain d x).toks = s.toks := rfl
@[simp] theorem State.setDomain_doms (s : State) (d : Nat) (x : Domain) : (s.setDomain d x).doms = vset s.doms d x := rfl
@[simp] theorem State.setDomain_engs (s : State) (d : Nat) (x : Domain) : (s.setDomain d x).engs = s.engs := rfl
@[simp] theorem State.setDomain_ctxTab (s : State) (d : Nat) (x : Domain) : (s.setDomain d x).ctxTab = s.ctxTab := rfl
@[simp] theorem State.setDomain_win (s : State) (d : Nat) (x : Domain) : (s.setDomain d x).win = s.win := rfl
@[simp] theorem State.setDomain_regions (s : State) (d : Nat) (x : Domain) : (s.setDomain d x).regions = s.regions := rfl
@[simp] theorem State.setDomain_groups (s : State) (d : Nat) (x : Domain) : (s.setDomain d x).groups = s.groups := rfl
@[simp] theorem State.setDomain_node (s : State) (d : Nat) (x : Domain) : (s.setDomain d x).node = s.node := rfl
@[simp] theorem State.setDomain_links (s : State) (d : Nat) (x : Domain) : (s.setDomain d x).links = s.links := rfl
@[simp] theorem State.setDomain_out (s : State) (d : Nat) (x : Domain) : (s.setDomain d x).out = s.out := rfl
@[simp] theorem State.setDomain_egress (s : State) (d : Nat) (x : Domain) : (s.setDomain d x).egress = s.egress := rfl
@[simp] theorem State.setDomain_hops (s : State) (d : Nat) (x : Domain) : (s.setDomain d x).hops = s.hops := rfl
@[simp] theorem State.setDomain_ports (s : State) (d : Nat) (x : Domain) : (s.setDomain d x).ports = s.ports := rfl
@[simp] theorem State.setDomain_paused (s : State) (d : Nat) (x : Domain) : (s.setDomain d x).paused = s.paused := rfl
@[simp] theorem State.setDomain_keys (s : State) (d : Nat) (x : Domain) : (s.setDomain d x).keys = s.keys := rfl
@[simp] theorem State.setDomain_sec (s : State) (d : Nat) (x : Domain) : (s.setDomain d x).sec = s.sec := rfl
@[simp] theorem State.setDomain_inServ (s : State) (d : Nat) (x : Domain) : (s.setDomain d x).inServ = s.inServ := rfl
@[simp] theorem State.setDomain_launches (s : State) (d : Nat) (x : Domain) : (s.setDomain d x).launches = s.launches := rfl
@[simp] theorem State.setDomain_ringQ (s : State) (d : Nat) (x : Domain) : (s.setDomain d x).ringQ = s.ringQ := rfl
@[simp] theorem State.setDomain_tasks (s : State) (d : Nat) (x : Domain) : (s.setDomain d x).tasks = s.tasks := rfl
@[simp] theorem State.setDomain_exits (s : State) (d : Nat) (x : Domain) : (s.setDomain d x).exits = s.exits := rfl
@[simp] theorem State.setDomain_images (s : State) (d : Nat) (x : Domain) : (s.setDomain d x).images = s.images := rfl
@[simp] theorem State.setDomain_musts (s : State) (d : Nat) (x : Domain) : (s.setDomain d x).musts = s.musts := rfl
@[simp] theorem State.setDomain_keep (s : State) (d : Nat) (x : Domain) : (s.setDomain d x).keep = s.keep := rfl
@[simp] theorem State.setDomain_power (s : State) (d : Nat) (x : Domain) : (s.setDomain d x).power = s.power := rfl
@[simp] theorem State.setDomain_gangNow (s : State) (d : Nat) (x : Domain) : (s.setDomain d x).gangNow = s.gangNow := rfl
@[simp] theorem State.setDomain_gangNext (s : State) (d : Nat) (x : Domain) : (s.setDomain d x).gangNext = s.gangNext := rfl
@[simp] theorem State.setDomain_notices (s : State) (d : Nat) (x : Domain) : (s.setDomain d x).notices = s.notices := rfl
@[simp] theorem State.setDomain_passed (s : State) (d : Nat) (x : Domain) : (s.setDomain d x).passed = s.passed := rfl
@[simp] theorem State.setDomain_visits (s : State) (d : Nat) (x : Domain) : (s.setDomain d x).visits = s.visits := rfl
@[simp] theorem State.setDomain_jobs (s : State) (d : Nat) (x : Domain) : (s.setDomain d x).jobs = s.jobs := rfl
@[simp] theorem State.setDomain_slots (s : State) (d : Nat) (x : Domain) : (s.setDomain d x).slots = s.slots := rfl
@[simp] theorem State.setDomain_gangStops (s : State) (d : Nat) (x : Domain) : (s.setDomain d x).gangStops = s.gangStops := rfl
@[simp] theorem State.setDomain_syncAt (s : State) (d : Nat) (x : Domain) : (s.setDomain d x).syncAt = s.syncAt := rfl
@[simp] theorem State.setDomain_nextTid (s : State) (d : Nat) (x : Domain) : (s.setDomain d x).nextTid = s.nextTid := rfl
@[simp] theorem State.setDomain_nextLaunch (s : State) (d : Nat) (x : Domain) : (s.setDomain d x).nextLaunch = s.nextLaunch := rfl
@[simp] theorem State.setDomain_detId (s : State) (d : Nat) (x : Domain) : (s.setDomain d x).detId = s.detId := rfl
@[simp] theorem State.setDomain_cmdSeq (s : State) (d : Nat) (x : Domain) : (s.setDomain d x).cmdSeq = s.cmdSeq := rfl

/-! ## setLink -/

@[simp] theorem State.setLink_b (s : State) (l : Nat) (k : Link) : (s.setLink l k).b = s.b := rfl
@[simp] theorem State.setLink_peers (s : State) (l : Nat) (k : Link) : (s.setLink l k).peers = s.peers := rfl
@[simp] theorem State.setLink_agenda (s : State) (l : Nat) (k : Link) : (s.setLink l k).agenda = s.agenda := rfl
@[simp] theorem State.setLink_tick (s : State) (l : Nat) (k : Link) : (s.setLink l k).tick = s.tick := rfl
@[simp] theorem State.setLink_clk (s : State) (l : Nat) (k : Link) : (s.setLink l k).clk = s.clk := rfl
@[simp] theorem State.setLink_ftime (s : State) (l : Nat) (k : Link) : (s.setLink l k).ftime = s.ftime := rfl
@[simp] theorem State.setLink_mem (s : State) (l : Nat) (k : Link) : (s.setLink l k).mem = s.mem := rfl
@[simp] theorem State.setLink_pois (s : State) (l : Nat) (k : Link) : (s.setLink l k).pois = s.pois := rfl
@[simp] theorem State.setLink_dtag (s : State) (l : Nat) (k : Link) : (s.setLink l k).dtag = s.dtag := rfl
@[simp] theorem State.setLink_blk (s : State) (l : Nat) (k : Link) : (s.setLink l k).blk = s.blk := rfl
@[simp] theorem State.setLink_img (s : State) (l : Nat) (k : Link) : (s.setLink l k).img = s.img := rfl
@[simp] theorem State.setLink_twk (s : State) (l : Nat) (k : Link) : (s.setLink l k).twk = s.twk := rfl
@[simp] theorem State.setLink_cache (s : State) (l : Nat) (k : Link) : (s.setLink l k).cache = s.cache := rfl
@[simp] theorem State.setLink_bufs (s : State) (l : Nat) (k : Link) : (s.setLink l k).bufs = s.bufs := rfl
@[simp] theorem State.setLink_acnt (s : State) (l : Nat) (k : Link) : (s.setLink l k).acnt = s.acnt := rfl
@[simp] theorem State.setLink_wq (s : State) (l : Nat) (k : Link) : (s.setLink l k).wq = s.wq := rfl
@[simp] theorem State.setLink_remote (s : State) (l : Nat) (k : Link) : (s.setLink l k).remote = s.remote := rfl
@[simp] theorem State.setLink_upset (s : State) (l : Nat) (k : Link) : (s.setLink l k).upset = s.upset := rfl
@[simp] theorem State.setLink_logs (s : State) (l : Nat) (k : Link) : (s.setLink l k).logs = s.logs := rfl
@[simp] theorem State.setLink_routers (s : State) (l : Nat) (k : Link) : (s.setLink l k).routers = s.routers := rfl
@[simp] theorem State.setLink_dome0 (s : State) (l : Nat) (k : Link) : (s.setLink l k).dome0 = s.dome0 := rfl
@[simp] theorem State.setLink_dome1 (s : State) (l : Nat) (k : Link) : (s.setLink l k).dome1 = s.dome1 := rfl
@[simp] theorem State.setLink_toks (s : State) (l : Nat) (k : Link) : (s.setLink l k).toks = s.toks := rfl
@[simp] theorem State.setLink_doms (s : State) (l : Nat) (k : Link) : (s.setLink l k).doms = s.doms := rfl
@[simp] theorem State.setLink_engs (s : State) (l : Nat) (k : Link) : (s.setLink l k).engs = s.engs := rfl
@[simp] theorem State.setLink_ctxTab (s : State) (l : Nat) (k : Link) : (s.setLink l k).ctxTab = s.ctxTab := rfl
@[simp] theorem State.setLink_win (s : State) (l : Nat) (k : Link) : (s.setLink l k).win = s.win := rfl
@[simp] theorem State.setLink_regions (s : State) (l : Nat) (k : Link) : (s.setLink l k).regions = s.regions := rfl
@[simp] theorem State.setLink_groups (s : State) (l : Nat) (k : Link) : (s.setLink l k).groups = s.groups := rfl
@[simp] theorem State.setLink_node (s : State) (l : Nat) (k : Link) : (s.setLink l k).node = s.node := rfl
@[simp] theorem State.setLink_links (s : State) (l : Nat) (k : Link) : (s.setLink l k).links = vset s.links l k := rfl
@[simp] theorem State.setLink_out (s : State) (l : Nat) (k : Link) : (s.setLink l k).out = s.out := rfl
@[simp] theorem State.setLink_egress (s : State) (l : Nat) (k : Link) : (s.setLink l k).egress = s.egress := rfl
@[simp] theorem State.setLink_hops (s : State) (l : Nat) (k : Link) : (s.setLink l k).hops = s.hops := rfl
@[simp] theorem State.setLink_ports (s : State) (l : Nat) (k : Link) : (s.setLink l k).ports = s.ports := rfl
@[simp] theorem State.setLink_paused (s : State) (l : Nat) (k : Link) : (s.setLink l k).paused = s.paused := rfl
@[simp] theorem State.setLink_keys (s : State) (l : Nat) (k : Link) : (s.setLink l k).keys = s.keys := rfl
@[simp] theorem State.setLink_sec (s : State) (l : Nat) (k : Link) : (s.setLink l k).sec = s.sec := rfl
@[simp] theorem State.setLink_inServ (s : State) (l : Nat) (k : Link) : (s.setLink l k).inServ = s.inServ := rfl
@[simp] theorem State.setLink_launches (s : State) (l : Nat) (k : Link) : (s.setLink l k).launches = s.launches := rfl
@[simp] theorem State.setLink_ringQ (s : State) (l : Nat) (k : Link) : (s.setLink l k).ringQ = s.ringQ := rfl
@[simp] theorem State.setLink_tasks (s : State) (l : Nat) (k : Link) : (s.setLink l k).tasks = s.tasks := rfl
@[simp] theorem State.setLink_exits (s : State) (l : Nat) (k : Link) : (s.setLink l k).exits = s.exits := rfl
@[simp] theorem State.setLink_images (s : State) (l : Nat) (k : Link) : (s.setLink l k).images = s.images := rfl
@[simp] theorem State.setLink_musts (s : State) (l : Nat) (k : Link) : (s.setLink l k).musts = s.musts := rfl
@[simp] theorem State.setLink_keep (s : State) (l : Nat) (k : Link) : (s.setLink l k).keep = s.keep := rfl
@[simp] theorem State.setLink_power (s : State) (l : Nat) (k : Link) : (s.setLink l k).power = s.power := rfl
@[simp] theorem State.setLink_gangNow (s : State) (l : Nat) (k : Link) : (s.setLink l k).gangNow = s.gangNow := rfl
@[simp] theorem State.setLink_gangNext (s : State) (l : Nat) (k : Link) : (s.setLink l k).gangNext = s.gangNext := rfl
@[simp] theorem State.setLink_notices (s : State) (l : Nat) (k : Link) : (s.setLink l k).notices = s.notices := rfl
@[simp] theorem State.setLink_passed (s : State) (l : Nat) (k : Link) : (s.setLink l k).passed = s.passed := rfl
@[simp] theorem State.setLink_visits (s : State) (l : Nat) (k : Link) : (s.setLink l k).visits = s.visits := rfl
@[simp] theorem State.setLink_jobs (s : State) (l : Nat) (k : Link) : (s.setLink l k).jobs = s.jobs := rfl
@[simp] theorem State.setLink_slots (s : State) (l : Nat) (k : Link) : (s.setLink l k).slots = s.slots := rfl
@[simp] theorem State.setLink_gangStops (s : State) (l : Nat) (k : Link) : (s.setLink l k).gangStops = s.gangStops := rfl
@[simp] theorem State.setLink_syncAt (s : State) (l : Nat) (k : Link) : (s.setLink l k).syncAt = s.syncAt := rfl
@[simp] theorem State.setLink_nextTid (s : State) (l : Nat) (k : Link) : (s.setLink l k).nextTid = s.nextTid := rfl
@[simp] theorem State.setLink_nextLaunch (s : State) (l : Nat) (k : Link) : (s.setLink l k).nextLaunch = s.nextLaunch := rfl
@[simp] theorem State.setLink_detId (s : State) (l : Nat) (k : Link) : (s.setLink l k).detId = s.detId := rfl
@[simp] theorem State.setLink_cmdSeq (s : State) (l : Nat) (k : Link) : (s.setLink l k).cmdSeq = s.cmdSeq := rfl

/-! ## onReg -/

@[simp] theorem State.onReg_b (s : State) (i : Nat) (f : Task → Task) : (s.onReg i f).b = s.b := rfl
@[simp] theorem State.onReg_peers (s : State) (i : Nat) (f : Task → Task) : (s.onReg i f).peers = s.peers := rfl
@[simp] theorem State.onReg_agenda (s : State) (i : Nat) (f : Task → Task) : (s.onReg i f).agenda = s.agenda := rfl
@[simp] theorem State.onReg_tick (s : State) (i : Nat) (f : Task → Task) : (s.onReg i f).tick = s.tick := rfl
@[simp] theorem State.onReg_clk (s : State) (i : Nat) (f : Task → Task) : (s.onReg i f).clk = s.clk := rfl
@[simp] theorem State.onReg_ftime (s : State) (i : Nat) (f : Task → Task) : (s.onReg i f).ftime = s.ftime := rfl
@[simp] theorem State.onReg_mem (s : State) (i : Nat) (f : Task → Task) : (s.onReg i f).mem = s.mem := rfl
@[simp] theorem State.onReg_pois (s : State) (i : Nat) (f : Task → Task) : (s.onReg i f).pois = s.pois := rfl
@[simp] theorem State.onReg_dtag (s : State) (i : Nat) (f : Task → Task) : (s.onReg i f).dtag = s.dtag := rfl
@[simp] theorem State.onReg_blk (s : State) (i : Nat) (f : Task → Task) : (s.onReg i f).blk = s.blk := rfl
@[simp] theorem State.onReg_img (s : State) (i : Nat) (f : Task → Task) : (s.onReg i f).img = s.img := rfl
@[simp] theorem State.onReg_twk (s : State) (i : Nat) (f : Task → Task) : (s.onReg i f).twk = s.twk := rfl
@[simp] theorem State.onReg_cache (s : State) (i : Nat) (f : Task → Task) : (s.onReg i f).cache = s.cache := rfl
@[simp] theorem State.onReg_bufs (s : State) (i : Nat) (f : Task → Task) : (s.onReg i f).bufs = s.bufs := rfl
@[simp] theorem State.onReg_acnt (s : State) (i : Nat) (f : Task → Task) : (s.onReg i f).acnt = s.acnt := rfl
@[simp] theorem State.onReg_wq (s : State) (i : Nat) (f : Task → Task) : (s.onReg i f).wq = s.wq := rfl
@[simp] theorem State.onReg_remote (s : State) (i : Nat) (f : Task → Task) : (s.onReg i f).remote = s.remote := rfl
@[simp] theorem State.onReg_upset (s : State) (i : Nat) (f : Task → Task) : (s.onReg i f).upset = s.upset := rfl
@[simp] theorem State.onReg_logs (s : State) (i : Nat) (f : Task → Task) : (s.onReg i f).logs = s.logs := rfl
@[simp] theorem State.onReg_routers (s : State) (i : Nat) (f : Task → Task) : (s.onReg i f).routers = s.routers := rfl
@[simp] theorem State.onReg_dome0 (s : State) (i : Nat) (f : Task → Task) : (s.onReg i f).dome0 = s.dome0 := rfl
@[simp] theorem State.onReg_dome1 (s : State) (i : Nat) (f : Task → Task) : (s.onReg i f).dome1 = s.dome1 := rfl
@[simp] theorem State.onReg_toks (s : State) (i : Nat) (f : Task → Task) : (s.onReg i f).toks = s.toks := rfl
@[simp] theorem State.onReg_doms (s : State) (i : Nat) (f : Task → Task) : (s.onReg i f).doms = s.doms := rfl
@[simp] theorem State.onReg_engs (s : State) (i : Nat) (f : Task → Task) : (s.onReg i f).engs = s.engs := rfl
@[simp] theorem State.onReg_ctxTab (s : State) (i : Nat) (f : Task → Task) : (s.onReg i f).ctxTab = s.ctxTab := rfl
@[simp] theorem State.onReg_win (s : State) (i : Nat) (f : Task → Task) : (s.onReg i f).win = s.win := rfl
@[simp] theorem State.onReg_regions (s : State) (i : Nat) (f : Task → Task) : (s.onReg i f).regions = s.regions := rfl
@[simp] theorem State.onReg_groups (s : State) (i : Nat) (f : Task → Task) : (s.onReg i f).groups = s.groups := rfl
@[simp] theorem State.onReg_node (s : State) (i : Nat) (f : Task → Task) : (s.onReg i f).node = s.node := rfl
@[simp] theorem State.onReg_links (s : State) (i : Nat) (f : Task → Task) : (s.onReg i f).links = s.links := rfl
@[simp] theorem State.onReg_out (s : State) (i : Nat) (f : Task → Task) : (s.onReg i f).out = s.out := rfl
@[simp] theorem State.onReg_egress (s : State) (i : Nat) (f : Task → Task) : (s.onReg i f).egress = s.egress := rfl
@[simp] theorem State.onReg_hops (s : State) (i : Nat) (f : Task → Task) : (s.onReg i f).hops = s.hops := rfl
@[simp] theorem State.onReg_ports (s : State) (i : Nat) (f : Task → Task) : (s.onReg i f).ports = s.ports := rfl
@[simp] theorem State.onReg_paused (s : State) (i : Nat) (f : Task → Task) : (s.onReg i f).paused = s.paused := rfl
@[simp] theorem State.onReg_keys (s : State) (i : Nat) (f : Task → Task) : (s.onReg i f).keys = s.keys := rfl
@[simp] theorem State.onReg_sec (s : State) (i : Nat) (f : Task → Task) : (s.onReg i f).sec = s.sec := rfl
@[simp] theorem State.onReg_inServ (s : State) (i : Nat) (f : Task → Task) : (s.onReg i f).inServ = s.inServ := rfl
@[simp] theorem State.onReg_launches (s : State) (i : Nat) (f : Task → Task) : (s.onReg i f).launches = s.launches := rfl
@[simp] theorem State.onReg_ringQ (s : State) (i : Nat) (f : Task → Task) : (s.onReg i f).ringQ = s.ringQ := rfl
@[simp] theorem State.onReg_tasks (s : State) (i : Nat) (f : Task → Task) : (s.onReg i f).tasks = s.tasks.map (fun t => if t.tid = i then f t else t) := rfl
@[simp] theorem State.onReg_exits (s : State) (i : Nat) (f : Task → Task) : (s.onReg i f).exits = s.exits := rfl
@[simp] theorem State.onReg_images (s : State) (i : Nat) (f : Task → Task) : (s.onReg i f).images = s.images := rfl
@[simp] theorem State.onReg_musts (s : State) (i : Nat) (f : Task → Task) : (s.onReg i f).musts = s.musts := rfl
@[simp] theorem State.onReg_keep (s : State) (i : Nat) (f : Task → Task) : (s.onReg i f).keep = s.keep := rfl
@[simp] theorem State.onReg_power (s : State) (i : Nat) (f : Task → Task) : (s.onReg i f).power = s.power := rfl
@[simp] theorem State.onReg_gangNow (s : State) (i : Nat) (f : Task → Task) : (s.onReg i f).gangNow = s.gangNow := rfl
@[simp] theorem State.onReg_gangNext (s : State) (i : Nat) (f : Task → Task) : (s.onReg i f).gangNext = s.gangNext := rfl
@[simp] theorem State.onReg_notices (s : State) (i : Nat) (f : Task → Task) : (s.onReg i f).notices = s.notices := rfl
@[simp] theorem State.onReg_passed (s : State) (i : Nat) (f : Task → Task) : (s.onReg i f).passed = s.passed := rfl
@[simp] theorem State.onReg_visits (s : State) (i : Nat) (f : Task → Task) : (s.onReg i f).visits = s.visits := rfl
@[simp] theorem State.onReg_jobs (s : State) (i : Nat) (f : Task → Task) : (s.onReg i f).jobs = s.jobs := rfl
@[simp] theorem State.onReg_slots (s : State) (i : Nat) (f : Task → Task) : (s.onReg i f).slots = s.slots := rfl
@[simp] theorem State.onReg_gangStops (s : State) (i : Nat) (f : Task → Task) : (s.onReg i f).gangStops = s.gangStops := rfl
@[simp] theorem State.onReg_syncAt (s : State) (i : Nat) (f : Task → Task) : (s.onReg i f).syncAt = s.syncAt := rfl
@[simp] theorem State.onReg_nextTid (s : State) (i : Nat) (f : Task → Task) : (s.onReg i f).nextTid = s.nextTid := rfl
@[simp] theorem State.onReg_nextLaunch (s : State) (i : Nat) (f : Task → Task) : (s.onReg i f).nextLaunch = s.nextLaunch := rfl
@[simp] theorem State.onReg_detId (s : State) (i : Nat) (f : Task → Task) : (s.onReg i f).detId = s.detId := rfl
@[simp] theorem State.onReg_cmdSeq (s : State) (i : Nat) (f : Task → Task) : (s.onReg i f).cmdSeq = s.cmdSeq := rfl

/-! ## onLaunch -/

@[simp] theorem State.onLaunch_b (s : State) (i : Nat) (f : Launch → Launch) : (s.onLaunch i f).b = s.b := rfl
@[simp] theorem State.onLaunch_peers (s : State) (i : Nat) (f : Launch → Launch) : (s.onLaunch i f).peers = s.peers := rfl
@[simp] theorem State.onLaunch_agenda (s : State) (i : Nat) (f : Launch → Launch) : (s.onLaunch i f).agenda = s.agenda := rfl
@[simp] theorem State.onLaunch_tick (s : State) (i : Nat) (f : Launch → Launch) : (s.onLaunch i f).tick = s.tick := rfl
@[simp] theorem State.onLaunch_clk (s : State) (i : Nat) (f : Launch → Launch) : (s.onLaunch i f).clk = s.clk := rfl
@[simp] theorem State.onLaunch_ftime (s : State) (i : Nat) (f : Launch → Launch) : (s.onLaunch i f).ftime = s.ftime := rfl
@[simp] theorem State.onLaunch_mem (s : State) (i : Nat) (f : Launch → Launch) : (s.onLaunch i f).mem = s.mem := rfl
@[simp] theorem State.onLaunch_pois (s : State) (i : Nat) (f : Launch → Launch) : (s.onLaunch i f).pois = s.pois := rfl
@[simp] theorem State.onLaunch_dtag (s : State) (i : Nat) (f : Launch → Launch) : (s.onLaunch i f).dtag = s.dtag := rfl
@[simp] theorem State.onLaunch_blk (s : State) (i : Nat) (f : Launch → Launch) : (s.onLaunch i f).blk = s.blk := rfl
@[simp] theorem State.onLaunch_img (s : State) (i : Nat) (f : Launch → Launch) : (s.onLaunch i f).img = s.img := rfl
@[simp] theorem State.onLaunch_twk (s : State) (i : Nat) (f : Launch → Launch) : (s.onLaunch i f).twk = s.twk := rfl
@[simp] theorem State.onLaunch_cache (s : State) (i : Nat) (f : Launch → Launch) : (s.onLaunch i f).cache = s.cache := rfl
@[simp] theorem State.onLaunch_bufs (s : State) (i : Nat) (f : Launch → Launch) : (s.onLaunch i f).bufs = s.bufs := rfl
@[simp] theorem State.onLaunch_acnt (s : State) (i : Nat) (f : Launch → Launch) : (s.onLaunch i f).acnt = s.acnt := rfl
@[simp] theorem State.onLaunch_wq (s : State) (i : Nat) (f : Launch → Launch) : (s.onLaunch i f).wq = s.wq := rfl
@[simp] theorem State.onLaunch_remote (s : State) (i : Nat) (f : Launch → Launch) : (s.onLaunch i f).remote = s.remote := rfl
@[simp] theorem State.onLaunch_upset (s : State) (i : Nat) (f : Launch → Launch) : (s.onLaunch i f).upset = s.upset := rfl
@[simp] theorem State.onLaunch_logs (s : State) (i : Nat) (f : Launch → Launch) : (s.onLaunch i f).logs = s.logs := rfl
@[simp] theorem State.onLaunch_routers (s : State) (i : Nat) (f : Launch → Launch) : (s.onLaunch i f).routers = s.routers := rfl
@[simp] theorem State.onLaunch_dome0 (s : State) (i : Nat) (f : Launch → Launch) : (s.onLaunch i f).dome0 = s.dome0 := rfl
@[simp] theorem State.onLaunch_dome1 (s : State) (i : Nat) (f : Launch → Launch) : (s.onLaunch i f).dome1 = s.dome1 := rfl
@[simp] theorem State.onLaunch_toks (s : State) (i : Nat) (f : Launch → Launch) : (s.onLaunch i f).toks = s.toks := rfl
@[simp] theorem State.onLaunch_doms (s : State) (i : Nat) (f : Launch → Launch) : (s.onLaunch i f).doms = s.doms := rfl
@[simp] theorem State.onLaunch_engs (s : State) (i : Nat) (f : Launch → Launch) : (s.onLaunch i f).engs = s.engs := rfl
@[simp] theorem State.onLaunch_ctxTab (s : State) (i : Nat) (f : Launch → Launch) : (s.onLaunch i f).ctxTab = s.ctxTab := rfl
@[simp] theorem State.onLaunch_win (s : State) (i : Nat) (f : Launch → Launch) : (s.onLaunch i f).win = s.win := rfl
@[simp] theorem State.onLaunch_regions (s : State) (i : Nat) (f : Launch → Launch) : (s.onLaunch i f).regions = s.regions := rfl
@[simp] theorem State.onLaunch_groups (s : State) (i : Nat) (f : Launch → Launch) : (s.onLaunch i f).groups = s.groups := rfl
@[simp] theorem State.onLaunch_node (s : State) (i : Nat) (f : Launch → Launch) : (s.onLaunch i f).node = s.node := rfl
@[simp] theorem State.onLaunch_links (s : State) (i : Nat) (f : Launch → Launch) : (s.onLaunch i f).links = s.links := rfl
@[simp] theorem State.onLaunch_out (s : State) (i : Nat) (f : Launch → Launch) : (s.onLaunch i f).out = s.out := rfl
@[simp] theorem State.onLaunch_egress (s : State) (i : Nat) (f : Launch → Launch) : (s.onLaunch i f).egress = s.egress := rfl
@[simp] theorem State.onLaunch_hops (s : State) (i : Nat) (f : Launch → Launch) : (s.onLaunch i f).hops = s.hops := rfl
@[simp] theorem State.onLaunch_ports (s : State) (i : Nat) (f : Launch → Launch) : (s.onLaunch i f).ports = s.ports := rfl
@[simp] theorem State.onLaunch_paused (s : State) (i : Nat) (f : Launch → Launch) : (s.onLaunch i f).paused = s.paused := rfl
@[simp] theorem State.onLaunch_keys (s : State) (i : Nat) (f : Launch → Launch) : (s.onLaunch i f).keys = s.keys := rfl
@[simp] theorem State.onLaunch_sec (s : State) (i : Nat) (f : Launch → Launch) : (s.onLaunch i f).sec = s.sec := rfl
@[simp] theorem State.onLaunch_inServ (s : State) (i : Nat) (f : Launch → Launch) : (s.onLaunch i f).inServ = s.inServ := rfl
@[simp] theorem State.onLaunch_launches (s : State) (i : Nat) (f : Launch → Launch) : (s.onLaunch i f).launches = s.launches.map (fun l => if l.id = i then f l else l) := rfl
@[simp] theorem State.onLaunch_ringQ (s : State) (i : Nat) (f : Launch → Launch) : (s.onLaunch i f).ringQ = s.ringQ := rfl
@[simp] theorem State.onLaunch_tasks (s : State) (i : Nat) (f : Launch → Launch) : (s.onLaunch i f).tasks = s.tasks := rfl
@[simp] theorem State.onLaunch_exits (s : State) (i : Nat) (f : Launch → Launch) : (s.onLaunch i f).exits = s.exits := rfl
@[simp] theorem State.onLaunch_images (s : State) (i : Nat) (f : Launch → Launch) : (s.onLaunch i f).images = s.images := rfl
@[simp] theorem State.onLaunch_musts (s : State) (i : Nat) (f : Launch → Launch) : (s.onLaunch i f).musts = s.musts := rfl
@[simp] theorem State.onLaunch_keep (s : State) (i : Nat) (f : Launch → Launch) : (s.onLaunch i f).keep = s.keep := rfl
@[simp] theorem State.onLaunch_power (s : State) (i : Nat) (f : Launch → Launch) : (s.onLaunch i f).power = s.power := rfl
@[simp] theorem State.onLaunch_gangNow (s : State) (i : Nat) (f : Launch → Launch) : (s.onLaunch i f).gangNow = s.gangNow := rfl
@[simp] theorem State.onLaunch_gangNext (s : State) (i : Nat) (f : Launch → Launch) : (s.onLaunch i f).gangNext = s.gangNext := rfl
@[simp] theorem State.onLaunch_notices (s : State) (i : Nat) (f : Launch → Launch) : (s.onLaunch i f).notices = s.notices := rfl
@[simp] theorem State.onLaunch_passed (s : State) (i : Nat) (f : Launch → Launch) : (s.onLaunch i f).passed = s.passed := rfl
@[simp] theorem State.onLaunch_visits (s : State) (i : Nat) (f : Launch → Launch) : (s.onLaunch i f).visits = s.visits := rfl
@[simp] theorem State.onLaunch_jobs (s : State) (i : Nat) (f : Launch → Launch) : (s.onLaunch i f).jobs = s.jobs := rfl
@[simp] theorem State.onLaunch_slots (s : State) (i : Nat) (f : Launch → Launch) : (s.onLaunch i f).slots = s.slots := rfl
@[simp] theorem State.onLaunch_gangStops (s : State) (i : Nat) (f : Launch → Launch) : (s.onLaunch i f).gangStops = s.gangStops := rfl
@[simp] theorem State.onLaunch_syncAt (s : State) (i : Nat) (f : Launch → Launch) : (s.onLaunch i f).syncAt = s.syncAt := rfl
@[simp] theorem State.onLaunch_nextTid (s : State) (i : Nat) (f : Launch → Launch) : (s.onLaunch i f).nextTid = s.nextTid := rfl
@[simp] theorem State.onLaunch_nextLaunch (s : State) (i : Nat) (f : Launch → Launch) : (s.onLaunch i f).nextLaunch = s.nextLaunch := rfl
@[simp] theorem State.onLaunch_detId (s : State) (i : Nat) (f : Launch → Launch) : (s.onLaunch i f).detId = s.detId := rfl
@[simp] theorem State.onLaunch_cmdSeq (s : State) (i : Nat) (f : Launch → Launch) : (s.onLaunch i f).cmdSeq = s.cmdSeq := rfl

/-! ## onImage -/

@[simp] theorem State.onImage_b (s : State) (i : Nat) (f : Brick → Brick) : (s.onImage i f).b = s.b := rfl
@[simp] theorem State.onImage_peers (s : State) (i : Nat) (f : Brick → Brick) : (s.onImage i f).peers = s.peers := rfl
@[simp] theorem State.onImage_agenda (s : State) (i : Nat) (f : Brick → Brick) : (s.onImage i f).agenda = s.agenda := rfl
@[simp] theorem State.onImage_tick (s : State) (i : Nat) (f : Brick → Brick) : (s.onImage i f).tick = s.tick := rfl
@[simp] theorem State.onImage_clk (s : State) (i : Nat) (f : Brick → Brick) : (s.onImage i f).clk = s.clk := rfl
@[simp] theorem State.onImage_ftime (s : State) (i : Nat) (f : Brick → Brick) : (s.onImage i f).ftime = s.ftime := rfl
@[simp] theorem State.onImage_mem (s : State) (i : Nat) (f : Brick → Brick) : (s.onImage i f).mem = s.mem := rfl
@[simp] theorem State.onImage_pois (s : State) (i : Nat) (f : Brick → Brick) : (s.onImage i f).pois = s.pois := rfl
@[simp] theorem State.onImage_dtag (s : State) (i : Nat) (f : Brick → Brick) : (s.onImage i f).dtag = s.dtag := rfl
@[simp] theorem State.onImage_blk (s : State) (i : Nat) (f : Brick → Brick) : (s.onImage i f).blk = s.blk := rfl
@[simp] theorem State.onImage_img (s : State) (i : Nat) (f : Brick → Brick) : (s.onImage i f).img = s.img := rfl
@[simp] theorem State.onImage_twk (s : State) (i : Nat) (f : Brick → Brick) : (s.onImage i f).twk = s.twk := rfl
@[simp] theorem State.onImage_cache (s : State) (i : Nat) (f : Brick → Brick) : (s.onImage i f).cache = s.cache := rfl
@[simp] theorem State.onImage_bufs (s : State) (i : Nat) (f : Brick → Brick) : (s.onImage i f).bufs = s.bufs := rfl
@[simp] theorem State.onImage_acnt (s : State) (i : Nat) (f : Brick → Brick) : (s.onImage i f).acnt = s.acnt := rfl
@[simp] theorem State.onImage_wq (s : State) (i : Nat) (f : Brick → Brick) : (s.onImage i f).wq = s.wq := rfl
@[simp] theorem State.onImage_remote (s : State) (i : Nat) (f : Brick → Brick) : (s.onImage i f).remote = s.remote := rfl
@[simp] theorem State.onImage_upset (s : State) (i : Nat) (f : Brick → Brick) : (s.onImage i f).upset = s.upset := rfl
@[simp] theorem State.onImage_logs (s : State) (i : Nat) (f : Brick → Brick) : (s.onImage i f).logs = s.logs := rfl
@[simp] theorem State.onImage_routers (s : State) (i : Nat) (f : Brick → Brick) : (s.onImage i f).routers = s.routers := rfl
@[simp] theorem State.onImage_dome0 (s : State) (i : Nat) (f : Brick → Brick) : (s.onImage i f).dome0 = s.dome0 := rfl
@[simp] theorem State.onImage_dome1 (s : State) (i : Nat) (f : Brick → Brick) : (s.onImage i f).dome1 = s.dome1 := rfl
@[simp] theorem State.onImage_toks (s : State) (i : Nat) (f : Brick → Brick) : (s.onImage i f).toks = s.toks := rfl
@[simp] theorem State.onImage_doms (s : State) (i : Nat) (f : Brick → Brick) : (s.onImage i f).doms = s.doms := rfl
@[simp] theorem State.onImage_engs (s : State) (i : Nat) (f : Brick → Brick) : (s.onImage i f).engs = s.engs := rfl
@[simp] theorem State.onImage_ctxTab (s : State) (i : Nat) (f : Brick → Brick) : (s.onImage i f).ctxTab = s.ctxTab := rfl
@[simp] theorem State.onImage_win (s : State) (i : Nat) (f : Brick → Brick) : (s.onImage i f).win = s.win := rfl
@[simp] theorem State.onImage_regions (s : State) (i : Nat) (f : Brick → Brick) : (s.onImage i f).regions = s.regions := rfl
@[simp] theorem State.onImage_groups (s : State) (i : Nat) (f : Brick → Brick) : (s.onImage i f).groups = s.groups := rfl
@[simp] theorem State.onImage_node (s : State) (i : Nat) (f : Brick → Brick) : (s.onImage i f).node = s.node := rfl
@[simp] theorem State.onImage_links (s : State) (i : Nat) (f : Brick → Brick) : (s.onImage i f).links = s.links := rfl
@[simp] theorem State.onImage_out (s : State) (i : Nat) (f : Brick → Brick) : (s.onImage i f).out = s.out := rfl
@[simp] theorem State.onImage_egress (s : State) (i : Nat) (f : Brick → Brick) : (s.onImage i f).egress = s.egress := rfl
@[simp] theorem State.onImage_hops (s : State) (i : Nat) (f : Brick → Brick) : (s.onImage i f).hops = s.hops := rfl
@[simp] theorem State.onImage_ports (s : State) (i : Nat) (f : Brick → Brick) : (s.onImage i f).ports = s.ports := rfl
@[simp] theorem State.onImage_paused (s : State) (i : Nat) (f : Brick → Brick) : (s.onImage i f).paused = s.paused := rfl
@[simp] theorem State.onImage_keys (s : State) (i : Nat) (f : Brick → Brick) : (s.onImage i f).keys = s.keys := rfl
@[simp] theorem State.onImage_sec (s : State) (i : Nat) (f : Brick → Brick) : (s.onImage i f).sec = s.sec := rfl
@[simp] theorem State.onImage_inServ (s : State) (i : Nat) (f : Brick → Brick) : (s.onImage i f).inServ = s.inServ := rfl
@[simp] theorem State.onImage_launches (s : State) (i : Nat) (f : Brick → Brick) : (s.onImage i f).launches = s.launches := rfl
@[simp] theorem State.onImage_ringQ (s : State) (i : Nat) (f : Brick → Brick) : (s.onImage i f).ringQ = s.ringQ := rfl
@[simp] theorem State.onImage_tasks (s : State) (i : Nat) (f : Brick → Brick) : (s.onImage i f).tasks = s.tasks := rfl
@[simp] theorem State.onImage_exits (s : State) (i : Nat) (f : Brick → Brick) : (s.onImage i f).exits = s.exits := rfl
@[simp] theorem State.onImage_images (s : State) (i : Nat) (f : Brick → Brick) : (s.onImage i f).images = s.images.map (fun x => if x.task.tid = i then { x with image := f x.image } else x) := rfl
@[simp] theorem State.onImage_musts (s : State) (i : Nat) (f : Brick → Brick) : (s.onImage i f).musts = s.musts := rfl
@[simp] theorem State.onImage_keep (s : State) (i : Nat) (f : Brick → Brick) : (s.onImage i f).keep = s.keep := rfl
@[simp] theorem State.onImage_power (s : State) (i : Nat) (f : Brick → Brick) : (s.onImage i f).power = s.power := rfl
@[simp] theorem State.onImage_gangNow (s : State) (i : Nat) (f : Brick → Brick) : (s.onImage i f).gangNow = s.gangNow := rfl
@[simp] theorem State.onImage_gangNext (s : State) (i : Nat) (f : Brick → Brick) : (s.onImage i f).gangNext = s.gangNext := rfl
@[simp] theorem State.onImage_notices (s : State) (i : Nat) (f : Brick → Brick) : (s.onImage i f).notices = s.notices := rfl
@[simp] theorem State.onImage_passed (s : State) (i : Nat) (f : Brick → Brick) : (s.onImage i f).passed = s.passed := rfl
@[simp] theorem State.onImage_visits (s : State) (i : Nat) (f : Brick → Brick) : (s.onImage i f).visits = s.visits := rfl
@[simp] theorem State.onImage_jobs (s : State) (i : Nat) (f : Brick → Brick) : (s.onImage i f).jobs = s.jobs := rfl
@[simp] theorem State.onImage_slots (s : State) (i : Nat) (f : Brick → Brick) : (s.onImage i f).slots = s.slots := rfl
@[simp] theorem State.onImage_gangStops (s : State) (i : Nat) (f : Brick → Brick) : (s.onImage i f).gangStops = s.gangStops := rfl
@[simp] theorem State.onImage_syncAt (s : State) (i : Nat) (f : Brick → Brick) : (s.onImage i f).syncAt = s.syncAt := rfl
@[simp] theorem State.onImage_nextTid (s : State) (i : Nat) (f : Brick → Brick) : (s.onImage i f).nextTid = s.nextTid := rfl
@[simp] theorem State.onImage_nextLaunch (s : State) (i : Nat) (f : Brick → Brick) : (s.onImage i f).nextLaunch = s.nextLaunch := rfl
@[simp] theorem State.onImage_detId (s : State) (i : Nat) (f : Brick → Brick) : (s.onImage i f).detId = s.detId := rfl
@[simp] theorem State.onImage_cmdSeq (s : State) (i : Nat) (f : Brick → Brick) : (s.onImage i f).cmdSeq = s.cmdSeq := rfl

/-! ## dropToken -/

@[simp] theorem State.dropToken_b (s : State) (k : Nat) : (s.dropToken k).b = s.b := rfl
@[simp] theorem State.dropToken_peers (s : State) (k : Nat) : (s.dropToken k).peers = s.peers := rfl
@[simp] theorem State.dropToken_agenda (s : State) (k : Nat) : (s.dropToken k).agenda = s.agenda := rfl
@[simp] theorem State.dropToken_tick (s : State) (k : Nat) : (s.dropToken k).tick = s.tick := rfl
@[simp] theorem State.dropToken_clk (s : State) (k : Nat) : (s.dropToken k).clk = s.clk := rfl
@[simp] theorem State.dropToken_ftime (s : State) (k : Nat) : (s.dropToken k).ftime = s.ftime := rfl
@[simp] theorem State.dropToken_mem (s : State) (k : Nat) : (s.dropToken k).mem = s.mem := rfl
@[simp] theorem State.dropToken_pois (s : State) (k : Nat) : (s.dropToken k).pois = s.pois := rfl
@[simp] theorem State.dropToken_dtag (s : State) (k : Nat) : (s.dropToken k).dtag = s.dtag := rfl
@[simp] theorem State.dropToken_blk (s : State) (k : Nat) : (s.dropToken k).blk = s.blk := rfl
@[simp] theorem State.dropToken_img (s : State) (k : Nat) : (s.dropToken k).img = s.img := rfl
@[simp] theorem State.dropToken_twk (s : State) (k : Nat) : (s.dropToken k).twk = s.twk := rfl
@[simp] theorem State.dropToken_cache (s : State) (k : Nat) : (s.dropToken k).cache = s.cache := rfl
@[simp] theorem State.dropToken_bufs (s : State) (k : Nat) : (s.dropToken k).bufs = s.bufs := rfl
@[simp] theorem State.dropToken_acnt (s : State) (k : Nat) : (s.dropToken k).acnt = s.acnt := rfl
@[simp] theorem State.dropToken_wq (s : State) (k : Nat) : (s.dropToken k).wq = s.wq := rfl
@[simp] theorem State.dropToken_remote (s : State) (k : Nat) : (s.dropToken k).remote = s.remote := rfl
@[simp] theorem State.dropToken_upset (s : State) (k : Nat) : (s.dropToken k).upset = s.upset := rfl
@[simp] theorem State.dropToken_logs (s : State) (k : Nat) : (s.dropToken k).logs = s.logs := rfl
@[simp] theorem State.dropToken_routers (s : State) (k : Nat) : (s.dropToken k).routers = s.routers := rfl
@[simp] theorem State.dropToken_dome0 (s : State) (k : Nat) : (s.dropToken k).dome0 = s.dome0 := rfl
@[simp] theorem State.dropToken_dome1 (s : State) (k : Nat) : (s.dropToken k).dome1 = s.dome1 := rfl
@[simp] theorem State.dropToken_toks (s : State) (k : Nat) : (s.dropToken k).toks = s.toks.filter (fun t => t.tok != k) := rfl
@[simp] theorem State.dropToken_doms (s : State) (k : Nat) : (s.dropToken k).doms = s.doms := rfl
@[simp] theorem State.dropToken_engs (s : State) (k : Nat) : (s.dropToken k).engs = s.engs := rfl
@[simp] theorem State.dropToken_ctxTab (s : State) (k : Nat) : (s.dropToken k).ctxTab = s.ctxTab := rfl
@[simp] theorem State.dropToken_win (s : State) (k : Nat) : (s.dropToken k).win = s.win := rfl
@[simp] theorem State.dropToken_regions (s : State) (k : Nat) : (s.dropToken k).regions = s.regions := rfl
@[simp] theorem State.dropToken_groups (s : State) (k : Nat) : (s.dropToken k).groups = s.groups := rfl
@[simp] theorem State.dropToken_node (s : State) (k : Nat) : (s.dropToken k).node = s.node := rfl
@[simp] theorem State.dropToken_links (s : State) (k : Nat) : (s.dropToken k).links = s.links := rfl
@[simp] theorem State.dropToken_out (s : State) (k : Nat) : (s.dropToken k).out = s.out := rfl
@[simp] theorem State.dropToken_egress (s : State) (k : Nat) : (s.dropToken k).egress = s.egress := rfl
@[simp] theorem State.dropToken_hops (s : State) (k : Nat) : (s.dropToken k).hops = s.hops := rfl
@[simp] theorem State.dropToken_ports (s : State) (k : Nat) : (s.dropToken k).ports = s.ports := rfl
@[simp] theorem State.dropToken_paused (s : State) (k : Nat) : (s.dropToken k).paused = s.paused := rfl
@[simp] theorem State.dropToken_keys (s : State) (k : Nat) : (s.dropToken k).keys = s.keys := rfl
@[simp] theorem State.dropToken_sec (s : State) (k : Nat) : (s.dropToken k).sec = s.sec := rfl
@[simp] theorem State.dropToken_inServ (s : State) (k : Nat) : (s.dropToken k).inServ = s.inServ := rfl
@[simp] theorem State.dropToken_launches (s : State) (k : Nat) : (s.dropToken k).launches = s.launches := rfl
@[simp] theorem State.dropToken_ringQ (s : State) (k : Nat) : (s.dropToken k).ringQ = s.ringQ := rfl
@[simp] theorem State.dropToken_tasks (s : State) (k : Nat) : (s.dropToken k).tasks = s.tasks := rfl
@[simp] theorem State.dropToken_exits (s : State) (k : Nat) : (s.dropToken k).exits = s.exits := rfl
@[simp] theorem State.dropToken_images (s : State) (k : Nat) : (s.dropToken k).images = s.images := rfl
@[simp] theorem State.dropToken_musts (s : State) (k : Nat) : (s.dropToken k).musts = s.musts := rfl
@[simp] theorem State.dropToken_keep (s : State) (k : Nat) : (s.dropToken k).keep = s.keep := rfl
@[simp] theorem State.dropToken_power (s : State) (k : Nat) : (s.dropToken k).power = s.power := rfl
@[simp] theorem State.dropToken_gangNow (s : State) (k : Nat) : (s.dropToken k).gangNow = s.gangNow := rfl
@[simp] theorem State.dropToken_gangNext (s : State) (k : Nat) : (s.dropToken k).gangNext = s.gangNext := rfl
@[simp] theorem State.dropToken_notices (s : State) (k : Nat) : (s.dropToken k).notices = s.notices := rfl
@[simp] theorem State.dropToken_passed (s : State) (k : Nat) : (s.dropToken k).passed = s.passed := rfl
@[simp] theorem State.dropToken_visits (s : State) (k : Nat) : (s.dropToken k).visits = s.visits := rfl
@[simp] theorem State.dropToken_jobs (s : State) (k : Nat) : (s.dropToken k).jobs = s.jobs := rfl
@[simp] theorem State.dropToken_slots (s : State) (k : Nat) : (s.dropToken k).slots = s.slots := rfl
@[simp] theorem State.dropToken_gangStops (s : State) (k : Nat) : (s.dropToken k).gangStops = s.gangStops := rfl
@[simp] theorem State.dropToken_syncAt (s : State) (k : Nat) : (s.dropToken k).syncAt = s.syncAt := rfl
@[simp] theorem State.dropToken_nextTid (s : State) (k : Nat) : (s.dropToken k).nextTid = s.nextTid := rfl
@[simp] theorem State.dropToken_nextLaunch (s : State) (k : Nat) : (s.dropToken k).nextLaunch = s.nextLaunch := rfl
@[simp] theorem State.dropToken_detId (s : State) (k : Nat) : (s.dropToken k).detId = s.detId := rfl
@[simp] theorem State.dropToken_cmdSeq (s : State) (k : Nat) : (s.dropToken k).cmdSeq = s.cmdSeq := rfl

/-! ## mapBricks -/

@[simp] theorem State.mapBricks_b (s : State) (f : Brick → Brick) : (s.mapBricks f).b = f s.b := rfl
@[simp] theorem State.mapBricks_peers (s : State) (f : Brick → Brick) : (s.mapBricks f).peers = s.peers.map (fun p => (p.1, f p.2)) := rfl
@[simp] theorem State.mapBricks_agenda (s : State) (f : Brick → Brick) : (s.mapBricks f).agenda = s.agenda := rfl
@[simp] theorem State.mapBricks_tick (s : State) (f : Brick → Brick) : (s.mapBricks f).tick = s.tick := rfl
@[simp] theorem State.mapBricks_clk (s : State) (f : Brick → Brick) : (s.mapBricks f).clk = s.clk := rfl
@[simp] theorem State.mapBricks_ftime (s : State) (f : Brick → Brick) : (s.mapBricks f).ftime = s.ftime := rfl
@[simp] theorem State.mapBricks_mem (s : State) (f : Brick → Brick) : (s.mapBricks f).mem = s.mem := rfl
@[simp] theorem State.mapBricks_pois (s : State) (f : Brick → Brick) : (s.mapBricks f).pois = s.pois := rfl
@[simp] theorem State.mapBricks_dtag (s : State) (f : Brick → Brick) : (s.mapBricks f).dtag = s.dtag := rfl
@[simp] theorem State.mapBricks_blk (s : State) (f : Brick → Brick) : (s.mapBricks f).blk = s.blk := rfl
@[simp] theorem State.mapBricks_img (s : State) (f : Brick → Brick) : (s.mapBricks f).img = s.img := rfl
@[simp] theorem State.mapBricks_twk (s : State) (f : Brick → Brick) : (s.mapBricks f).twk = s.twk := rfl
@[simp] theorem State.mapBricks_cache (s : State) (f : Brick → Brick) : (s.mapBricks f).cache = s.cache := rfl
@[simp] theorem State.mapBricks_bufs (s : State) (f : Brick → Brick) : (s.mapBricks f).bufs = s.bufs := rfl
@[simp] theorem State.mapBricks_acnt (s : State) (f : Brick → Brick) : (s.mapBricks f).acnt = s.acnt := rfl
@[simp] theorem State.mapBricks_wq (s : State) (f : Brick → Brick) : (s.mapBricks f).wq = s.wq := rfl
@[simp] theorem State.mapBricks_remote (s : State) (f : Brick → Brick) : (s.mapBricks f).remote = s.remote := rfl
@[simp] theorem State.mapBricks_upset (s : State) (f : Brick → Brick) : (s.mapBricks f).upset = s.upset := rfl
@[simp] theorem State.mapBricks_logs (s : State) (f : Brick → Brick) : (s.mapBricks f).logs = s.logs := rfl
@[simp] theorem State.mapBricks_routers (s : State) (f : Brick → Brick) : (s.mapBricks f).routers = s.routers := rfl
@[simp] theorem State.mapBricks_dome0 (s : State) (f : Brick → Brick) : (s.mapBricks f).dome0 = s.dome0 := rfl
@[simp] theorem State.mapBricks_dome1 (s : State) (f : Brick → Brick) : (s.mapBricks f).dome1 = s.dome1 := rfl
@[simp] theorem State.mapBricks_toks (s : State) (f : Brick → Brick) : (s.mapBricks f).toks = s.toks := rfl
@[simp] theorem State.mapBricks_doms (s : State) (f : Brick → Brick) : (s.mapBricks f).doms = s.doms := rfl
@[simp] theorem State.mapBricks_engs (s : State) (f : Brick → Brick) : (s.mapBricks f).engs = s.engs := rfl
@[simp] theorem State.mapBricks_ctxTab (s : State) (f : Brick → Brick) : (s.mapBricks f).ctxTab = s.ctxTab := rfl
@[simp] theorem State.mapBricks_win (s : State) (f : Brick → Brick) : (s.mapBricks f).win = s.win := rfl
@[simp] theorem State.mapBricks_regions (s : State) (f : Brick → Brick) : (s.mapBricks f).regions = s.regions := rfl
@[simp] theorem State.mapBricks_groups (s : State) (f : Brick → Brick) : (s.mapBricks f).groups = s.groups := rfl
@[simp] theorem State.mapBricks_node (s : State) (f : Brick → Brick) : (s.mapBricks f).node = s.node := rfl
@[simp] theorem State.mapBricks_links (s : State) (f : Brick → Brick) : (s.mapBricks f).links = s.links := rfl
@[simp] theorem State.mapBricks_out (s : State) (f : Brick → Brick) : (s.mapBricks f).out = s.out := rfl
@[simp] theorem State.mapBricks_egress (s : State) (f : Brick → Brick) : (s.mapBricks f).egress = s.egress := rfl
@[simp] theorem State.mapBricks_hops (s : State) (f : Brick → Brick) : (s.mapBricks f).hops = s.hops := rfl
@[simp] theorem State.mapBricks_ports (s : State) (f : Brick → Brick) : (s.mapBricks f).ports = s.ports := rfl
@[simp] theorem State.mapBricks_paused (s : State) (f : Brick → Brick) : (s.mapBricks f).paused = s.paused := rfl
@[simp] theorem State.mapBricks_keys (s : State) (f : Brick → Brick) : (s.mapBricks f).keys = s.keys := rfl
@[simp] theorem State.mapBricks_sec (s : State) (f : Brick → Brick) : (s.mapBricks f).sec = s.sec := rfl
@[simp] theorem State.mapBricks_inServ (s : State) (f : Brick → Brick) : (s.mapBricks f).inServ = s.inServ := rfl
@[simp] theorem State.mapBricks_launches (s : State) (f : Brick → Brick) : (s.mapBricks f).launches = s.launches := rfl
@[simp] theorem State.mapBricks_ringQ (s : State) (f : Brick → Brick) : (s.mapBricks f).ringQ = s.ringQ := rfl
@[simp] theorem State.mapBricks_tasks (s : State) (f : Brick → Brick) : (s.mapBricks f).tasks = s.tasks := rfl
@[simp] theorem State.mapBricks_exits (s : State) (f : Brick → Brick) : (s.mapBricks f).exits = s.exits := rfl
@[simp] theorem State.mapBricks_images (s : State) (f : Brick → Brick) : (s.mapBricks f).images = s.images := rfl
@[simp] theorem State.mapBricks_musts (s : State) (f : Brick → Brick) : (s.mapBricks f).musts = s.musts := rfl
@[simp] theorem State.mapBricks_keep (s : State) (f : Brick → Brick) : (s.mapBricks f).keep = s.keep := rfl
@[simp] theorem State.mapBricks_power (s : State) (f : Brick → Brick) : (s.mapBricks f).power = s.power := rfl
@[simp] theorem State.mapBricks_gangNow (s : State) (f : Brick → Brick) : (s.mapBricks f).gangNow = s.gangNow := rfl
@[simp] theorem State.mapBricks_gangNext (s : State) (f : Brick → Brick) : (s.mapBricks f).gangNext = s.gangNext := rfl
@[simp] theorem State.mapBricks_notices (s : State) (f : Brick → Brick) : (s.mapBricks f).notices = s.notices := rfl
@[simp] theorem State.mapBricks_passed (s : State) (f : Brick → Brick) : (s.mapBricks f).passed = s.passed := rfl
@[simp] theorem State.mapBricks_visits (s : State) (f : Brick → Brick) : (s.mapBricks f).visits = s.visits := rfl
@[simp] theorem State.mapBricks_jobs (s : State) (f : Brick → Brick) : (s.mapBricks f).jobs = s.jobs := rfl
@[simp] theorem State.mapBricks_slots (s : State) (f : Brick → Brick) : (s.mapBricks f).slots = s.slots := rfl
@[simp] theorem State.mapBricks_gangStops (s : State) (f : Brick → Brick) : (s.mapBricks f).gangStops = s.gangStops := rfl
@[simp] theorem State.mapBricks_syncAt (s : State) (f : Brick → Brick) : (s.mapBricks f).syncAt = s.syncAt := rfl
@[simp] theorem State.mapBricks_nextTid (s : State) (f : Brick → Brick) : (s.mapBricks f).nextTid = s.nextTid := rfl
@[simp] theorem State.mapBricks_nextLaunch (s : State) (f : Brick → Brick) : (s.mapBricks f).nextLaunch = s.nextLaunch := rfl
@[simp] theorem State.mapBricks_detId (s : State) (f : Brick → Brick) : (s.mapBricks f).detId = s.detId := rfl
@[simp] theorem State.mapBricks_cmdSeq (s : State) (f : Brick → Brick) : (s.mapBricks f).cmdSeq = s.cmdSeq := rfl

/-! ## writePhys -/

@[simp] theorem State.writePhys_b (s : State) (pa : Nat) (bs : List Byte) : (s.writePhys pa bs).b = s.b := rfl
@[simp] theorem State.writePhys_peers (s : State) (pa : Nat) (bs : List Byte) : (s.writePhys pa bs).peers = s.peers := rfl
@[simp] theorem State.writePhys_agenda (s : State) (pa : Nat) (bs : List Byte) : (s.writePhys pa bs).agenda = s.agenda := rfl
@[simp] theorem State.writePhys_tick (s : State) (pa : Nat) (bs : List Byte) : (s.writePhys pa bs).tick = s.tick := rfl
@[simp] theorem State.writePhys_clk (s : State) (pa : Nat) (bs : List Byte) : (s.writePhys pa bs).clk = s.clk := rfl
@[simp] theorem State.writePhys_ftime (s : State) (pa : Nat) (bs : List Byte) : (s.writePhys pa bs).ftime = s.ftime := rfl
@[simp] theorem State.writePhys_mem (s : State) (pa : Nat) (bs : List Byte) : (s.writePhys pa bs).mem = writeBytes s.mem pa bs := rfl
@[simp] theorem State.writePhys_dtag (s : State) (pa : Nat) (bs : List Byte) : (s.writePhys pa bs).dtag = s.dtag := rfl
@[simp] theorem State.writePhys_blk (s : State) (pa : Nat) (bs : List Byte) : (s.writePhys pa bs).blk = s.blk := rfl
@[simp] theorem State.writePhys_twk (s : State) (pa : Nat) (bs : List Byte) : (s.writePhys pa bs).twk = s.twk := rfl
@[simp] theorem State.writePhys_cache (s : State) (pa : Nat) (bs : List Byte) : (s.writePhys pa bs).cache = s.cache := rfl
@[simp] theorem State.writePhys_bufs (s : State) (pa : Nat) (bs : List Byte) : (s.writePhys pa bs).bufs = s.bufs := rfl
@[simp] theorem State.writePhys_acnt (s : State) (pa : Nat) (bs : List Byte) : (s.writePhys pa bs).acnt = s.acnt := rfl
@[simp] theorem State.writePhys_wq (s : State) (pa : Nat) (bs : List Byte) : (s.writePhys pa bs).wq = s.wq := rfl
@[simp] theorem State.writePhys_remote (s : State) (pa : Nat) (bs : List Byte) : (s.writePhys pa bs).remote = s.remote := rfl
@[simp] theorem State.writePhys_upset (s : State) (pa : Nat) (bs : List Byte) : (s.writePhys pa bs).upset = s.upset := rfl
@[simp] theorem State.writePhys_logs (s : State) (pa : Nat) (bs : List Byte) : (s.writePhys pa bs).logs = s.logs := rfl
@[simp] theorem State.writePhys_routers (s : State) (pa : Nat) (bs : List Byte) : (s.writePhys pa bs).routers = s.routers := rfl
@[simp] theorem State.writePhys_dome0 (s : State) (pa : Nat) (bs : List Byte) : (s.writePhys pa bs).dome0 = s.dome0 := rfl
@[simp] theorem State.writePhys_dome1 (s : State) (pa : Nat) (bs : List Byte) : (s.writePhys pa bs).dome1 = s.dome1 := rfl
@[simp] theorem State.writePhys_toks (s : State) (pa : Nat) (bs : List Byte) : (s.writePhys pa bs).toks = s.toks := rfl
@[simp] theorem State.writePhys_doms (s : State) (pa : Nat) (bs : List Byte) : (s.writePhys pa bs).doms = s.doms := rfl
@[simp] theorem State.writePhys_engs (s : State) (pa : Nat) (bs : List Byte) : (s.writePhys pa bs).engs = s.engs := rfl
@[simp] theorem State.writePhys_ctxTab (s : State) (pa : Nat) (bs : List Byte) : (s.writePhys pa bs).ctxTab = s.ctxTab := rfl
@[simp] theorem State.writePhys_win (s : State) (pa : Nat) (bs : List Byte) : (s.writePhys pa bs).win = s.win := rfl
@[simp] theorem State.writePhys_regions (s : State) (pa : Nat) (bs : List Byte) : (s.writePhys pa bs).regions = s.regions := rfl
@[simp] theorem State.writePhys_groups (s : State) (pa : Nat) (bs : List Byte) : (s.writePhys pa bs).groups = s.groups := rfl
@[simp] theorem State.writePhys_node (s : State) (pa : Nat) (bs : List Byte) : (s.writePhys pa bs).node = s.node := rfl
@[simp] theorem State.writePhys_links (s : State) (pa : Nat) (bs : List Byte) : (s.writePhys pa bs).links = s.links := rfl
@[simp] theorem State.writePhys_out (s : State) (pa : Nat) (bs : List Byte) : (s.writePhys pa bs).out = s.out := rfl
@[simp] theorem State.writePhys_egress (s : State) (pa : Nat) (bs : List Byte) : (s.writePhys pa bs).egress = s.egress := rfl
@[simp] theorem State.writePhys_hops (s : State) (pa : Nat) (bs : List Byte) : (s.writePhys pa bs).hops = s.hops := rfl
@[simp] theorem State.writePhys_ports (s : State) (pa : Nat) (bs : List Byte) : (s.writePhys pa bs).ports = s.ports := rfl
@[simp] theorem State.writePhys_paused (s : State) (pa : Nat) (bs : List Byte) : (s.writePhys pa bs).paused = s.paused := rfl
@[simp] theorem State.writePhys_keys (s : State) (pa : Nat) (bs : List Byte) : (s.writePhys pa bs).keys = s.keys := rfl
@[simp] theorem State.writePhys_sec (s : State) (pa : Nat) (bs : List Byte) : (s.writePhys pa bs).sec = s.sec := rfl
@[simp] theorem State.writePhys_inServ (s : State) (pa : Nat) (bs : List Byte) : (s.writePhys pa bs).inServ = s.inServ := rfl
@[simp] theorem State.writePhys_launches (s : State) (pa : Nat) (bs : List Byte) : (s.writePhys pa bs).launches = s.launches := rfl
@[simp] theorem State.writePhys_ringQ (s : State) (pa : Nat) (bs : List Byte) : (s.writePhys pa bs).ringQ = s.ringQ := rfl
@[simp] theorem State.writePhys_tasks (s : State) (pa : Nat) (bs : List Byte) : (s.writePhys pa bs).tasks = s.tasks := rfl
@[simp] theorem State.writePhys_exits (s : State) (pa : Nat) (bs : List Byte) : (s.writePhys pa bs).exits = s.exits := rfl
@[simp] theorem State.writePhys_images (s : State) (pa : Nat) (bs : List Byte) : (s.writePhys pa bs).images = s.images := rfl
@[simp] theorem State.writePhys_musts (s : State) (pa : Nat) (bs : List Byte) : (s.writePhys pa bs).musts = s.musts := rfl
@[simp] theorem State.writePhys_keep (s : State) (pa : Nat) (bs : List Byte) : (s.writePhys pa bs).keep = s.keep := rfl
@[simp] theorem State.writePhys_power (s : State) (pa : Nat) (bs : List Byte) : (s.writePhys pa bs).power = s.power := rfl
@[simp] theorem State.writePhys_gangNow (s : State) (pa : Nat) (bs : List Byte) : (s.writePhys pa bs).gangNow = s.gangNow := rfl
@[simp] theorem State.writePhys_gangNext (s : State) (pa : Nat) (bs : List Byte) : (s.writePhys pa bs).gangNext = s.gangNext := rfl
@[simp] theorem State.writePhys_notices (s : State) (pa : Nat) (bs : List Byte) : (s.writePhys pa bs).notices = s.notices := rfl
@[simp] theorem State.writePhys_passed (s : State) (pa : Nat) (bs : List Byte) : (s.writePhys pa bs).passed = s.passed := rfl
@[simp] theorem State.writePhys_visits (s : State) (pa : Nat) (bs : List Byte) : (s.writePhys pa bs).visits = s.visits := rfl
@[simp] theorem State.writePhys_jobs (s : State) (pa : Nat) (bs : List Byte) : (s.writePhys pa bs).jobs = s.jobs := rfl
@[simp] theorem State.writePhys_slots (s : State) (pa : Nat) (bs : List Byte) : (s.writePhys pa bs).slots = s.slots := rfl
@[simp] theorem State.writePhys_gangStops (s : State) (pa : Nat) (bs : List Byte) : (s.writePhys pa bs).gangStops = s.gangStops := rfl
@[simp] theorem State.writePhys_syncAt (s : State) (pa : Nat) (bs : List Byte) : (s.writePhys pa bs).syncAt = s.syncAt := rfl
@[simp] theorem State.writePhys_nextTid (s : State) (pa : Nat) (bs : List Byte) : (s.writePhys pa bs).nextTid = s.nextTid := rfl
@[simp] theorem State.writePhys_nextLaunch (s : State) (pa : Nat) (bs : List Byte) : (s.writePhys pa bs).nextLaunch = s.nextLaunch := rfl
@[simp] theorem State.writePhys_detId (s : State) (pa : Nat) (bs : List Byte) : (s.writePhys pa bs).detId = s.detId := rfl
@[simp] theorem State.writePhys_cmdSeq (s : State) (pa : Nat) (bs : List Byte) : (s.writePhys pa bs).cmdSeq = s.cmdSeq := rfl

/-! ## setDome -/

@[simp] theorem State.setDome_b (s : State) (t : Nat) (d : Dome) : (s.setDome t d).b = s.b := by unfold State.setDome; split <;> rfl
@[simp] theorem State.setDome_peers (s : State) (t : Nat) (d : Dome) : (s.setDome t d).peers = s.peers := by unfold State.setDome; split <;> rfl
@[simp] theorem State.setDome_agenda (s : State) (t : Nat) (d : Dome) : (s.setDome t d).agenda = s.agenda := by unfold State.setDome; split <;> rfl
@[simp] theorem State.setDome_tick (s : State) (t : Nat) (d : Dome) : (s.setDome t d).tick = s.tick := by unfold State.setDome; split <;> rfl
@[simp] theorem State.setDome_clk (s : State) (t : Nat) (d : Dome) : (s.setDome t d).clk = s.clk := by unfold State.setDome; split <;> rfl
@[simp] theorem State.setDome_ftime (s : State) (t : Nat) (d : Dome) : (s.setDome t d).ftime = s.ftime := by unfold State.setDome; split <;> rfl
@[simp] theorem State.setDome_mem (s : State) (t : Nat) (d : Dome) : (s.setDome t d).mem = s.mem := by unfold State.setDome; split <;> rfl
@[simp] theorem State.setDome_pois (s : State) (t : Nat) (d : Dome) : (s.setDome t d).pois = s.pois := by unfold State.setDome; split <;> rfl
@[simp] theorem State.setDome_dtag (s : State) (t : Nat) (d : Dome) : (s.setDome t d).dtag = s.dtag := by unfold State.setDome; split <;> rfl
@[simp] theorem State.setDome_blk (s : State) (t : Nat) (d : Dome) : (s.setDome t d).blk = s.blk := by unfold State.setDome; split <;> rfl
@[simp] theorem State.setDome_img (s : State) (t : Nat) (d : Dome) : (s.setDome t d).img = s.img := by unfold State.setDome; split <;> rfl
@[simp] theorem State.setDome_twk (s : State) (t : Nat) (d : Dome) : (s.setDome t d).twk = s.twk := by unfold State.setDome; split <;> rfl
@[simp] theorem State.setDome_cache (s : State) (t : Nat) (d : Dome) : (s.setDome t d).cache = s.cache := by unfold State.setDome; split <;> rfl
@[simp] theorem State.setDome_bufs (s : State) (t : Nat) (d : Dome) : (s.setDome t d).bufs = s.bufs := by unfold State.setDome; split <;> rfl
@[simp] theorem State.setDome_acnt (s : State) (t : Nat) (d : Dome) : (s.setDome t d).acnt = s.acnt := by unfold State.setDome; split <;> rfl
@[simp] theorem State.setDome_wq (s : State) (t : Nat) (d : Dome) : (s.setDome t d).wq = s.wq := by unfold State.setDome; split <;> rfl
@[simp] theorem State.setDome_remote (s : State) (t : Nat) (d : Dome) : (s.setDome t d).remote = s.remote := by unfold State.setDome; split <;> rfl
@[simp] theorem State.setDome_upset (s : State) (t : Nat) (d : Dome) : (s.setDome t d).upset = s.upset := by unfold State.setDome; split <;> rfl
@[simp] theorem State.setDome_logs (s : State) (t : Nat) (d : Dome) : (s.setDome t d).logs = s.logs := by unfold State.setDome; split <;> rfl
@[simp] theorem State.setDome_routers (s : State) (t : Nat) (d : Dome) : (s.setDome t d).routers = s.routers := by unfold State.setDome; split <;> rfl
@[simp] theorem State.setDome_toks (s : State) (t : Nat) (d : Dome) : (s.setDome t d).toks = s.toks := by unfold State.setDome; split <;> rfl
@[simp] theorem State.setDome_doms (s : State) (t : Nat) (d : Dome) : (s.setDome t d).doms = s.doms := by unfold State.setDome; split <;> rfl
@[simp] theorem State.setDome_engs (s : State) (t : Nat) (d : Dome) : (s.setDome t d).engs = s.engs := by unfold State.setDome; split <;> rfl
@[simp] theorem State.setDome_ctxTab (s : State) (t : Nat) (d : Dome) : (s.setDome t d).ctxTab = s.ctxTab := by unfold State.setDome; split <;> rfl
@[simp] theorem State.setDome_win (s : State) (t : Nat) (d : Dome) : (s.setDome t d).win = s.win := by unfold State.setDome; split <;> rfl
@[simp] theorem State.setDome_regions (s : State) (t : Nat) (d : Dome) : (s.setDome t d).regions = s.regions := by unfold State.setDome; split <;> rfl
@[simp] theorem State.setDome_groups (s : State) (t : Nat) (d : Dome) : (s.setDome t d).groups = s.groups := by unfold State.setDome; split <;> rfl
@[simp] theorem State.setDome_node (s : State) (t : Nat) (d : Dome) : (s.setDome t d).node = s.node := by unfold State.setDome; split <;> rfl
@[simp] theorem State.setDome_links (s : State) (t : Nat) (d : Dome) : (s.setDome t d).links = s.links := by unfold State.setDome; split <;> rfl
@[simp] theorem State.setDome_out (s : State) (t : Nat) (d : Dome) : (s.setDome t d).out = s.out := by unfold State.setDome; split <;> rfl
@[simp] theorem State.setDome_egress (s : State) (t : Nat) (d : Dome) : (s.setDome t d).egress = s.egress := by unfold State.setDome; split <;> rfl
@[simp] theorem State.setDome_hops (s : State) (t : Nat) (d : Dome) : (s.setDome t d).hops = s.hops := by unfold State.setDome; split <;> rfl
@[simp] theorem State.setDome_ports (s : State) (t : Nat) (d : Dome) : (s.setDome t d).ports = s.ports := by unfold State.setDome; split <;> rfl
@[simp] theorem State.setDome_paused (s : State) (t : Nat) (d : Dome) : (s.setDome t d).paused = s.paused := by unfold State.setDome; split <;> rfl
@[simp] theorem State.setDome_keys (s : State) (t : Nat) (d : Dome) : (s.setDome t d).keys = s.keys := by unfold State.setDome; split <;> rfl
@[simp] theorem State.setDome_sec (s : State) (t : Nat) (d : Dome) : (s.setDome t d).sec = s.sec := by unfold State.setDome; split <;> rfl
@[simp] theorem State.setDome_inServ (s : State) (t : Nat) (d : Dome) : (s.setDome t d).inServ = s.inServ := by unfold State.setDome; split <;> rfl
@[simp] theorem State.setDome_launches (s : State) (t : Nat) (d : Dome) : (s.setDome t d).launches = s.launches := by unfold State.setDome; split <;> rfl
@[simp] theorem State.setDome_ringQ (s : State) (t : Nat) (d : Dome) : (s.setDome t d).ringQ = s.ringQ := by unfold State.setDome; split <;> rfl
@[simp] theorem State.setDome_tasks (s : State) (t : Nat) (d : Dome) : (s.setDome t d).tasks = s.tasks := by unfold State.setDome; split <;> rfl
@[simp] theorem State.setDome_exits (s : State) (t : Nat) (d : Dome) : (s.setDome t d).exits = s.exits := by unfold State.setDome; split <;> rfl
@[simp] theorem State.setDome_images (s : State) (t : Nat) (d : Dome) : (s.setDome t d).images = s.images := by unfold State.setDome; split <;> rfl
@[simp] theorem State.setDome_musts (s : State) (t : Nat) (d : Dome) : (s.setDome t d).musts = s.musts := by unfold State.setDome; split <;> rfl
@[simp] theorem State.setDome_keep (s : State) (t : Nat) (d : Dome) : (s.setDome t d).keep = s.keep := by unfold State.setDome; split <;> rfl
@[simp] theorem State.setDome_power (s : State) (t : Nat) (d : Dome) : (s.setDome t d).power = s.power := by unfold State.setDome; split <;> rfl
@[simp] theorem State.setDome_gangNow (s : State) (t : Nat) (d : Dome) : (s.setDome t d).gangNow = s.gangNow := by unfold State.setDome; split <;> rfl
@[simp] theorem State.setDome_gangNext (s : State) (t : Nat) (d : Dome) : (s.setDome t d).gangNext = s.gangNext := by unfold State.setDome; split <;> rfl
@[simp] theorem State.setDome_notices (s : State) (t : Nat) (d : Dome) : (s.setDome t d).notices = s.notices := by unfold State.setDome; split <;> rfl
@[simp] theorem State.setDome_passed (s : State) (t : Nat) (d : Dome) : (s.setDome t d).passed = s.passed := by unfold State.setDome; split <;> rfl
@[simp] theorem State.setDome_visits (s : State) (t : Nat) (d : Dome) : (s.setDome t d).visits = s.visits := by unfold State.setDome; split <;> rfl
@[simp] theorem State.setDome_jobs (s : State) (t : Nat) (d : Dome) : (s.setDome t d).jobs = s.jobs := by unfold State.setDome; split <;> rfl
@[simp] theorem State.setDome_slots (s : State) (t : Nat) (d : Dome) : (s.setDome t d).slots = s.slots := by unfold State.setDome; split <;> rfl
@[simp] theorem State.setDome_gangStops (s : State) (t : Nat) (d : Dome) : (s.setDome t d).gangStops = s.gangStops := by unfold State.setDome; split <;> rfl
@[simp] theorem State.setDome_syncAt (s : State) (t : Nat) (d : Dome) : (s.setDome t d).syncAt = s.syncAt := by unfold State.setDome; split <;> rfl
@[simp] theorem State.setDome_nextTid (s : State) (t : Nat) (d : Dome) : (s.setDome t d).nextTid = s.nextTid := by unfold State.setDome; split <;> rfl
@[simp] theorem State.setDome_nextLaunch (s : State) (t : Nat) (d : Dome) : (s.setDome t d).nextLaunch = s.nextLaunch := by unfold State.setDome; split <;> rfl
@[simp] theorem State.setDome_detId (s : State) (t : Nat) (d : Dome) : (s.setDome t d).detId = s.detId := by unfold State.setDome; split <;> rfl
@[simp] theorem State.setDome_cmdSeq (s : State) (t : Nat) (d : Dome) : (s.setDome t d).cmdSeq = s.cmdSeq := by unfold State.setDome; split <;> rfl
@[simp] theorem State.setDome_dome0 (s : State) (t : Nat) (d : Dome) : (s.setDome t d).dome0 = if t = 0 then d else s.dome0 := by
  unfold State.setDome; split <;> rfl
@[simp] theorem State.setDome_dome1 (s : State) (t : Nat) (d : Dome) : (s.setDome t d).dome1 = if t = 0 then s.dome1 else d := by
  unfold State.setDome; split <;> rfl

/-! ## setBrick -/

@[simp] theorem State.setBrick_agenda (s : State) (n : Nat) (b : Brick) : (s.setBrick n b).agenda = s.agenda := by unfold State.setBrick; split <;> rfl
@[simp] theorem State.setBrick_tick (s : State) (n : Nat) (b : Brick) : (s.setBrick n b).tick = s.tick := by unfold State.setBrick; split <;> rfl
@[simp] theorem State.setBrick_clk (s : State) (n : Nat) (b : Brick) : (s.setBrick n b).clk = s.clk := by unfold State.setBrick; split <;> rfl
@[simp] theorem State.setBrick_ftime (s : State) (n : Nat) (b : Brick) : (s.setBrick n b).ftime = s.ftime := by unfold State.setBrick; split <;> rfl
@[simp] theorem State.setBrick_mem (s : State) (n : Nat) (b : Brick) : (s.setBrick n b).mem = s.mem := by unfold State.setBrick; split <;> rfl
@[simp] theorem State.setBrick_pois (s : State) (n : Nat) (b : Brick) : (s.setBrick n b).pois = s.pois := by unfold State.setBrick; split <;> rfl
@[simp] theorem State.setBrick_dtag (s : State) (n : Nat) (b : Brick) : (s.setBrick n b).dtag = s.dtag := by unfold State.setBrick; split <;> rfl
@[simp] theorem State.setBrick_blk (s : State) (n : Nat) (b : Brick) : (s.setBrick n b).blk = s.blk := by unfold State.setBrick; split <;> rfl
@[simp] theorem State.setBrick_img (s : State) (n : Nat) (b : Brick) : (s.setBrick n b).img = s.img := by unfold State.setBrick; split <;> rfl
@[simp] theorem State.setBrick_twk (s : State) (n : Nat) (b : Brick) : (s.setBrick n b).twk = s.twk := by unfold State.setBrick; split <;> rfl
@[simp] theorem State.setBrick_cache (s : State) (n : Nat) (b : Brick) : (s.setBrick n b).cache = s.cache := by unfold State.setBrick; split <;> rfl
@[simp] theorem State.setBrick_bufs (s : State) (n : Nat) (b : Brick) : (s.setBrick n b).bufs = s.bufs := by unfold State.setBrick; split <;> rfl
@[simp] theorem State.setBrick_acnt (s : State) (n : Nat) (b : Brick) : (s.setBrick n b).acnt = s.acnt := by unfold State.setBrick; split <;> rfl
@[simp] theorem State.setBrick_wq (s : State) (n : Nat) (b : Brick) : (s.setBrick n b).wq = s.wq := by unfold State.setBrick; split <;> rfl
@[simp] theorem State.setBrick_remote (s : State) (n : Nat) (b : Brick) : (s.setBrick n b).remote = s.remote := by unfold State.setBrick; split <;> rfl
@[simp] theorem State.setBrick_upset (s : State) (n : Nat) (b : Brick) : (s.setBrick n b).upset = s.upset := by unfold State.setBrick; split <;> rfl
@[simp] theorem State.setBrick_logs (s : State) (n : Nat) (b : Brick) : (s.setBrick n b).logs = s.logs := by unfold State.setBrick; split <;> rfl
@[simp] theorem State.setBrick_routers (s : State) (n : Nat) (b : Brick) : (s.setBrick n b).routers = s.routers := by unfold State.setBrick; split <;> rfl
@[simp] theorem State.setBrick_dome0 (s : State) (n : Nat) (b : Brick) : (s.setBrick n b).dome0 = s.dome0 := by unfold State.setBrick; split <;> rfl
@[simp] theorem State.setBrick_dome1 (s : State) (n : Nat) (b : Brick) : (s.setBrick n b).dome1 = s.dome1 := by unfold State.setBrick; split <;> rfl
@[simp] theorem State.setBrick_toks (s : State) (n : Nat) (b : Brick) : (s.setBrick n b).toks = s.toks := by unfold State.setBrick; split <;> rfl
@[simp] theorem State.setBrick_doms (s : State) (n : Nat) (b : Brick) : (s.setBrick n b).doms = s.doms := by unfold State.setBrick; split <;> rfl
@[simp] theorem State.setBrick_engs (s : State) (n : Nat) (b : Brick) : (s.setBrick n b).engs = s.engs := by unfold State.setBrick; split <;> rfl
@[simp] theorem State.setBrick_ctxTab (s : State) (n : Nat) (b : Brick) : (s.setBrick n b).ctxTab = s.ctxTab := by unfold State.setBrick; split <;> rfl
@[simp] theorem State.setBrick_win (s : State) (n : Nat) (b : Brick) : (s.setBrick n b).win = s.win := by unfold State.setBrick; split <;> rfl
@[simp] theorem State.setBrick_regions (s : State) (n : Nat) (b : Brick) : (s.setBrick n b).regions = s.regions := by unfold State.setBrick; split <;> rfl
@[simp] theorem State.setBrick_groups (s : State) (n : Nat) (b : Brick) : (s.setBrick n b).groups = s.groups := by unfold State.setBrick; split <;> rfl
@[simp] theorem State.setBrick_node (s : State) (n : Nat) (b : Brick) : (s.setBrick n b).node = s.node := by unfold State.setBrick; split <;> rfl
@[simp] theorem State.setBrick_links (s : State) (n : Nat) (b : Brick) : (s.setBrick n b).links = s.links := by unfold State.setBrick; split <;> rfl
@[simp] theorem State.setBrick_out (s : State) (n : Nat) (b : Brick) : (s.setBrick n b).out = s.out := by unfold State.setBrick; split <;> rfl
@[simp] theorem State.setBrick_egress (s : State) (n : Nat) (b : Brick) : (s.setBrick n b).egress = s.egress := by unfold State.setBrick; split <;> rfl
@[simp] theorem State.setBrick_hops (s : State) (n : Nat) (b : Brick) : (s.setBrick n b).hops = s.hops := by unfold State.setBrick; split <;> rfl
@[simp] theorem State.setBrick_ports (s : State) (n : Nat) (b : Brick) : (s.setBrick n b).ports = s.ports := by unfold State.setBrick; split <;> rfl
@[simp] theorem State.setBrick_paused (s : State) (n : Nat) (b : Brick) : (s.setBrick n b).paused = s.paused := by unfold State.setBrick; split <;> rfl
@[simp] theorem State.setBrick_keys (s : State) (n : Nat) (b : Brick) : (s.setBrick n b).keys = s.keys := by unfold State.setBrick; split <;> rfl
@[simp] theorem State.setBrick_sec (s : State) (n : Nat) (b : Brick) : (s.setBrick n b).sec = s.sec := by unfold State.setBrick; split <;> rfl
@[simp] theorem State.setBrick_inServ (s : State) (n : Nat) (b : Brick) : (s.setBrick n b).inServ = s.inServ := by unfold State.setBrick; split <;> rfl
@[simp] theorem State.setBrick_launches (s : State) (n : Nat) (b : Brick) : (s.setBrick n b).launches = s.launches := by unfold State.setBrick; split <;> rfl
@[simp] theorem State.setBrick_ringQ (s : State) (n : Nat) (b : Brick) : (s.setBrick n b).ringQ = s.ringQ := by unfold State.setBrick; split <;> rfl
@[simp] theorem State.setBrick_tasks (s : State) (n : Nat) (b : Brick) : (s.setBrick n b).tasks = s.tasks := by unfold State.setBrick; split <;> rfl
@[simp] theorem State.setBrick_exits (s : State) (n : Nat) (b : Brick) : (s.setBrick n b).exits = s.exits := by unfold State.setBrick; split <;> rfl
@[simp] theorem State.setBrick_images (s : State) (n : Nat) (b : Brick) : (s.setBrick n b).images = s.images := by unfold State.setBrick; split <;> rfl
@[simp] theorem State.setBrick_musts (s : State) (n : Nat) (b : Brick) : (s.setBrick n b).musts = s.musts := by unfold State.setBrick; split <;> rfl
@[simp] theorem State.setBrick_keep (s : State) (n : Nat) (b : Brick) : (s.setBrick n b).keep = s.keep := by unfold State.setBrick; split <;> rfl
@[simp] theorem State.setBrick_power (s : State) (n : Nat) (b : Brick) : (s.setBrick n b).power = s.power := by unfold State.setBrick; split <;> rfl
@[simp] theorem State.setBrick_gangNow (s : State) (n : Nat) (b : Brick) : (s.setBrick n b).gangNow = s.gangNow := by unfold State.setBrick; split <;> rfl
@[simp] theorem State.setBrick_gangNext (s : State) (n : Nat) (b : Brick) : (s.setBrick n b).gangNext = s.gangNext := by unfold State.setBrick; split <;> rfl
@[simp] theorem State.setBrick_notices (s : State) (n : Nat) (b : Brick) : (s.setBrick n b).notices = s.notices := by unfold State.setBrick; split <;> rfl
@[simp] theorem State.setBrick_passed (s : State) (n : Nat) (b : Brick) : (s.setBrick n b).passed = s.passed := by unfold State.setBrick; split <;> rfl
@[simp] theorem State.setBrick_visits (s : State) (n : Nat) (b : Brick) : (s.setBrick n b).visits = s.visits := by unfold State.setBrick; split <;> rfl
@[simp] theorem State.setBrick_jobs (s : State) (n : Nat) (b : Brick) : (s.setBrick n b).jobs = s.jobs := by unfold State.setBrick; split <;> rfl
@[simp] theorem State.setBrick_slots (s : State) (n : Nat) (b : Brick) : (s.setBrick n b).slots = s.slots := by unfold State.setBrick; split <;> rfl
@[simp] theorem State.setBrick_gangStops (s : State) (n : Nat) (b : Brick) : (s.setBrick n b).gangStops = s.gangStops := by unfold State.setBrick; split <;> rfl
@[simp] theorem State.setBrick_syncAt (s : State) (n : Nat) (b : Brick) : (s.setBrick n b).syncAt = s.syncAt := by unfold State.setBrick; split <;> rfl
@[simp] theorem State.setBrick_nextTid (s : State) (n : Nat) (b : Brick) : (s.setBrick n b).nextTid = s.nextTid := by unfold State.setBrick; split <;> rfl
@[simp] theorem State.setBrick_nextLaunch (s : State) (n : Nat) (b : Brick) : (s.setBrick n b).nextLaunch = s.nextLaunch := by unfold State.setBrick; split <;> rfl
@[simp] theorem State.setBrick_detId (s : State) (n : Nat) (b : Brick) : (s.setBrick n b).detId = s.detId := by unfold State.setBrick; split <;> rfl
@[simp] theorem State.setBrick_cmdSeq (s : State) (n : Nat) (b : Brick) : (s.setBrick n b).cmdSeq = s.cmdSeq := by unfold State.setBrick; split <;> rfl

/-! ## The brick in focus -/

@[simp] theorem State.onR_peers (s : State) (f : Regs → Regs) : (s.onR f).peers = s.peers := rfl
@[simp] theorem State.onR_agenda (s : State) (f : Regs → Regs) : (s.onR f).agenda = s.agenda := rfl
@[simp] theorem State.onR_tick (s : State) (f : Regs → Regs) : (s.onR f).tick = s.tick := rfl
@[simp] theorem State.onR_clk (s : State) (f : Regs → Regs) : (s.onR f).clk = s.clk := rfl
@[simp] theorem State.onR_ftime (s : State) (f : Regs → Regs) : (s.onR f).ftime = s.ftime := rfl
@[simp] theorem State.onR_mem (s : State) (f : Regs → Regs) : (s.onR f).mem = s.mem := rfl
@[simp] theorem State.onR_pois (s : State) (f : Regs → Regs) : (s.onR f).pois = s.pois := rfl
@[simp] theorem State.onR_dtag (s : State) (f : Regs → Regs) : (s.onR f).dtag = s.dtag := rfl
@[simp] theorem State.onR_blk (s : State) (f : Regs → Regs) : (s.onR f).blk = s.blk := rfl
@[simp] theorem State.onR_img (s : State) (f : Regs → Regs) : (s.onR f).img = s.img := rfl
@[simp] theorem State.onR_twk (s : State) (f : Regs → Regs) : (s.onR f).twk = s.twk := rfl
@[simp] theorem State.onR_cache (s : State) (f : Regs → Regs) : (s.onR f).cache = s.cache := rfl
@[simp] theorem State.onR_bufs (s : State) (f : Regs → Regs) : (s.onR f).bufs = s.bufs := rfl
@[simp] theorem State.onR_acnt (s : State) (f : Regs → Regs) : (s.onR f).acnt = s.acnt := rfl
@[simp] theorem State.onR_wq (s : State) (f : Regs → Regs) : (s.onR f).wq = s.wq := rfl
@[simp] theorem State.onR_remote (s : State) (f : Regs → Regs) : (s.onR f).remote = s.remote := rfl
@[simp] theorem State.onR_upset (s : State) (f : Regs → Regs) : (s.onR f).upset = s.upset := rfl
@[simp] theorem State.onR_logs (s : State) (f : Regs → Regs) : (s.onR f).logs = s.logs := rfl
@[simp] theorem State.onR_routers (s : State) (f : Regs → Regs) : (s.onR f).routers = s.routers := rfl
@[simp] theorem State.onR_dome0 (s : State) (f : Regs → Regs) : (s.onR f).dome0 = s.dome0 := rfl
@[simp] theorem State.onR_dome1 (s : State) (f : Regs → Regs) : (s.onR f).dome1 = s.dome1 := rfl
@[simp] theorem State.onR_toks (s : State) (f : Regs → Regs) : (s.onR f).toks = s.toks := rfl
@[simp] theorem State.onR_doms (s : State) (f : Regs → Regs) : (s.onR f).doms = s.doms := rfl
@[simp] theorem State.onR_engs (s : State) (f : Regs → Regs) : (s.onR f).engs = s.engs := rfl
@[simp] theorem State.onR_ctxTab (s : State) (f : Regs → Regs) : (s.onR f).ctxTab = s.ctxTab := rfl
@[simp] theorem State.onR_win (s : State) (f : Regs → Regs) : (s.onR f).win = s.win := rfl
@[simp] theorem State.onR_regions (s : State) (f : Regs → Regs) : (s.onR f).regions = s.regions := rfl
@[simp] theorem State.onR_groups (s : State) (f : Regs → Regs) : (s.onR f).groups = s.groups := rfl
@[simp] theorem State.onR_node (s : State) (f : Regs → Regs) : (s.onR f).node = s.node := rfl
@[simp] theorem State.onR_links (s : State) (f : Regs → Regs) : (s.onR f).links = s.links := rfl
@[simp] theorem State.onR_out (s : State) (f : Regs → Regs) : (s.onR f).out = s.out := rfl
@[simp] theorem State.onR_egress (s : State) (f : Regs → Regs) : (s.onR f).egress = s.egress := rfl
@[simp] theorem State.onR_hops (s : State) (f : Regs → Regs) : (s.onR f).hops = s.hops := rfl
@[simp] theorem State.onR_ports (s : State) (f : Regs → Regs) : (s.onR f).ports = s.ports := rfl
@[simp] theorem State.onR_paused (s : State) (f : Regs → Regs) : (s.onR f).paused = s.paused := rfl
@[simp] theorem State.onR_keys (s : State) (f : Regs → Regs) : (s.onR f).keys = s.keys := rfl
@[simp] theorem State.onR_sec (s : State) (f : Regs → Regs) : (s.onR f).sec = s.sec := rfl
@[simp] theorem State.onR_inServ (s : State) (f : Regs → Regs) : (s.onR f).inServ = s.inServ := rfl
@[simp] theorem State.onR_launches (s : State) (f : Regs → Regs) : (s.onR f).launches = s.launches := rfl
@[simp] theorem State.onR_ringQ (s : State) (f : Regs → Regs) : (s.onR f).ringQ = s.ringQ := rfl
@[simp] theorem State.onR_tasks (s : State) (f : Regs → Regs) : (s.onR f).tasks = s.tasks := rfl
@[simp] theorem State.onR_exits (s : State) (f : Regs → Regs) : (s.onR f).exits = s.exits := rfl
@[simp] theorem State.onR_images (s : State) (f : Regs → Regs) : (s.onR f).images = s.images := rfl
@[simp] theorem State.onR_musts (s : State) (f : Regs → Regs) : (s.onR f).musts = s.musts := rfl
@[simp] theorem State.onR_keep (s : State) (f : Regs → Regs) : (s.onR f).keep = s.keep := rfl
@[simp] theorem State.onR_power (s : State) (f : Regs → Regs) : (s.onR f).power = s.power := rfl
@[simp] theorem State.onR_gangNow (s : State) (f : Regs → Regs) : (s.onR f).gangNow = s.gangNow := rfl
@[simp] theorem State.onR_gangNext (s : State) (f : Regs → Regs) : (s.onR f).gangNext = s.gangNext := rfl
@[simp] theorem State.onR_notices (s : State) (f : Regs → Regs) : (s.onR f).notices = s.notices := rfl
@[simp] theorem State.onR_passed (s : State) (f : Regs → Regs) : (s.onR f).passed = s.passed := rfl
@[simp] theorem State.onR_visits (s : State) (f : Regs → Regs) : (s.onR f).visits = s.visits := rfl
@[simp] theorem State.onR_jobs (s : State) (f : Regs → Regs) : (s.onR f).jobs = s.jobs := rfl
@[simp] theorem State.onR_slots (s : State) (f : Regs → Regs) : (s.onR f).slots = s.slots := rfl
@[simp] theorem State.onR_gangStops (s : State) (f : Regs → Regs) : (s.onR f).gangStops = s.gangStops := rfl
@[simp] theorem State.onR_syncAt (s : State) (f : Regs → Regs) : (s.onR f).syncAt = s.syncAt := rfl
@[simp] theorem State.onR_nextTid (s : State) (f : Regs → Regs) : (s.onR f).nextTid = s.nextTid := rfl
@[simp] theorem State.onR_nextLaunch (s : State) (f : Regs → Regs) : (s.onR f).nextLaunch = s.nextLaunch := rfl
@[simp] theorem State.onR_detId (s : State) (f : Regs → Regs) : (s.onR f).detId = s.detId := rfl
@[simp] theorem State.onR_cmdSeq (s : State) (f : Regs → Regs) : (s.onR f).cmdSeq = s.cmdSeq := rfl
@[simp] theorem State.onR_b_bid (s : State) (f : Regs → Regs) : (s.onR f).b.bid = s.b.bid := rfl
@[simp] theorem State.onR_b_running (s : State) (f : Regs → Regs) : (s.onR f).b.running = s.b.running := rfl
@[simp] theorem State.onR_b_t (s : State) (f : Regs → Regs) : (s.onR f).b.t = s.b.t := rfl
@[simp] theorem State.onR_b_pc (s : State) (f : Regs → Regs) : (s.onR f).b.pc = s.b.pc := rfl
@[simp] theorem State.onR_b_cbi (s : State) (f : Regs → Regs) : (s.onR f).b.cbi = s.b.cbi := rfl
@[simp] theorem State.onR_b_codeBase (s : State) (f : Regs → Regs) : (s.onR f).b.codeBase = s.b.codeBase := rfl
@[simp] theorem State.onR_b_r (s : State) (f : Regs → Regs) : (s.onR f).b.r = f s.b.r := rfl
@[simp] theorem State.onR_b_y (s : State) (f : Regs → Regs) : (s.onR f).b.y = s.b.y := rfl
@[simp] theorem State.onR_b_loc (s : State) (f : Regs → Regs) : (s.onR f).b.loc = s.b.loc := rfl
@[simp] theorem State.onR_b_cnt (s : State) (f : Regs → Regs) : (s.onR f).b.cnt = s.b.cnt := rfl
@[simp] theorem State.onR_b_cyc (s : State) (f : Regs → Regs) : (s.onR f).b.cyc = s.b.cyc := rfl
@[simp] theorem State.onR_b_phase (s : State) (f : Regs → Regs) : (s.onR f).b.phase = s.b.phase := rfl
@[simp] theorem State.onR_b_reports (s : State) (f : Regs → Regs) : (s.onR f).b.reports = s.b.reports := rfl
@[simp] theorem State.onR_b_barWait (s : State) (f : Regs → Regs) : (s.onR f).b.barWait = s.b.barWait := rfl
@[simp] theorem State.onR_b_timer (s : State) (f : Regs → Regs) : (s.onR f).b.timer = s.b.timer := rfl
@[simp] theorem State.onR_b_spTimer (s : State) (f : Regs → Regs) : (s.onR f).b.spTimer = s.b.spTimer := rfl
@[simp] theorem State.onR_b_acqTimer (s : State) (f : Regs → Regs) : (s.onR f).b.acqTimer = s.b.acqTimer := rfl
@[simp] theorem State.onR_b_stall (s : State) (f : Regs → Regs) : (s.onR f).b.stall = s.b.stall := rfl
@[simp] theorem State.onR_b_own (s : State) (f : Regs → Regs) : (s.onR f).b.own = s.b.own := rfl
@[simp] theorem State.onR_b_contAt (s : State) (f : Regs → Regs) : (s.onR f).b.contAt = s.b.contAt := rfl
@[simp] theorem State.onR_b_armTimedOut (s : State) (f : Regs → Regs) : (s.onR f).b.armTimedOut = s.b.armTimedOut := rfl
@[simp] theorem State.onR_b_dirty (s : State) (f : Regs → Regs) : (s.onR f).b.dirty = s.b.dirty := rfl
@[simp] theorem State.onR_b_lpois (s : State) (f : Regs → Regs) : (s.onR f).b.lpois = s.b.lpois := rfl
@[simp] theorem State.onR_b_ecc (s : State) (f : Regs → Regs) : (s.onR f).b.ecc = s.b.ecc := rfl
@[simp] theorem State.onR_b_snap (s : State) (f : Regs → Regs) : (s.onR f).b.snap = s.b.snap := rfl
@[simp] theorem State.onR_b_ic (s : State) (f : Regs → Regs) : (s.onR f).b.ic = s.b.ic := rfl
@[simp] theorem State.onR_b_itlb (s : State) (f : Regs → Regs) : (s.onR f).b.itlb = s.b.itlb := rfl
@[simp] theorem State.onR_b_dtlb (s : State) (f : Regs → Regs) : (s.onR f).b.dtlb = s.b.dtlb := rfl
@[simp] theorem State.onR_b_stlb (s : State) (f : Regs → Regs) : (s.onR f).b.stlb = s.b.stlb := rfl
@[simp] theorem State.onR_b_tlb (s : State) (f : Regs → Regs) : (s.onR f).b.tlb = s.b.tlb := rfl
@[simp] theorem State.onR_b_hold (s : State) (f : Regs → Regs) : (s.onR f).b.hold = s.b.hold := rfl
@[simp] theorem State.onR_b_dev (s : State) (f : Regs → Regs) : (s.onR f).b.dev = s.b.dev := rfl
@[simp] theorem State.onR_b_landing (s : State) (f : Regs → Regs) : (s.onR f).b.landing = s.b.landing := rfl
@[simp] theorem State.onR_b_nextId (s : State) (f : Regs → Regs) : (s.onR f).b.nextId = s.b.nextId := rfl
@[simp] theorem State.onR_b_push (s : State) (f : Regs → Regs) : (s.onR f).b.push = s.b.push := rfl
@[simp] theorem State.onR_b_score (s : State) (f : Regs → Regs) : (s.onR f).b.score = s.b.score := rfl
@[simp] theorem State.onR_b_mxq (s : State) (f : Regs → Regs) : (s.onR f).b.mxq = s.b.mxq := rfl
@[simp] theorem State.onR_b_lastt (s : State) (f : Regs → Regs) : (s.onR f).b.lastt = s.b.lastt := rfl
@[simp] theorem State.onR_b_lasts (s : State) (f : Regs → Regs) : (s.onR f).b.lasts = s.b.lasts := rfl
@[simp] theorem State.onR_b_spq (s : State) (f : Regs → Regs) : (s.onR f).b.spq = s.b.spq := rfl
@[simp] theorem State.onR_b_spFreed (s : State) (f : Regs → Regs) : (s.onR f).b.spFreed = s.b.spFreed := rfl
@[simp] theorem State.onR_b_cls (s : State) (f : Regs → Regs) : (s.onR f).b.cls = s.b.cls := rfl
@[simp] theorem State.onR_b_hiCls (s : State) (f : Regs → Regs) : (s.onR f).b.hiCls = s.b.hiCls := rfl
@[simp] theorem State.onR_b_grant (s : State) (f : Regs → Regs) : (s.onR f).b.grant = s.b.grant := rfl
@[simp] theorem State.onR_b_stepN (s : State) (f : Regs → Regs) : (s.onR f).b.stepN = s.b.stepN := rfl
@[simp] theorem State.onR_b_stepD (s : State) (f : Regs → Regs) : (s.onR f).b.stepD = s.b.stepD := rfl
@[simp] theorem State.onR_b_halted (s : State) (f : Regs → Regs) : (s.onR f).b.halted = s.b.halted := rfl
@[simp] theorem State.onR_b_preq (s : State) (f : Regs → Regs) : (s.onR f).b.preq = s.b.preq := rfl
@[simp] theorem State.onR_b_saving (s : State) (f : Regs → Regs) : (s.onR f).b.saving = s.b.saving := rfl
@[simp] theorem State.onR_b_skip (s : State) (f : Regs → Regs) : (s.onR f).b.skip = s.b.skip := rfl
@[simp] theorem State.onR_b_localQ (s : State) (f : Regs → Regs) : (s.onR f).b.localQ = s.b.localQ := rfl
@[simp] theorem State.onR_b_assigned (s : State) (f : Regs → Regs) : (s.onR f).b.assigned = s.b.assigned := rfl
@[simp] theorem State.onR_b_reserved (s : State) (f : Regs → Regs) : (s.onR f).b.reserved = s.b.reserved := rfl
@[simp] theorem State.onR_b_lastCtx (s : State) (f : Regs → Regs) : (s.onR f).b.lastCtx = s.b.lastCtx := rfl
@[simp] theorem State.onR_b_clk (s : State) (f : Regs → Regs) : (s.onR f).b.clk = s.b.clk := rfl
@[simp] theorem State.onR_b_iss (s : State) (f : Regs → Regs) : (s.onR f).b.iss = s.b.iss := rfl

@[simp] theorem State.onY_peers (s : State) (f : Sys → Sys) : (s.onY f).peers = s.peers := rfl
@[simp] theorem State.onY_agenda (s : State) (f : Sys → Sys) : (s.onY f).agenda = s.agenda := rfl
@[simp] theorem State.onY_tick (s : State) (f : Sys → Sys) : (s.onY f).tick = s.tick := rfl
@[simp] theorem State.onY_clk (s : State) (f : Sys → Sys) : (s.onY f).clk = s.clk := rfl
@[simp] theorem State.onY_ftime (s : State) (f : Sys → Sys) : (s.onY f).ftime = s.ftime := rfl
@[simp] theorem State.onY_mem (s : State) (f : Sys → Sys) : (s.onY f).mem = s.mem := rfl
@[simp] theorem State.onY_pois (s : State) (f : Sys → Sys) : (s.onY f).pois = s.pois := rfl
@[simp] theorem State.onY_dtag (s : State) (f : Sys → Sys) : (s.onY f).dtag = s.dtag := rfl
@[simp] theorem State.onY_blk (s : State) (f : Sys → Sys) : (s.onY f).blk = s.blk := rfl
@[simp] theorem State.onY_img (s : State) (f : Sys → Sys) : (s.onY f).img = s.img := rfl
@[simp] theorem State.onY_twk (s : State) (f : Sys → Sys) : (s.onY f).twk = s.twk := rfl
@[simp] theorem State.onY_cache (s : State) (f : Sys → Sys) : (s.onY f).cache = s.cache := rfl
@[simp] theorem State.onY_bufs (s : State) (f : Sys → Sys) : (s.onY f).bufs = s.bufs := rfl
@[simp] theorem State.onY_acnt (s : State) (f : Sys → Sys) : (s.onY f).acnt = s.acnt := rfl
@[simp] theorem State.onY_wq (s : State) (f : Sys → Sys) : (s.onY f).wq = s.wq := rfl
@[simp] theorem State.onY_remote (s : State) (f : Sys → Sys) : (s.onY f).remote = s.remote := rfl
@[simp] theorem State.onY_upset (s : State) (f : Sys → Sys) : (s.onY f).upset = s.upset := rfl
@[simp] theorem State.onY_logs (s : State) (f : Sys → Sys) : (s.onY f).logs = s.logs := rfl
@[simp] theorem State.onY_routers (s : State) (f : Sys → Sys) : (s.onY f).routers = s.routers := rfl
@[simp] theorem State.onY_dome0 (s : State) (f : Sys → Sys) : (s.onY f).dome0 = s.dome0 := rfl
@[simp] theorem State.onY_dome1 (s : State) (f : Sys → Sys) : (s.onY f).dome1 = s.dome1 := rfl
@[simp] theorem State.onY_toks (s : State) (f : Sys → Sys) : (s.onY f).toks = s.toks := rfl
@[simp] theorem State.onY_doms (s : State) (f : Sys → Sys) : (s.onY f).doms = s.doms := rfl
@[simp] theorem State.onY_engs (s : State) (f : Sys → Sys) : (s.onY f).engs = s.engs := rfl
@[simp] theorem State.onY_ctxTab (s : State) (f : Sys → Sys) : (s.onY f).ctxTab = s.ctxTab := rfl
@[simp] theorem State.onY_win (s : State) (f : Sys → Sys) : (s.onY f).win = s.win := rfl
@[simp] theorem State.onY_regions (s : State) (f : Sys → Sys) : (s.onY f).regions = s.regions := rfl
@[simp] theorem State.onY_groups (s : State) (f : Sys → Sys) : (s.onY f).groups = s.groups := rfl
@[simp] theorem State.onY_node (s : State) (f : Sys → Sys) : (s.onY f).node = s.node := rfl
@[simp] theorem State.onY_links (s : State) (f : Sys → Sys) : (s.onY f).links = s.links := rfl
@[simp] theorem State.onY_out (s : State) (f : Sys → Sys) : (s.onY f).out = s.out := rfl
@[simp] theorem State.onY_egress (s : State) (f : Sys → Sys) : (s.onY f).egress = s.egress := rfl
@[simp] theorem State.onY_hops (s : State) (f : Sys → Sys) : (s.onY f).hops = s.hops := rfl
@[simp] theorem State.onY_ports (s : State) (f : Sys → Sys) : (s.onY f).ports = s.ports := rfl
@[simp] theorem State.onY_paused (s : State) (f : Sys → Sys) : (s.onY f).paused = s.paused := rfl
@[simp] theorem State.onY_keys (s : State) (f : Sys → Sys) : (s.onY f).keys = s.keys := rfl
@[simp] theorem State.onY_sec (s : State) (f : Sys → Sys) : (s.onY f).sec = s.sec := rfl
@[simp] theorem State.onY_inServ (s : State) (f : Sys → Sys) : (s.onY f).inServ = s.inServ := rfl
@[simp] theorem State.onY_launches (s : State) (f : Sys → Sys) : (s.onY f).launches = s.launches := rfl
@[simp] theorem State.onY_ringQ (s : State) (f : Sys → Sys) : (s.onY f).ringQ = s.ringQ := rfl
@[simp] theorem State.onY_tasks (s : State) (f : Sys → Sys) : (s.onY f).tasks = s.tasks := rfl
@[simp] theorem State.onY_exits (s : State) (f : Sys → Sys) : (s.onY f).exits = s.exits := rfl
@[simp] theorem State.onY_images (s : State) (f : Sys → Sys) : (s.onY f).images = s.images := rfl
@[simp] theorem State.onY_musts (s : State) (f : Sys → Sys) : (s.onY f).musts = s.musts := rfl
@[simp] theorem State.onY_keep (s : State) (f : Sys → Sys) : (s.onY f).keep = s.keep := rfl
@[simp] theorem State.onY_power (s : State) (f : Sys → Sys) : (s.onY f).power = s.power := rfl
@[simp] theorem State.onY_gangNow (s : State) (f : Sys → Sys) : (s.onY f).gangNow = s.gangNow := rfl
@[simp] theorem State.onY_gangNext (s : State) (f : Sys → Sys) : (s.onY f).gangNext = s.gangNext := rfl
@[simp] theorem State.onY_notices (s : State) (f : Sys → Sys) : (s.onY f).notices = s.notices := rfl
@[simp] theorem State.onY_passed (s : State) (f : Sys → Sys) : (s.onY f).passed = s.passed := rfl
@[simp] theorem State.onY_visits (s : State) (f : Sys → Sys) : (s.onY f).visits = s.visits := rfl
@[simp] theorem State.onY_jobs (s : State) (f : Sys → Sys) : (s.onY f).jobs = s.jobs := rfl
@[simp] theorem State.onY_slots (s : State) (f : Sys → Sys) : (s.onY f).slots = s.slots := rfl
@[simp] theorem State.onY_gangStops (s : State) (f : Sys → Sys) : (s.onY f).gangStops = s.gangStops := rfl
@[simp] theorem State.onY_syncAt (s : State) (f : Sys → Sys) : (s.onY f).syncAt = s.syncAt := rfl
@[simp] theorem State.onY_nextTid (s : State) (f : Sys → Sys) : (s.onY f).nextTid = s.nextTid := rfl
@[simp] theorem State.onY_nextLaunch (s : State) (f : Sys → Sys) : (s.onY f).nextLaunch = s.nextLaunch := rfl
@[simp] theorem State.onY_detId (s : State) (f : Sys → Sys) : (s.onY f).detId = s.detId := rfl
@[simp] theorem State.onY_cmdSeq (s : State) (f : Sys → Sys) : (s.onY f).cmdSeq = s.cmdSeq := rfl
@[simp] theorem State.onY_b_bid (s : State) (f : Sys → Sys) : (s.onY f).b.bid = s.b.bid := rfl
@[simp] theorem State.onY_b_running (s : State) (f : Sys → Sys) : (s.onY f).b.running = s.b.running := rfl
@[simp] theorem State.onY_b_t (s : State) (f : Sys → Sys) : (s.onY f).b.t = s.b.t := rfl
@[simp] theorem State.onY_b_pc (s : State) (f : Sys → Sys) : (s.onY f).b.pc = s.b.pc := rfl
@[simp] theorem State.onY_b_cbi (s : State) (f : Sys → Sys) : (s.onY f).b.cbi = s.b.cbi := rfl
@[simp] theorem State.onY_b_codeBase (s : State) (f : Sys → Sys) : (s.onY f).b.codeBase = s.b.codeBase := rfl
@[simp] theorem State.onY_b_r (s : State) (f : Sys → Sys) : (s.onY f).b.r = s.b.r := rfl
@[simp] theorem State.onY_b_y (s : State) (f : Sys → Sys) : (s.onY f).b.y = f s.b.y := rfl
@[simp] theorem State.onY_b_loc (s : State) (f : Sys → Sys) : (s.onY f).b.loc = s.b.loc := rfl
@[simp] theorem State.onY_b_cnt (s : State) (f : Sys → Sys) : (s.onY f).b.cnt = s.b.cnt := rfl
@[simp] theorem State.onY_b_cyc (s : State) (f : Sys → Sys) : (s.onY f).b.cyc = s.b.cyc := rfl
@[simp] theorem State.onY_b_phase (s : State) (f : Sys → Sys) : (s.onY f).b.phase = s.b.phase := rfl
@[simp] theorem State.onY_b_reports (s : State) (f : Sys → Sys) : (s.onY f).b.reports = s.b.reports := rfl
@[simp] theorem State.onY_b_barWait (s : State) (f : Sys → Sys) : (s.onY f).b.barWait = s.b.barWait := rfl
@[simp] theorem State.onY_b_timer (s : State) (f : Sys → Sys) : (s.onY f).b.timer = s.b.timer := rfl
@[simp] theorem State.onY_b_spTimer (s : State) (f : Sys → Sys) : (s.onY f).b.spTimer = s.b.spTimer := rfl
@[simp] theorem State.onY_b_acqTimer (s : State) (f : Sys → Sys) : (s.onY f).b.acqTimer = s.b.acqTimer := rfl
@[simp] theorem State.onY_b_stall (s : State) (f : Sys → Sys) : (s.onY f).b.stall = s.b.stall := rfl
@[simp] theorem State.onY_b_own (s : State) (f : Sys → Sys) : (s.onY f).b.own = s.b.own := rfl
@[simp] theorem State.onY_b_contAt (s : State) (f : Sys → Sys) : (s.onY f).b.contAt = s.b.contAt := rfl
@[simp] theorem State.onY_b_armTimedOut (s : State) (f : Sys → Sys) : (s.onY f).b.armTimedOut = s.b.armTimedOut := rfl
@[simp] theorem State.onY_b_dirty (s : State) (f : Sys → Sys) : (s.onY f).b.dirty = s.b.dirty := rfl
@[simp] theorem State.onY_b_lpois (s : State) (f : Sys → Sys) : (s.onY f).b.lpois = s.b.lpois := rfl
@[simp] theorem State.onY_b_ecc (s : State) (f : Sys → Sys) : (s.onY f).b.ecc = s.b.ecc := rfl
@[simp] theorem State.onY_b_snap (s : State) (f : Sys → Sys) : (s.onY f).b.snap = s.b.snap := rfl
@[simp] theorem State.onY_b_ic (s : State) (f : Sys → Sys) : (s.onY f).b.ic = s.b.ic := rfl
@[simp] theorem State.onY_b_itlb (s : State) (f : Sys → Sys) : (s.onY f).b.itlb = s.b.itlb := rfl
@[simp] theorem State.onY_b_dtlb (s : State) (f : Sys → Sys) : (s.onY f).b.dtlb = s.b.dtlb := rfl
@[simp] theorem State.onY_b_stlb (s : State) (f : Sys → Sys) : (s.onY f).b.stlb = s.b.stlb := rfl
@[simp] theorem State.onY_b_tlb (s : State) (f : Sys → Sys) : (s.onY f).b.tlb = s.b.tlb := rfl
@[simp] theorem State.onY_b_hold (s : State) (f : Sys → Sys) : (s.onY f).b.hold = s.b.hold := rfl
@[simp] theorem State.onY_b_dev (s : State) (f : Sys → Sys) : (s.onY f).b.dev = s.b.dev := rfl
@[simp] theorem State.onY_b_landing (s : State) (f : Sys → Sys) : (s.onY f).b.landing = s.b.landing := rfl
@[simp] theorem State.onY_b_nextId (s : State) (f : Sys → Sys) : (s.onY f).b.nextId = s.b.nextId := rfl
@[simp] theorem State.onY_b_push (s : State) (f : Sys → Sys) : (s.onY f).b.push = s.b.push := rfl
@[simp] theorem State.onY_b_score (s : State) (f : Sys → Sys) : (s.onY f).b.score = s.b.score := rfl
@[simp] theorem State.onY_b_mxq (s : State) (f : Sys → Sys) : (s.onY f).b.mxq = s.b.mxq := rfl
@[simp] theorem State.onY_b_lastt (s : State) (f : Sys → Sys) : (s.onY f).b.lastt = s.b.lastt := rfl
@[simp] theorem State.onY_b_lasts (s : State) (f : Sys → Sys) : (s.onY f).b.lasts = s.b.lasts := rfl
@[simp] theorem State.onY_b_spq (s : State) (f : Sys → Sys) : (s.onY f).b.spq = s.b.spq := rfl
@[simp] theorem State.onY_b_spFreed (s : State) (f : Sys → Sys) : (s.onY f).b.spFreed = s.b.spFreed := rfl
@[simp] theorem State.onY_b_cls (s : State) (f : Sys → Sys) : (s.onY f).b.cls = s.b.cls := rfl
@[simp] theorem State.onY_b_hiCls (s : State) (f : Sys → Sys) : (s.onY f).b.hiCls = s.b.hiCls := rfl
@[simp] theorem State.onY_b_grant (s : State) (f : Sys → Sys) : (s.onY f).b.grant = s.b.grant := rfl
@[simp] theorem State.onY_b_stepN (s : State) (f : Sys → Sys) : (s.onY f).b.stepN = s.b.stepN := rfl
@[simp] theorem State.onY_b_stepD (s : State) (f : Sys → Sys) : (s.onY f).b.stepD = s.b.stepD := rfl
@[simp] theorem State.onY_b_halted (s : State) (f : Sys → Sys) : (s.onY f).b.halted = s.b.halted := rfl
@[simp] theorem State.onY_b_preq (s : State) (f : Sys → Sys) : (s.onY f).b.preq = s.b.preq := rfl
@[simp] theorem State.onY_b_saving (s : State) (f : Sys → Sys) : (s.onY f).b.saving = s.b.saving := rfl
@[simp] theorem State.onY_b_skip (s : State) (f : Sys → Sys) : (s.onY f).b.skip = s.b.skip := rfl
@[simp] theorem State.onY_b_localQ (s : State) (f : Sys → Sys) : (s.onY f).b.localQ = s.b.localQ := rfl
@[simp] theorem State.onY_b_assigned (s : State) (f : Sys → Sys) : (s.onY f).b.assigned = s.b.assigned := rfl
@[simp] theorem State.onY_b_reserved (s : State) (f : Sys → Sys) : (s.onY f).b.reserved = s.b.reserved := rfl
@[simp] theorem State.onY_b_lastCtx (s : State) (f : Sys → Sys) : (s.onY f).b.lastCtx = s.b.lastCtx := rfl
@[simp] theorem State.onY_b_clk (s : State) (f : Sys → Sys) : (s.onY f).b.clk = s.b.clk := rfl
@[simp] theorem State.onY_b_iss (s : State) (f : Sys → Sys) : (s.onY f).b.iss = s.b.iss := rfl

@[simp] theorem State.onIss_peers (s : State) (f : Issue → Issue) : (s.onIss f).peers = s.peers := rfl
@[simp] theorem State.onIss_agenda (s : State) (f : Issue → Issue) : (s.onIss f).agenda = s.agenda := rfl
@[simp] theorem State.onIss_tick (s : State) (f : Issue → Issue) : (s.onIss f).tick = s.tick := rfl
@[simp] theorem State.onIss_clk (s : State) (f : Issue → Issue) : (s.onIss f).clk = s.clk := rfl
@[simp] theorem State.onIss_ftime (s : State) (f : Issue → Issue) : (s.onIss f).ftime = s.ftime := rfl
@[simp] theorem State.onIss_mem (s : State) (f : Issue → Issue) : (s.onIss f).mem = s.mem := rfl
@[simp] theorem State.onIss_pois (s : State) (f : Issue → Issue) : (s.onIss f).pois = s.pois := rfl
@[simp] theorem State.onIss_dtag (s : State) (f : Issue → Issue) : (s.onIss f).dtag = s.dtag := rfl
@[simp] theorem State.onIss_blk (s : State) (f : Issue → Issue) : (s.onIss f).blk = s.blk := rfl
@[simp] theorem State.onIss_img (s : State) (f : Issue → Issue) : (s.onIss f).img = s.img := rfl
@[simp] theorem State.onIss_twk (s : State) (f : Issue → Issue) : (s.onIss f).twk = s.twk := rfl
@[simp] theorem State.onIss_cache (s : State) (f : Issue → Issue) : (s.onIss f).cache = s.cache := rfl
@[simp] theorem State.onIss_bufs (s : State) (f : Issue → Issue) : (s.onIss f).bufs = s.bufs := rfl
@[simp] theorem State.onIss_acnt (s : State) (f : Issue → Issue) : (s.onIss f).acnt = s.acnt := rfl
@[simp] theorem State.onIss_wq (s : State) (f : Issue → Issue) : (s.onIss f).wq = s.wq := rfl
@[simp] theorem State.onIss_remote (s : State) (f : Issue → Issue) : (s.onIss f).remote = s.remote := rfl
@[simp] theorem State.onIss_upset (s : State) (f : Issue → Issue) : (s.onIss f).upset = s.upset := rfl
@[simp] theorem State.onIss_logs (s : State) (f : Issue → Issue) : (s.onIss f).logs = s.logs := rfl
@[simp] theorem State.onIss_routers (s : State) (f : Issue → Issue) : (s.onIss f).routers = s.routers := rfl
@[simp] theorem State.onIss_dome0 (s : State) (f : Issue → Issue) : (s.onIss f).dome0 = s.dome0 := rfl
@[simp] theorem State.onIss_dome1 (s : State) (f : Issue → Issue) : (s.onIss f).dome1 = s.dome1 := rfl
@[simp] theorem State.onIss_toks (s : State) (f : Issue → Issue) : (s.onIss f).toks = s.toks := rfl
@[simp] theorem State.onIss_doms (s : State) (f : Issue → Issue) : (s.onIss f).doms = s.doms := rfl
@[simp] theorem State.onIss_engs (s : State) (f : Issue → Issue) : (s.onIss f).engs = s.engs := rfl
@[simp] theorem State.onIss_ctxTab (s : State) (f : Issue → Issue) : (s.onIss f).ctxTab = s.ctxTab := rfl
@[simp] theorem State.onIss_win (s : State) (f : Issue → Issue) : (s.onIss f).win = s.win := rfl
@[simp] theorem State.onIss_regions (s : State) (f : Issue → Issue) : (s.onIss f).regions = s.regions := rfl
@[simp] theorem State.onIss_groups (s : State) (f : Issue → Issue) : (s.onIss f).groups = s.groups := rfl
@[simp] theorem State.onIss_node (s : State) (f : Issue → Issue) : (s.onIss f).node = s.node := rfl
@[simp] theorem State.onIss_links (s : State) (f : Issue → Issue) : (s.onIss f).links = s.links := rfl
@[simp] theorem State.onIss_out (s : State) (f : Issue → Issue) : (s.onIss f).out = s.out := rfl
@[simp] theorem State.onIss_egress (s : State) (f : Issue → Issue) : (s.onIss f).egress = s.egress := rfl
@[simp] theorem State.onIss_hops (s : State) (f : Issue → Issue) : (s.onIss f).hops = s.hops := rfl
@[simp] theorem State.onIss_ports (s : State) (f : Issue → Issue) : (s.onIss f).ports = s.ports := rfl
@[simp] theorem State.onIss_paused (s : State) (f : Issue → Issue) : (s.onIss f).paused = s.paused := rfl
@[simp] theorem State.onIss_keys (s : State) (f : Issue → Issue) : (s.onIss f).keys = s.keys := rfl
@[simp] theorem State.onIss_sec (s : State) (f : Issue → Issue) : (s.onIss f).sec = s.sec := rfl
@[simp] theorem State.onIss_inServ (s : State) (f : Issue → Issue) : (s.onIss f).inServ = s.inServ := rfl
@[simp] theorem State.onIss_launches (s : State) (f : Issue → Issue) : (s.onIss f).launches = s.launches := rfl
@[simp] theorem State.onIss_ringQ (s : State) (f : Issue → Issue) : (s.onIss f).ringQ = s.ringQ := rfl
@[simp] theorem State.onIss_tasks (s : State) (f : Issue → Issue) : (s.onIss f).tasks = s.tasks := rfl
@[simp] theorem State.onIss_exits (s : State) (f : Issue → Issue) : (s.onIss f).exits = s.exits := rfl
@[simp] theorem State.onIss_images (s : State) (f : Issue → Issue) : (s.onIss f).images = s.images := rfl
@[simp] theorem State.onIss_musts (s : State) (f : Issue → Issue) : (s.onIss f).musts = s.musts := rfl
@[simp] theorem State.onIss_keep (s : State) (f : Issue → Issue) : (s.onIss f).keep = s.keep := rfl
@[simp] theorem State.onIss_power (s : State) (f : Issue → Issue) : (s.onIss f).power = s.power := rfl
@[simp] theorem State.onIss_gangNow (s : State) (f : Issue → Issue) : (s.onIss f).gangNow = s.gangNow := rfl
@[simp] theorem State.onIss_gangNext (s : State) (f : Issue → Issue) : (s.onIss f).gangNext = s.gangNext := rfl
@[simp] theorem State.onIss_notices (s : State) (f : Issue → Issue) : (s.onIss f).notices = s.notices := rfl
@[simp] theorem State.onIss_passed (s : State) (f : Issue → Issue) : (s.onIss f).passed = s.passed := rfl
@[simp] theorem State.onIss_visits (s : State) (f : Issue → Issue) : (s.onIss f).visits = s.visits := rfl
@[simp] theorem State.onIss_jobs (s : State) (f : Issue → Issue) : (s.onIss f).jobs = s.jobs := rfl
@[simp] theorem State.onIss_slots (s : State) (f : Issue → Issue) : (s.onIss f).slots = s.slots := rfl
@[simp] theorem State.onIss_gangStops (s : State) (f : Issue → Issue) : (s.onIss f).gangStops = s.gangStops := rfl
@[simp] theorem State.onIss_syncAt (s : State) (f : Issue → Issue) : (s.onIss f).syncAt = s.syncAt := rfl
@[simp] theorem State.onIss_nextTid (s : State) (f : Issue → Issue) : (s.onIss f).nextTid = s.nextTid := rfl
@[simp] theorem State.onIss_nextLaunch (s : State) (f : Issue → Issue) : (s.onIss f).nextLaunch = s.nextLaunch := rfl
@[simp] theorem State.onIss_detId (s : State) (f : Issue → Issue) : (s.onIss f).detId = s.detId := rfl
@[simp] theorem State.onIss_cmdSeq (s : State) (f : Issue → Issue) : (s.onIss f).cmdSeq = s.cmdSeq := rfl
@[simp] theorem State.onIss_b_bid (s : State) (f : Issue → Issue) : (s.onIss f).b.bid = s.b.bid := rfl
@[simp] theorem State.onIss_b_running (s : State) (f : Issue → Issue) : (s.onIss f).b.running = s.b.running := rfl
@[simp] theorem State.onIss_b_t (s : State) (f : Issue → Issue) : (s.onIss f).b.t = s.b.t := rfl
@[simp] theorem State.onIss_b_pc (s : State) (f : Issue → Issue) : (s.onIss f).b.pc = s.b.pc := rfl
@[simp] theorem State.onIss_b_cbi (s : State) (f : Issue → Issue) : (s.onIss f).b.cbi = s.b.cbi := rfl
@[simp] theorem State.onIss_b_codeBase (s : State) (f : Issue → Issue) : (s.onIss f).b.codeBase = s.b.codeBase := rfl
@[simp] theorem State.onIss_b_r (s : State) (f : Issue → Issue) : (s.onIss f).b.r = s.b.r := rfl
@[simp] theorem State.onIss_b_y (s : State) (f : Issue → Issue) : (s.onIss f).b.y = s.b.y := rfl
@[simp] theorem State.onIss_b_loc (s : State) (f : Issue → Issue) : (s.onIss f).b.loc = s.b.loc := rfl
@[simp] theorem State.onIss_b_cnt (s : State) (f : Issue → Issue) : (s.onIss f).b.cnt = s.b.cnt := rfl
@[simp] theorem State.onIss_b_cyc (s : State) (f : Issue → Issue) : (s.onIss f).b.cyc = s.b.cyc := rfl
@[simp] theorem State.onIss_b_phase (s : State) (f : Issue → Issue) : (s.onIss f).b.phase = s.b.phase := rfl
@[simp] theorem State.onIss_b_reports (s : State) (f : Issue → Issue) : (s.onIss f).b.reports = s.b.reports := rfl
@[simp] theorem State.onIss_b_barWait (s : State) (f : Issue → Issue) : (s.onIss f).b.barWait = s.b.barWait := rfl
@[simp] theorem State.onIss_b_timer (s : State) (f : Issue → Issue) : (s.onIss f).b.timer = s.b.timer := rfl
@[simp] theorem State.onIss_b_spTimer (s : State) (f : Issue → Issue) : (s.onIss f).b.spTimer = s.b.spTimer := rfl
@[simp] theorem State.onIss_b_acqTimer (s : State) (f : Issue → Issue) : (s.onIss f).b.acqTimer = s.b.acqTimer := rfl
@[simp] theorem State.onIss_b_stall (s : State) (f : Issue → Issue) : (s.onIss f).b.stall = s.b.stall := rfl
@[simp] theorem State.onIss_b_own (s : State) (f : Issue → Issue) : (s.onIss f).b.own = s.b.own := rfl
@[simp] theorem State.onIss_b_contAt (s : State) (f : Issue → Issue) : (s.onIss f).b.contAt = s.b.contAt := rfl
@[simp] theorem State.onIss_b_armTimedOut (s : State) (f : Issue → Issue) : (s.onIss f).b.armTimedOut = s.b.armTimedOut := rfl
@[simp] theorem State.onIss_b_dirty (s : State) (f : Issue → Issue) : (s.onIss f).b.dirty = s.b.dirty := rfl
@[simp] theorem State.onIss_b_lpois (s : State) (f : Issue → Issue) : (s.onIss f).b.lpois = s.b.lpois := rfl
@[simp] theorem State.onIss_b_ecc (s : State) (f : Issue → Issue) : (s.onIss f).b.ecc = s.b.ecc := rfl
@[simp] theorem State.onIss_b_snap (s : State) (f : Issue → Issue) : (s.onIss f).b.snap = s.b.snap := rfl
@[simp] theorem State.onIss_b_ic (s : State) (f : Issue → Issue) : (s.onIss f).b.ic = s.b.ic := rfl
@[simp] theorem State.onIss_b_itlb (s : State) (f : Issue → Issue) : (s.onIss f).b.itlb = s.b.itlb := rfl
@[simp] theorem State.onIss_b_dtlb (s : State) (f : Issue → Issue) : (s.onIss f).b.dtlb = s.b.dtlb := rfl
@[simp] theorem State.onIss_b_stlb (s : State) (f : Issue → Issue) : (s.onIss f).b.stlb = s.b.stlb := rfl
@[simp] theorem State.onIss_b_tlb (s : State) (f : Issue → Issue) : (s.onIss f).b.tlb = s.b.tlb := rfl
@[simp] theorem State.onIss_b_hold (s : State) (f : Issue → Issue) : (s.onIss f).b.hold = s.b.hold := rfl
@[simp] theorem State.onIss_b_dev (s : State) (f : Issue → Issue) : (s.onIss f).b.dev = s.b.dev := rfl
@[simp] theorem State.onIss_b_landing (s : State) (f : Issue → Issue) : (s.onIss f).b.landing = s.b.landing := rfl
@[simp] theorem State.onIss_b_nextId (s : State) (f : Issue → Issue) : (s.onIss f).b.nextId = s.b.nextId := rfl
@[simp] theorem State.onIss_b_push (s : State) (f : Issue → Issue) : (s.onIss f).b.push = s.b.push := rfl
@[simp] theorem State.onIss_b_score (s : State) (f : Issue → Issue) : (s.onIss f).b.score = s.b.score := rfl
@[simp] theorem State.onIss_b_mxq (s : State) (f : Issue → Issue) : (s.onIss f).b.mxq = s.b.mxq := rfl
@[simp] theorem State.onIss_b_lastt (s : State) (f : Issue → Issue) : (s.onIss f).b.lastt = s.b.lastt := rfl
@[simp] theorem State.onIss_b_lasts (s : State) (f : Issue → Issue) : (s.onIss f).b.lasts = s.b.lasts := rfl
@[simp] theorem State.onIss_b_spq (s : State) (f : Issue → Issue) : (s.onIss f).b.spq = s.b.spq := rfl
@[simp] theorem State.onIss_b_spFreed (s : State) (f : Issue → Issue) : (s.onIss f).b.spFreed = s.b.spFreed := rfl
@[simp] theorem State.onIss_b_cls (s : State) (f : Issue → Issue) : (s.onIss f).b.cls = s.b.cls := rfl
@[simp] theorem State.onIss_b_hiCls (s : State) (f : Issue → Issue) : (s.onIss f).b.hiCls = s.b.hiCls := rfl
@[simp] theorem State.onIss_b_grant (s : State) (f : Issue → Issue) : (s.onIss f).b.grant = s.b.grant := rfl
@[simp] theorem State.onIss_b_stepN (s : State) (f : Issue → Issue) : (s.onIss f).b.stepN = s.b.stepN := rfl
@[simp] theorem State.onIss_b_stepD (s : State) (f : Issue → Issue) : (s.onIss f).b.stepD = s.b.stepD := rfl
@[simp] theorem State.onIss_b_halted (s : State) (f : Issue → Issue) : (s.onIss f).b.halted = s.b.halted := rfl
@[simp] theorem State.onIss_b_preq (s : State) (f : Issue → Issue) : (s.onIss f).b.preq = s.b.preq := rfl
@[simp] theorem State.onIss_b_saving (s : State) (f : Issue → Issue) : (s.onIss f).b.saving = s.b.saving := rfl
@[simp] theorem State.onIss_b_skip (s : State) (f : Issue → Issue) : (s.onIss f).b.skip = s.b.skip := rfl
@[simp] theorem State.onIss_b_localQ (s : State) (f : Issue → Issue) : (s.onIss f).b.localQ = s.b.localQ := rfl
@[simp] theorem State.onIss_b_assigned (s : State) (f : Issue → Issue) : (s.onIss f).b.assigned = s.b.assigned := rfl
@[simp] theorem State.onIss_b_reserved (s : State) (f : Issue → Issue) : (s.onIss f).b.reserved = s.b.reserved := rfl
@[simp] theorem State.onIss_b_lastCtx (s : State) (f : Issue → Issue) : (s.onIss f).b.lastCtx = s.b.lastCtx := rfl
@[simp] theorem State.onIss_b_clk (s : State) (f : Issue → Issue) : (s.onIss f).b.clk = s.b.clk := rfl
@[simp] theorem State.onIss_b_iss (s : State) (f : Issue → Issue) : (s.onIss f).b.iss = f s.b.iss := rfl

/-! ## Moves and operations in flight -/

@[simp] theorem State.launchOp_peers (s : State) (L : Nat) (w : PWrite) : (s.launchOp L w).peers = s.peers := rfl
@[simp] theorem State.defer_peers (s : State) (w : Write) : (s.defer w).peers = s.peers := rfl
@[simp] theorem State.launchOp_agenda (s : State) (L : Nat) (w : PWrite) : (s.launchOp L w).agenda = s.agenda := rfl
@[simp] theorem State.defer_agenda (s : State) (w : Write) : (s.defer w).agenda = s.agenda := rfl
@[simp] theorem State.launchOp_tick (s : State) (L : Nat) (w : PWrite) : (s.launchOp L w).tick = s.tick := rfl
@[simp] theorem State.defer_tick (s : State) (w : Write) : (s.defer w).tick = s.tick := rfl
@[simp] theorem State.launchOp_clk (s : State) (L : Nat) (w : PWrite) : (s.launchOp L w).clk = s.clk := rfl
@[simp] theorem State.defer_clk (s : State) (w : Write) : (s.defer w).clk = s.clk := rfl
@[simp] theorem State.launchOp_ftime (s : State) (L : Nat) (w : PWrite) : (s.launchOp L w).ftime = s.ftime := rfl
@[simp] theorem State.defer_ftime (s : State) (w : Write) : (s.defer w).ftime = s.ftime := rfl
@[simp] theorem State.launchOp_mem (s : State) (L : Nat) (w : PWrite) : (s.launchOp L w).mem = s.mem := rfl
@[simp] theorem State.defer_mem (s : State) (w : Write) : (s.defer w).mem = s.mem := rfl
@[simp] theorem State.launchOp_pois (s : State) (L : Nat) (w : PWrite) : (s.launchOp L w).pois = s.pois := rfl
@[simp] theorem State.defer_pois (s : State) (w : Write) : (s.defer w).pois = s.pois := rfl
@[simp] theorem State.launchOp_dtag (s : State) (L : Nat) (w : PWrite) : (s.launchOp L w).dtag = s.dtag := rfl
@[simp] theorem State.defer_dtag (s : State) (w : Write) : (s.defer w).dtag = s.dtag := rfl
@[simp] theorem State.launchOp_blk (s : State) (L : Nat) (w : PWrite) : (s.launchOp L w).blk = s.blk := rfl
@[simp] theorem State.defer_blk (s : State) (w : Write) : (s.defer w).blk = s.blk := rfl
@[simp] theorem State.launchOp_img (s : State) (L : Nat) (w : PWrite) : (s.launchOp L w).img = s.img := rfl
@[simp] theorem State.defer_img (s : State) (w : Write) : (s.defer w).img = s.img := rfl
@[simp] theorem State.launchOp_twk (s : State) (L : Nat) (w : PWrite) : (s.launchOp L w).twk = s.twk := rfl
@[simp] theorem State.defer_twk (s : State) (w : Write) : (s.defer w).twk = s.twk := rfl
@[simp] theorem State.launchOp_cache (s : State) (L : Nat) (w : PWrite) : (s.launchOp L w).cache = s.cache := rfl
@[simp] theorem State.defer_cache (s : State) (w : Write) : (s.defer w).cache = s.cache := rfl
@[simp] theorem State.launchOp_bufs (s : State) (L : Nat) (w : PWrite) : (s.launchOp L w).bufs = s.bufs := rfl
@[simp] theorem State.defer_bufs (s : State) (w : Write) : (s.defer w).bufs = s.bufs := rfl
@[simp] theorem State.launchOp_acnt (s : State) (L : Nat) (w : PWrite) : (s.launchOp L w).acnt = s.acnt := rfl
@[simp] theorem State.defer_acnt (s : State) (w : Write) : (s.defer w).acnt = s.acnt := rfl
@[simp] theorem State.launchOp_wq (s : State) (L : Nat) (w : PWrite) : (s.launchOp L w).wq = s.wq := rfl
@[simp] theorem State.defer_wq (s : State) (w : Write) : (s.defer w).wq = s.wq := rfl
@[simp] theorem State.launchOp_remote (s : State) (L : Nat) (w : PWrite) : (s.launchOp L w).remote = s.remote := rfl
@[simp] theorem State.defer_remote (s : State) (w : Write) : (s.defer w).remote = s.remote := rfl
@[simp] theorem State.launchOp_upset (s : State) (L : Nat) (w : PWrite) : (s.launchOp L w).upset = s.upset := rfl
@[simp] theorem State.defer_upset (s : State) (w : Write) : (s.defer w).upset = s.upset := rfl
@[simp] theorem State.launchOp_logs (s : State) (L : Nat) (w : PWrite) : (s.launchOp L w).logs = s.logs := rfl
@[simp] theorem State.defer_logs (s : State) (w : Write) : (s.defer w).logs = s.logs := rfl
@[simp] theorem State.launchOp_routers (s : State) (L : Nat) (w : PWrite) : (s.launchOp L w).routers = s.routers := rfl
@[simp] theorem State.defer_routers (s : State) (w : Write) : (s.defer w).routers = s.routers := rfl
@[simp] theorem State.launchOp_dome0 (s : State) (L : Nat) (w : PWrite) : (s.launchOp L w).dome0 = s.dome0 := rfl
@[simp] theorem State.defer_dome0 (s : State) (w : Write) : (s.defer w).dome0 = s.dome0 := rfl
@[simp] theorem State.launchOp_dome1 (s : State) (L : Nat) (w : PWrite) : (s.launchOp L w).dome1 = s.dome1 := rfl
@[simp] theorem State.defer_dome1 (s : State) (w : Write) : (s.defer w).dome1 = s.dome1 := rfl
@[simp] theorem State.launchOp_toks (s : State) (L : Nat) (w : PWrite) : (s.launchOp L w).toks = s.toks := rfl
@[simp] theorem State.defer_toks (s : State) (w : Write) : (s.defer w).toks = s.toks := rfl
@[simp] theorem State.launchOp_doms (s : State) (L : Nat) (w : PWrite) : (s.launchOp L w).doms = s.doms := rfl
@[simp] theorem State.defer_doms (s : State) (w : Write) : (s.defer w).doms = s.doms := rfl
@[simp] theorem State.launchOp_engs (s : State) (L : Nat) (w : PWrite) : (s.launchOp L w).engs = s.engs := rfl
@[simp] theorem State.defer_engs (s : State) (w : Write) : (s.defer w).engs = s.engs := rfl
@[simp] theorem State.launchOp_ctxTab (s : State) (L : Nat) (w : PWrite) : (s.launchOp L w).ctxTab = s.ctxTab := rfl
@[simp] theorem State.defer_ctxTab (s : State) (w : Write) : (s.defer w).ctxTab = s.ctxTab := rfl
@[simp] theorem State.launchOp_win (s : State) (L : Nat) (w : PWrite) : (s.launchOp L w).win = s.win := rfl
@[simp] theorem State.defer_win (s : State) (w : Write) : (s.defer w).win = s.win := rfl
@[simp] theorem State.launchOp_regions (s : State) (L : Nat) (w : PWrite) : (s.launchOp L w).regions = s.regions := rfl
@[simp] theorem State.defer_regions (s : State) (w : Write) : (s.defer w).regions = s.regions := rfl
@[simp] theorem State.launchOp_groups (s : State) (L : Nat) (w : PWrite) : (s.launchOp L w).groups = s.groups := rfl
@[simp] theorem State.defer_groups (s : State) (w : Write) : (s.defer w).groups = s.groups := rfl
@[simp] theorem State.launchOp_node (s : State) (L : Nat) (w : PWrite) : (s.launchOp L w).node = s.node := rfl
@[simp] theorem State.defer_node (s : State) (w : Write) : (s.defer w).node = s.node := rfl
@[simp] theorem State.launchOp_links (s : State) (L : Nat) (w : PWrite) : (s.launchOp L w).links = s.links := rfl
@[simp] theorem State.defer_links (s : State) (w : Write) : (s.defer w).links = s.links := rfl
@[simp] theorem State.launchOp_out (s : State) (L : Nat) (w : PWrite) : (s.launchOp L w).out = s.out := rfl
@[simp] theorem State.defer_out (s : State) (w : Write) : (s.defer w).out = s.out := rfl
@[simp] theorem State.launchOp_egress (s : State) (L : Nat) (w : PWrite) : (s.launchOp L w).egress = s.egress := rfl
@[simp] theorem State.defer_egress (s : State) (w : Write) : (s.defer w).egress = s.egress := rfl
@[simp] theorem State.launchOp_hops (s : State) (L : Nat) (w : PWrite) : (s.launchOp L w).hops = s.hops := rfl
@[simp] theorem State.defer_hops (s : State) (w : Write) : (s.defer w).hops = s.hops := rfl
@[simp] theorem State.launchOp_ports (s : State) (L : Nat) (w : PWrite) : (s.launchOp L w).ports = s.ports := rfl
@[simp] theorem State.defer_ports (s : State) (w : Write) : (s.defer w).ports = s.ports := rfl
@[simp] theorem State.launchOp_paused (s : State) (L : Nat) (w : PWrite) : (s.launchOp L w).paused = s.paused := rfl
@[simp] theorem State.defer_paused (s : State) (w : Write) : (s.defer w).paused = s.paused := rfl
@[simp] theorem State.launchOp_keys (s : State) (L : Nat) (w : PWrite) : (s.launchOp L w).keys = s.keys := rfl
@[simp] theorem State.defer_keys (s : State) (w : Write) : (s.defer w).keys = s.keys := rfl
@[simp] theorem State.launchOp_sec (s : State) (L : Nat) (w : PWrite) : (s.launchOp L w).sec = s.sec := rfl
@[simp] theorem State.defer_sec (s : State) (w : Write) : (s.defer w).sec = s.sec := rfl
@[simp] theorem State.launchOp_inServ (s : State) (L : Nat) (w : PWrite) : (s.launchOp L w).inServ = s.inServ := rfl
@[simp] theorem State.defer_inServ (s : State) (w : Write) : (s.defer w).inServ = s.inServ := rfl
@[simp] theorem State.launchOp_launches (s : State) (L : Nat) (w : PWrite) : (s.launchOp L w).launches = s.launches := rfl
@[simp] theorem State.defer_launches (s : State) (w : Write) : (s.defer w).launches = s.launches := rfl
@[simp] theorem State.launchOp_ringQ (s : State) (L : Nat) (w : PWrite) : (s.launchOp L w).ringQ = s.ringQ := rfl
@[simp] theorem State.defer_ringQ (s : State) (w : Write) : (s.defer w).ringQ = s.ringQ := rfl
@[simp] theorem State.launchOp_tasks (s : State) (L : Nat) (w : PWrite) : (s.launchOp L w).tasks = s.tasks := rfl
@[simp] theorem State.defer_tasks (s : State) (w : Write) : (s.defer w).tasks = s.tasks := rfl
@[simp] theorem State.launchOp_exits (s : State) (L : Nat) (w : PWrite) : (s.launchOp L w).exits = s.exits := rfl
@[simp] theorem State.defer_exits (s : State) (w : Write) : (s.defer w).exits = s.exits := rfl
@[simp] theorem State.launchOp_images (s : State) (L : Nat) (w : PWrite) : (s.launchOp L w).images = s.images := rfl
@[simp] theorem State.defer_images (s : State) (w : Write) : (s.defer w).images = s.images := rfl
@[simp] theorem State.launchOp_musts (s : State) (L : Nat) (w : PWrite) : (s.launchOp L w).musts = s.musts := rfl
@[simp] theorem State.defer_musts (s : State) (w : Write) : (s.defer w).musts = s.musts := rfl
@[simp] theorem State.launchOp_keep (s : State) (L : Nat) (w : PWrite) : (s.launchOp L w).keep = s.keep := rfl
@[simp] theorem State.defer_keep (s : State) (w : Write) : (s.defer w).keep = s.keep := rfl
@[simp] theorem State.launchOp_power (s : State) (L : Nat) (w : PWrite) : (s.launchOp L w).power = s.power := rfl
@[simp] theorem State.defer_power (s : State) (w : Write) : (s.defer w).power = s.power := rfl
@[simp] theorem State.launchOp_gangNow (s : State) (L : Nat) (w : PWrite) : (s.launchOp L w).gangNow = s.gangNow := rfl
@[simp] theorem State.defer_gangNow (s : State) (w : Write) : (s.defer w).gangNow = s.gangNow := rfl
@[simp] theorem State.launchOp_gangNext (s : State) (L : Nat) (w : PWrite) : (s.launchOp L w).gangNext = s.gangNext := rfl
@[simp] theorem State.defer_gangNext (s : State) (w : Write) : (s.defer w).gangNext = s.gangNext := rfl
@[simp] theorem State.launchOp_notices (s : State) (L : Nat) (w : PWrite) : (s.launchOp L w).notices = s.notices := rfl
@[simp] theorem State.defer_notices (s : State) (w : Write) : (s.defer w).notices = s.notices := rfl
@[simp] theorem State.launchOp_passed (s : State) (L : Nat) (w : PWrite) : (s.launchOp L w).passed = s.passed := rfl
@[simp] theorem State.launchOp_visits (s : State) (L : Nat) (w : PWrite) : (s.launchOp L w).visits = s.visits := rfl
@[simp] theorem State.launchOp_jobs (s : State) (L : Nat) (w : PWrite) : (s.launchOp L w).jobs = s.jobs := rfl
@[simp] theorem State.launchOp_slots (s : State) (L : Nat) (w : PWrite) : (s.launchOp L w).slots = s.slots := rfl
@[simp] theorem State.launchOp_gangStops (s : State) (L : Nat) (w : PWrite) : (s.launchOp L w).gangStops = s.gangStops := rfl
@[simp] theorem State.launchOp_syncAt (s : State) (L : Nat) (w : PWrite) : (s.launchOp L w).syncAt = s.syncAt := rfl
@[simp] theorem State.defer_passed (s : State) (w : Write) : (s.defer w).passed = s.passed := rfl
@[simp] theorem State.defer_visits (s : State) (w : Write) : (s.defer w).visits = s.visits := rfl
@[simp] theorem State.defer_jobs (s : State) (w : Write) : (s.defer w).jobs = s.jobs := rfl
@[simp] theorem State.defer_slots (s : State) (w : Write) : (s.defer w).slots = s.slots := rfl
@[simp] theorem State.defer_gangStops (s : State) (w : Write) : (s.defer w).gangStops = s.gangStops := rfl
@[simp] theorem State.defer_syncAt (s : State) (w : Write) : (s.defer w).syncAt = s.syncAt := rfl
@[simp] theorem State.launchOp_nextTid (s : State) (L : Nat) (w : PWrite) : (s.launchOp L w).nextTid = s.nextTid := rfl
@[simp] theorem State.defer_nextTid (s : State) (w : Write) : (s.defer w).nextTid = s.nextTid := rfl
@[simp] theorem State.launchOp_nextLaunch (s : State) (L : Nat) (w : PWrite) : (s.launchOp L w).nextLaunch = s.nextLaunch := rfl
@[simp] theorem State.defer_nextLaunch (s : State) (w : Write) : (s.defer w).nextLaunch = s.nextLaunch := rfl
@[simp] theorem State.launchOp_detId (s : State) (L : Nat) (w : PWrite) : (s.launchOp L w).detId = s.detId := rfl
@[simp] theorem State.defer_detId (s : State) (w : Write) : (s.defer w).detId = s.detId := rfl
@[simp] theorem State.launchOp_cmdSeq (s : State) (L : Nat) (w : PWrite) : (s.launchOp L w).cmdSeq = s.cmdSeq := rfl
@[simp] theorem State.defer_cmdSeq (s : State) (w : Write) : (s.defer w).cmdSeq = s.cmdSeq := rfl
@[simp] theorem State.launchOp_b_bid (s : State) (L : Nat) (w : PWrite) : (s.launchOp L w).b.bid = s.b.bid := rfl
@[simp] theorem State.defer_b_bid (s : State) (w : Write) : (s.defer w).b.bid = s.b.bid := rfl
@[simp] theorem State.launchOp_b_running (s : State) (L : Nat) (w : PWrite) : (s.launchOp L w).b.running = s.b.running := rfl
@[simp] theorem State.defer_b_running (s : State) (w : Write) : (s.defer w).b.running = s.b.running := rfl
@[simp] theorem State.launchOp_b_t (s : State) (L : Nat) (w : PWrite) : (s.launchOp L w).b.t = s.b.t := rfl
@[simp] theorem State.defer_b_t (s : State) (w : Write) : (s.defer w).b.t = s.b.t := rfl
@[simp] theorem State.launchOp_b_pc (s : State) (L : Nat) (w : PWrite) : (s.launchOp L w).b.pc = s.b.pc := rfl
@[simp] theorem State.defer_b_pc (s : State) (w : Write) : (s.defer w).b.pc = s.b.pc := rfl
@[simp] theorem State.launchOp_b_cbi (s : State) (L : Nat) (w : PWrite) : (s.launchOp L w).b.cbi = s.b.cbi := rfl
@[simp] theorem State.defer_b_cbi (s : State) (w : Write) : (s.defer w).b.cbi = s.b.cbi := rfl
@[simp] theorem State.launchOp_b_codeBase (s : State) (L : Nat) (w : PWrite) : (s.launchOp L w).b.codeBase = s.b.codeBase := rfl
@[simp] theorem State.defer_b_codeBase (s : State) (w : Write) : (s.defer w).b.codeBase = s.b.codeBase := rfl
@[simp] theorem State.defer_b_r (s : State) (w : Write) : (s.defer w).b.r = s.b.r := rfl
@[simp] theorem State.launchOp_b_y (s : State) (L : Nat) (w : PWrite) : (s.launchOp L w).b.y = s.b.y := rfl
@[simp] theorem State.defer_b_y (s : State) (w : Write) : (s.defer w).b.y = s.b.y := rfl
@[simp] theorem State.launchOp_b_loc (s : State) (L : Nat) (w : PWrite) : (s.launchOp L w).b.loc = s.b.loc := rfl
@[simp] theorem State.defer_b_loc (s : State) (w : Write) : (s.defer w).b.loc = s.b.loc := rfl
@[simp] theorem State.launchOp_b_cnt (s : State) (L : Nat) (w : PWrite) : (s.launchOp L w).b.cnt = s.b.cnt := rfl
@[simp] theorem State.defer_b_cnt (s : State) (w : Write) : (s.defer w).b.cnt = s.b.cnt := rfl
@[simp] theorem State.launchOp_b_cyc (s : State) (L : Nat) (w : PWrite) : (s.launchOp L w).b.cyc = s.b.cyc := rfl
@[simp] theorem State.defer_b_cyc (s : State) (w : Write) : (s.defer w).b.cyc = s.b.cyc := rfl
@[simp] theorem State.launchOp_b_phase (s : State) (L : Nat) (w : PWrite) : (s.launchOp L w).b.phase = s.b.phase := rfl
@[simp] theorem State.defer_b_phase (s : State) (w : Write) : (s.defer w).b.phase = s.b.phase := rfl
@[simp] theorem State.launchOp_b_reports (s : State) (L : Nat) (w : PWrite) : (s.launchOp L w).b.reports = s.b.reports := rfl
@[simp] theorem State.defer_b_reports (s : State) (w : Write) : (s.defer w).b.reports = s.b.reports := rfl
@[simp] theorem State.launchOp_b_barWait (s : State) (L : Nat) (w : PWrite) : (s.launchOp L w).b.barWait = s.b.barWait := rfl
@[simp] theorem State.defer_b_barWait (s : State) (w : Write) : (s.defer w).b.barWait = s.b.barWait := rfl
@[simp] theorem State.launchOp_b_timer (s : State) (L : Nat) (w : PWrite) : (s.launchOp L w).b.timer = s.b.timer := rfl
@[simp] theorem State.defer_b_timer (s : State) (w : Write) : (s.defer w).b.timer = s.b.timer := rfl
@[simp] theorem State.launchOp_b_spTimer (s : State) (L : Nat) (w : PWrite) : (s.launchOp L w).b.spTimer = s.b.spTimer := rfl
@[simp] theorem State.defer_b_spTimer (s : State) (w : Write) : (s.defer w).b.spTimer = s.b.spTimer := rfl
@[simp] theorem State.launchOp_b_acqTimer (s : State) (L : Nat) (w : PWrite) : (s.launchOp L w).b.acqTimer = s.b.acqTimer := rfl
@[simp] theorem State.defer_b_acqTimer (s : State) (w : Write) : (s.defer w).b.acqTimer = s.b.acqTimer := rfl
@[simp] theorem State.launchOp_b_stall (s : State) (L : Nat) (w : PWrite) : (s.launchOp L w).b.stall = s.b.stall := rfl
@[simp] theorem State.defer_b_stall (s : State) (w : Write) : (s.defer w).b.stall = s.b.stall := rfl
@[simp] theorem State.launchOp_b_own (s : State) (L : Nat) (w : PWrite) : (s.launchOp L w).b.own = s.b.own := rfl
@[simp] theorem State.defer_b_own (s : State) (w : Write) : (s.defer w).b.own = s.b.own := rfl
@[simp] theorem State.launchOp_b_contAt (s : State) (L : Nat) (w : PWrite) : (s.launchOp L w).b.contAt = s.b.contAt := rfl
@[simp] theorem State.defer_b_contAt (s : State) (w : Write) : (s.defer w).b.contAt = s.b.contAt := rfl
@[simp] theorem State.launchOp_b_armTimedOut (s : State) (L : Nat) (w : PWrite) : (s.launchOp L w).b.armTimedOut = s.b.armTimedOut := rfl
@[simp] theorem State.defer_b_armTimedOut (s : State) (w : Write) : (s.defer w).b.armTimedOut = s.b.armTimedOut := rfl
@[simp] theorem State.launchOp_b_dirty (s : State) (L : Nat) (w : PWrite) : (s.launchOp L w).b.dirty = s.b.dirty := rfl
@[simp] theorem State.defer_b_dirty (s : State) (w : Write) : (s.defer w).b.dirty = s.b.dirty := rfl
@[simp] theorem State.launchOp_b_lpois (s : State) (L : Nat) (w : PWrite) : (s.launchOp L w).b.lpois = s.b.lpois := rfl
@[simp] theorem State.defer_b_lpois (s : State) (w : Write) : (s.defer w).b.lpois = s.b.lpois := rfl
@[simp] theorem State.launchOp_b_ecc (s : State) (L : Nat) (w : PWrite) : (s.launchOp L w).b.ecc = s.b.ecc := rfl
@[simp] theorem State.defer_b_ecc (s : State) (w : Write) : (s.defer w).b.ecc = s.b.ecc := rfl
@[simp] theorem State.launchOp_b_snap (s : State) (L : Nat) (w : PWrite) : (s.launchOp L w).b.snap = s.b.snap := rfl
@[simp] theorem State.defer_b_snap (s : State) (w : Write) : (s.defer w).b.snap = s.b.snap := rfl
@[simp] theorem State.launchOp_b_ic (s : State) (L : Nat) (w : PWrite) : (s.launchOp L w).b.ic = s.b.ic := rfl
@[simp] theorem State.defer_b_ic (s : State) (w : Write) : (s.defer w).b.ic = s.b.ic := rfl
@[simp] theorem State.launchOp_b_itlb (s : State) (L : Nat) (w : PWrite) : (s.launchOp L w).b.itlb = s.b.itlb := rfl
@[simp] theorem State.defer_b_itlb (s : State) (w : Write) : (s.defer w).b.itlb = s.b.itlb := rfl
@[simp] theorem State.launchOp_b_dtlb (s : State) (L : Nat) (w : PWrite) : (s.launchOp L w).b.dtlb = s.b.dtlb := rfl
@[simp] theorem State.defer_b_dtlb (s : State) (w : Write) : (s.defer w).b.dtlb = s.b.dtlb := rfl
@[simp] theorem State.launchOp_b_stlb (s : State) (L : Nat) (w : PWrite) : (s.launchOp L w).b.stlb = s.b.stlb := rfl
@[simp] theorem State.defer_b_stlb (s : State) (w : Write) : (s.defer w).b.stlb = s.b.stlb := rfl
@[simp] theorem State.launchOp_b_tlb (s : State) (L : Nat) (w : PWrite) : (s.launchOp L w).b.tlb = s.b.tlb := rfl
@[simp] theorem State.defer_b_tlb (s : State) (w : Write) : (s.defer w).b.tlb = s.b.tlb := rfl
@[simp] theorem State.launchOp_b_hold (s : State) (L : Nat) (w : PWrite) : (s.launchOp L w).b.hold = s.b.hold := rfl
@[simp] theorem State.defer_b_hold (s : State) (w : Write) : (s.defer w).b.hold = s.b.hold := rfl
@[simp] theorem State.launchOp_b_dev (s : State) (L : Nat) (w : PWrite) : (s.launchOp L w).b.dev = s.b.dev := rfl
@[simp] theorem State.defer_b_dev (s : State) (w : Write) : (s.defer w).b.dev = s.b.dev := rfl
@[simp] theorem State.launchOp_b_landing (s : State) (L : Nat) (w : PWrite) : (s.launchOp L w).b.landing = s.b.landing := rfl
@[simp] theorem State.defer_b_landing (s : State) (w : Write) : (s.defer w).b.landing = s.b.landing := rfl
@[simp] theorem State.launchOp_b_nextId (s : State) (L : Nat) (w : PWrite) : (s.launchOp L w).b.nextId = s.b.nextId := rfl
@[simp] theorem State.defer_b_nextId (s : State) (w : Write) : (s.defer w).b.nextId = s.b.nextId := rfl
@[simp] theorem State.launchOp_b_push (s : State) (L : Nat) (w : PWrite) : (s.launchOp L w).b.push = s.b.push := rfl
@[simp] theorem State.defer_b_push (s : State) (w : Write) : (s.defer w).b.push = s.b.push := rfl
@[simp] theorem State.launchOp_b_score (s : State) (L : Nat) (w : PWrite) : (s.launchOp L w).b.score = s.b.score := rfl
@[simp] theorem State.defer_b_score (s : State) (w : Write) : (s.defer w).b.score = s.b.score := rfl
@[simp] theorem State.launchOp_b_mxq (s : State) (L : Nat) (w : PWrite) : (s.launchOp L w).b.mxq = s.b.mxq := rfl
@[simp] theorem State.defer_b_mxq (s : State) (w : Write) : (s.defer w).b.mxq = s.b.mxq := rfl
@[simp] theorem State.launchOp_b_lastt (s : State) (L : Nat) (w : PWrite) : (s.launchOp L w).b.lastt = s.b.lastt := rfl
@[simp] theorem State.defer_b_lastt (s : State) (w : Write) : (s.defer w).b.lastt = s.b.lastt := rfl
@[simp] theorem State.launchOp_b_lasts (s : State) (L : Nat) (w : PWrite) : (s.launchOp L w).b.lasts = s.b.lasts := rfl
@[simp] theorem State.defer_b_lasts (s : State) (w : Write) : (s.defer w).b.lasts = s.b.lasts := rfl
@[simp] theorem State.launchOp_b_spq (s : State) (L : Nat) (w : PWrite) : (s.launchOp L w).b.spq = s.b.spq := rfl
@[simp] theorem State.defer_b_spq (s : State) (w : Write) : (s.defer w).b.spq = s.b.spq := rfl
@[simp] theorem State.launchOp_b_spFreed (s : State) (L : Nat) (w : PWrite) : (s.launchOp L w).b.spFreed = s.b.spFreed := rfl
@[simp] theorem State.defer_b_spFreed (s : State) (w : Write) : (s.defer w).b.spFreed = s.b.spFreed := rfl
@[simp] theorem State.launchOp_b_cls (s : State) (L : Nat) (w : PWrite) : (s.launchOp L w).b.cls = s.b.cls := rfl
@[simp] theorem State.defer_b_cls (s : State) (w : Write) : (s.defer w).b.cls = s.b.cls := rfl
@[simp] theorem State.launchOp_b_hiCls (s : State) (L : Nat) (w : PWrite) : (s.launchOp L w).b.hiCls = s.b.hiCls := rfl
@[simp] theorem State.defer_b_hiCls (s : State) (w : Write) : (s.defer w).b.hiCls = s.b.hiCls := rfl
@[simp] theorem State.launchOp_b_grant (s : State) (L : Nat) (w : PWrite) : (s.launchOp L w).b.grant = s.b.grant := rfl
@[simp] theorem State.defer_b_grant (s : State) (w : Write) : (s.defer w).b.grant = s.b.grant := rfl
@[simp] theorem State.launchOp_b_stepN (s : State) (L : Nat) (w : PWrite) : (s.launchOp L w).b.stepN = s.b.stepN := rfl
@[simp] theorem State.defer_b_stepN (s : State) (w : Write) : (s.defer w).b.stepN = s.b.stepN := rfl
@[simp] theorem State.launchOp_b_stepD (s : State) (L : Nat) (w : PWrite) : (s.launchOp L w).b.stepD = s.b.stepD := rfl
@[simp] theorem State.defer_b_stepD (s : State) (w : Write) : (s.defer w).b.stepD = s.b.stepD := rfl
@[simp] theorem State.launchOp_b_halted (s : State) (L : Nat) (w : PWrite) : (s.launchOp L w).b.halted = s.b.halted := rfl
@[simp] theorem State.defer_b_halted (s : State) (w : Write) : (s.defer w).b.halted = s.b.halted := rfl
@[simp] theorem State.launchOp_b_preq (s : State) (L : Nat) (w : PWrite) : (s.launchOp L w).b.preq = s.b.preq := rfl
@[simp] theorem State.defer_b_preq (s : State) (w : Write) : (s.defer w).b.preq = s.b.preq := rfl
@[simp] theorem State.launchOp_b_saving (s : State) (L : Nat) (w : PWrite) : (s.launchOp L w).b.saving = s.b.saving := rfl
@[simp] theorem State.defer_b_saving (s : State) (w : Write) : (s.defer w).b.saving = s.b.saving := rfl
@[simp] theorem State.launchOp_b_skip (s : State) (L : Nat) (w : PWrite) : (s.launchOp L w).b.skip = s.b.skip := rfl
@[simp] theorem State.defer_b_skip (s : State) (w : Write) : (s.defer w).b.skip = s.b.skip := rfl
@[simp] theorem State.launchOp_b_localQ (s : State) (L : Nat) (w : PWrite) : (s.launchOp L w).b.localQ = s.b.localQ := rfl
@[simp] theorem State.defer_b_localQ (s : State) (w : Write) : (s.defer w).b.localQ = s.b.localQ := rfl
@[simp] theorem State.launchOp_b_assigned (s : State) (L : Nat) (w : PWrite) : (s.launchOp L w).b.assigned = s.b.assigned := rfl
@[simp] theorem State.defer_b_assigned (s : State) (w : Write) : (s.defer w).b.assigned = s.b.assigned := rfl
@[simp] theorem State.launchOp_b_reserved (s : State) (L : Nat) (w : PWrite) : (s.launchOp L w).b.reserved = s.b.reserved := rfl
@[simp] theorem State.defer_b_reserved (s : State) (w : Write) : (s.defer w).b.reserved = s.b.reserved := rfl
@[simp] theorem State.launchOp_b_lastCtx (s : State) (L : Nat) (w : PWrite) : (s.launchOp L w).b.lastCtx = s.b.lastCtx := rfl
@[simp] theorem State.defer_b_lastCtx (s : State) (w : Write) : (s.defer w).b.lastCtx = s.b.lastCtx := rfl
@[simp] theorem State.launchOp_b_clk (s : State) (L : Nat) (w : PWrite) : (s.launchOp L w).b.clk = s.b.clk := rfl
@[simp] theorem State.defer_b_clk (s : State) (w : Write) : (s.defer w).b.clk = s.b.clk := rfl
@[simp] theorem State.launchOp_b_iss (s : State) (L : Nat) (w : PWrite) : (s.launchOp L w).b.iss = s.b.iss := rfl
@[simp] theorem State.launchOp_r_g (s : State) (L : Nat) (w : PWrite) : (s.launchOp L w).b.r.g = s.b.r.g := rfl
@[simp] theorem State.launchOp_r_v (s : State) (L : Nat) (w : PWrite) : (s.launchOp L w).b.r.v = s.b.r.v := rfl
@[simp] theorem State.launchOp_r_m (s : State) (L : Nat) (w : PWrite) : (s.launchOp L w).b.r.m = s.b.r.m := rfl
@[simp] theorem State.launchOp_r_k (s : State) (L : Nat) (w : PWrite) : (s.launchOp L w).b.r.k = s.b.r.k := rfl
@[simp] theorem State.launchOp_r_h (s : State) (L : Nat) (w : PWrite) : (s.launchOp L w).b.r.h = s.b.r.h := rfl
@[simp] theorem State.launchOp_r_ix (s : State) (L : Nat) (w : PWrite) : (s.launchOp L w).b.r.ix = s.b.r.ix := rfl
@[simp] theorem State.launchOp_r_rrb (s : State) (L : Nat) (w : PWrite) : (s.launchOp L w).b.r.rrb = s.b.r.rrb := rfl
@[simp] theorem State.launchOp_r_opd (s : State) (L : Nat) (w : PWrite) : (s.launchOp L w).b.r.opd = s.b.r.opd := rfl
@[simp] theorem State.launchOp_r_res (s : State) (L : Nat) (w : PWrite) : (s.launchOp L w).b.r.res = s.b.r.res := rfl
@[simp] theorem State.launchOp_r_pipe (s : State) (L : Nat) (w : PWrite) : (s.launchOp L w).b.r.pipe = s.b.r.pipe ++ [⟨L, w⟩] := rfl
@[simp] theorem State.launchOp_r_br (s : State) (L : Nat) (w : PWrite) : (s.launchOp L w).b.r.br = s.b.r.br := rfl
@[simp] theorem State.launchOp_r_lp (s : State) (L : Nat) (w : PWrite) : (s.launchOp L w).b.r.lp = s.b.r.lp := rfl
@[simp] theorem State.defer_iss_slot (s : State) (w : Write) : (s.defer w).b.iss.slot = s.b.iss.slot := rfl
@[simp] theorem State.defer_iss_go (s : State) (w : Write) : (s.defer w).b.iss.go = s.b.iss.go := rfl
@[simp] theorem State.defer_iss_litN (s : State) (w : Write) : (s.defer w).b.iss.litN = s.b.iss.litN := rfl
@[simp] theorem State.defer_iss_litV (s : State) (w : Write) : (s.defer w).b.iss.litV = s.b.iss.litV := rfl
@[simp] theorem State.defer_iss_litS (s : State) (w : Write) : (s.defer w).b.iss.litS = s.b.iss.litS := rfl
@[simp] theorem State.defer_iss_wr (s : State) (w : Write) : (s.defer w).b.iss.wr = s.b.iss.wr ++ [w] := rfl
@[simp] theorem State.defer_iss_opd0 (s : State) (w : Write) : (s.defer w).b.iss.opd0 = s.b.iss.opd0 := rfl
@[simp] theorem State.defer_iss_ev (s : State) (w : Write) : (s.defer w).b.iss.ev = s.b.iss.ev := rfl
@[simp] theorem State.defer_iss_leave (s : State) (w : Write) : (s.defer w).b.iss.leave = s.b.iss.leave := rfl
@[simp] theorem State.defer_iss_jump (s : State) (w : Write) : (s.defer w).b.iss.jump = s.b.iss.jump := rfl
@[simp] theorem State.defer_iss_loop (s : State) (w : Write) : (s.defer w).b.iss.loop = s.b.iss.loop := rfl
@[simp] theorem State.defer_iss_tret (s : State) (w : Write) : (s.defer w).b.iss.tret = s.b.iss.tret := rfl

end Sys2Proof.Machine
end

