-- ==== Sys2Proof/Laws/Errors.lean ====
section
/-!
SUPPORT. Protected words (R142 to R144): what planting and meeting errors can change, and that nothing happens where no word is in
error and no injection is armed.
-/

namespace Sys2Proof.Machine

open Sys2Proof

/-- Writing protected words changes the injection register and the list of words in error, and nothing else. -/
theorem Brick.plant_eq (b : Brick) (array : Nat) (ws : List (Nat × Bool)) :
    ∃ x l, b.plant array ws = { b with y := { b.y with einj := x }, ecc := l } := by
  unfold Brick.plant
  refine ⟨(b.plant array ws).y.einj, (b.plant array ws).ecc, ?_⟩
  unfold Brick.plant
  by_cases h : b.ecc = [] <;> simp only [h, if_true, if_false] <;> split <;> try rfl
  all_goals split <;> rfl

/-- Words written while none is in error and no injection is armed. -/
theorem Brick.plant_idle {b : Brick} (array : Nat) (ws : List (Nat × Bool)) (h : b.ecc = [])
    (ha : bit b.y.einj.toNat 63 = false) : b.plant array ws = b := by
  simp [Brick.plant, h, ha]

/-- Words read while none is in error. -/
theorem Brick.meet_none {b : Brick} (ws : List (Nat × Nat)) (ctx : Nat) (h : b.ecc = []) : b.meet ws ctx = (b, none) := by
  simp [Brick.meet, h]

theorem Brick.checkTags_none {b : Brick} (es : List Nat) (ctx : Nat) (h : b.ecc = []) : b.checkTags es ctx = (b, none) :=
  b.meet_none _ ctx h

/-- Logging an error changes the error logs, and nothing else. -/
theorem Brick.logErr_eq (b : Brick) (e : EccErr) (addr ctx : Nat) :
    ∃ x, b.logErr e addr ctx = { b with y := { b.y with elog := x } } := ⟨_, rfl⟩

theorem Brick.logErrs_eq (f : EccErr → Nat) (ctx : Nat) (l : List EccErr) (b : Brick) :
    ∃ x, l.foldl (fun b e => b.logErr e (f e) ctx) b = { b with y := { b.y with elog := x } } := by
  induction l generalizing b with
  | nil => exact ⟨b.y.elog, rfl⟩
  | cons e l ih =>
    obtain ⟨x, h⟩ := ih (b.logErr e (f e) ctx)
    exact ⟨x, h⟩

/-- Reading protected words changes the error logs and the list of words in error, and nothing else. -/
theorem Brick.meet_eq (b : Brick) (ws : List (Nat × Nat)) (ctx : Nat) :
    ∃ x l, (b.meet ws ctx).1 = { b with y := { b.y with elog := x }, ecc := l } := by
  by_cases h : b.ecc = []
  · exact ⟨b.y.elog, b.ecc, by rw [b.meet_none ws ctx h]⟩
  · obtain ⟨x, hx⟩ := Brick.logErrs_eq (fun e => errOffset e.array e.word) ctx (b.ecc.filter (fun e => ws.contains (e.array, e.word))) b
    refine ⟨x, ((b.meet ws ctx).1).ecc, ?_⟩
    unfold Brick.meet
    simp only [h, if_false, hx]

/-- A bundle that has issued, while no word is in error and no injection is armed. -/
theorem State.protect_idle {t s : State} (ws : List (Nat × Nat)) (h : s.b.ecc = []) (ha : bit s.b.y.einj.toNat 63 = false)
    (h' : s.partner.ecc = []) (ha' : bit s.partner.y.einj.toNat 63 = false) : t.protect s ws = t := by
  simp [State.protect, h, ha, h', ha']

@[simp] theorem Brick.plant_bid (b : Brick) (a : Nat) (ws : List (Nat × Bool)) : (b.plant a ws).bid = b.bid := by
  obtain ⟨x, l, h⟩ := b.plant_eq a ws; rw [h]

@[simp] theorem Brick.plant_running (b : Brick) (a : Nat) (ws : List (Nat × Bool)) : (b.plant a ws).running = b.running := by
  obtain ⟨x, l, h⟩ := b.plant_eq a ws; rw [h]

@[simp] theorem Brick.plant_t (b : Brick) (a : Nat) (ws : List (Nat × Bool)) : (b.plant a ws).t = b.t := by
  obtain ⟨x, l, h⟩ := b.plant_eq a ws; rw [h]

@[simp] theorem Brick.plant_pc (b : Brick) (a : Nat) (ws : List (Nat × Bool)) : (b.plant a ws).pc = b.pc := by
  obtain ⟨x, l, h⟩ := b.plant_eq a ws; rw [h]

@[simp] theorem Brick.plant_cbi (b : Brick) (a : Nat) (ws : List (Nat × Bool)) : (b.plant a ws).cbi = b.cbi := by
  obtain ⟨x, l, h⟩ := b.plant_eq a ws; rw [h]

@[simp] theorem Brick.plant_codeBase (b : Brick) (a : Nat) (ws : List (Nat × Bool)) : (b.plant a ws).codeBase = b.codeBase := by
  obtain ⟨x, l, h⟩ := b.plant_eq a ws; rw [h]

@[simp] theorem Brick.plant_r (b : Brick) (a : Nat) (ws : List (Nat × Bool)) : (b.plant a ws).r = b.r := by
  obtain ⟨x, l, h⟩ := b.plant_eq a ws; rw [h]

@[simp] theorem Brick.plant_loc (b : Brick) (a : Nat) (ws : List (Nat × Bool)) : (b.plant a ws).loc = b.loc := by
  obtain ⟨x, l, h⟩ := b.plant_eq a ws; rw [h]

@[simp] theorem Brick.plant_cnt (b : Brick) (a : Nat) (ws : List (Nat × Bool)) : (b.plant a ws).cnt = b.cnt := by
  obtain ⟨x, l, h⟩ := b.plant_eq a ws; rw [h]

@[simp] theorem Brick.plant_cyc (b : Brick) (a : Nat) (ws : List (Nat × Bool)) : (b.plant a ws).cyc = b.cyc := by
  obtain ⟨x, l, h⟩ := b.plant_eq a ws; rw [h]

@[simp] theorem Brick.plant_phase (b : Brick) (a : Nat) (ws : List (Nat × Bool)) : (b.plant a ws).phase = b.phase := by
  obtain ⟨x, l, h⟩ := b.plant_eq a ws; rw [h]

@[simp] theorem Brick.plant_reports (b : Brick) (a : Nat) (ws : List (Nat × Bool)) : (b.plant a ws).reports = b.reports := by
  obtain ⟨x, l, h⟩ := b.plant_eq a ws; rw [h]

@[simp] theorem Brick.plant_barWait (b : Brick) (a : Nat) (ws : List (Nat × Bool)) : (b.plant a ws).barWait = b.barWait := by
  obtain ⟨x, l, h⟩ := b.plant_eq a ws; rw [h]

@[simp] theorem Brick.plant_timer (b : Brick) (a : Nat) (ws : List (Nat × Bool)) : (b.plant a ws).timer = b.timer := by
  obtain ⟨x, l, h⟩ := b.plant_eq a ws; rw [h]

@[simp] theorem Brick.plant_spTimer (b : Brick) (a : Nat) (ws : List (Nat × Bool)) : (b.plant a ws).spTimer = b.spTimer := by
  obtain ⟨x, l, h⟩ := b.plant_eq a ws; rw [h]

@[simp] theorem Brick.plant_acqTimer (b : Brick) (a : Nat) (ws : List (Nat × Bool)) : (b.plant a ws).acqTimer = b.acqTimer := by
  obtain ⟨x, l, h⟩ := b.plant_eq a ws; rw [h]

@[simp] theorem Brick.plant_stall (b : Brick) (a : Nat) (ws : List (Nat × Bool)) : (b.plant a ws).stall = b.stall := by
  obtain ⟨x, l, h⟩ := b.plant_eq a ws; rw [h]

@[simp] theorem Brick.plant_own (b : Brick) (a : Nat) (ws : List (Nat × Bool)) : (b.plant a ws).own = b.own := by
  obtain ⟨x, l, h⟩ := b.plant_eq a ws; rw [h]

@[simp] theorem Brick.plant_contAt (b : Brick) (a : Nat) (ws : List (Nat × Bool)) : (b.plant a ws).contAt = b.contAt := by
  obtain ⟨x, l, h⟩ := b.plant_eq a ws; rw [h]

@[simp] theorem Brick.plant_armTimedOut (b : Brick) (a : Nat) (ws : List (Nat × Bool)) : (b.plant a ws).armTimedOut = b.armTimedOut := by
  obtain ⟨x, l, h⟩ := b.plant_eq a ws; rw [h]

@[simp] theorem Brick.plant_dirty (b : Brick) (a : Nat) (ws : List (Nat × Bool)) : (b.plant a ws).dirty = b.dirty := by
  obtain ⟨x, l, h⟩ := b.plant_eq a ws; rw [h]

@[simp] theorem Brick.plant_lpois (b : Brick) (a : Nat) (ws : List (Nat × Bool)) : (b.plant a ws).lpois = b.lpois := by
  obtain ⟨x, l, h⟩ := b.plant_eq a ws; rw [h]

@[simp] theorem Brick.plant_snap (b : Brick) (a : Nat) (ws : List (Nat × Bool)) : (b.plant a ws).snap = b.snap := by
  obtain ⟨x, l, h⟩ := b.plant_eq a ws; rw [h]

@[simp] theorem Brick.plant_ic (b : Brick) (a : Nat) (ws : List (Nat × Bool)) : (b.plant a ws).ic = b.ic := by
  obtain ⟨x, l, h⟩ := b.plant_eq a ws; rw [h]

@[simp] theorem Brick.plant_tlb (b : Brick) (a : Nat) (ws : List (Nat × Bool)) : (b.plant a ws).tlb = b.tlb := by
  obtain ⟨x, l, h⟩ := b.plant_eq a ws; rw [h]

@[simp] theorem Brick.plant_hold (b : Brick) (a : Nat) (ws : List (Nat × Bool)) : (b.plant a ws).hold = b.hold := by
  obtain ⟨x, l, h⟩ := b.plant_eq a ws; rw [h]

@[simp] theorem Brick.plant_dev (b : Brick) (a : Nat) (ws : List (Nat × Bool)) : (b.plant a ws).dev = b.dev := by
  obtain ⟨x, l, h⟩ := b.plant_eq a ws; rw [h]

@[simp] theorem Brick.plant_nextId (b : Brick) (a : Nat) (ws : List (Nat × Bool)) : (b.plant a ws).nextId = b.nextId := by
  obtain ⟨x, l, h⟩ := b.plant_eq a ws; rw [h]

@[simp] theorem Brick.plant_push (b : Brick) (a : Nat) (ws : List (Nat × Bool)) : (b.plant a ws).push = b.push := by
  obtain ⟨x, l, h⟩ := b.plant_eq a ws; rw [h]

@[simp] theorem Brick.plant_score (b : Brick) (a : Nat) (ws : List (Nat × Bool)) : (b.plant a ws).score = b.score := by
  obtain ⟨x, l, h⟩ := b.plant_eq a ws; rw [h]

@[simp] theorem Brick.plant_mxq (b : Brick) (a : Nat) (ws : List (Nat × Bool)) : (b.plant a ws).mxq = b.mxq := by
  obtain ⟨x, l, h⟩ := b.plant_eq a ws; rw [h]

@[simp] theorem Brick.plant_lastt (b : Brick) (a : Nat) (ws : List (Nat × Bool)) : (b.plant a ws).lastt = b.lastt := by
  obtain ⟨x, l, h⟩ := b.plant_eq a ws; rw [h]

@[simp] theorem Brick.plant_lasts (b : Brick) (a : Nat) (ws : List (Nat × Bool)) : (b.plant a ws).lasts = b.lasts := by
  obtain ⟨x, l, h⟩ := b.plant_eq a ws; rw [h]

@[simp] theorem Brick.plant_spq (b : Brick) (a : Nat) (ws : List (Nat × Bool)) : (b.plant a ws).spq = b.spq := by
  obtain ⟨x, l, h⟩ := b.plant_eq a ws; rw [h]

@[simp] theorem Brick.plant_spFreed (b : Brick) (a : Nat) (ws : List (Nat × Bool)) : (b.plant a ws).spFreed = b.spFreed := by
  obtain ⟨x, l, h⟩ := b.plant_eq a ws; rw [h]

@[simp] theorem Brick.plant_cls (b : Brick) (a : Nat) (ws : List (Nat × Bool)) : (b.plant a ws).cls = b.cls := by
  obtain ⟨x, l, h⟩ := b.plant_eq a ws; rw [h]

@[simp] theorem Brick.plant_hiCls (b : Brick) (a : Nat) (ws : List (Nat × Bool)) : (b.plant a ws).hiCls = b.hiCls := by
  obtain ⟨x, l, h⟩ := b.plant_eq a ws; rw [h]

@[simp] theorem Brick.plant_grant (b : Brick) (a : Nat) (ws : List (Nat × Bool)) : (b.plant a ws).grant = b.grant := by
  obtain ⟨x, l, h⟩ := b.plant_eq a ws; rw [h]

@[simp] theorem Brick.plant_stepN (b : Brick) (a : Nat) (ws : List (Nat × Bool)) : (b.plant a ws).stepN = b.stepN := by
  obtain ⟨x, l, h⟩ := b.plant_eq a ws; rw [h]

@[simp] theorem Brick.plant_stepD (b : Brick) (a : Nat) (ws : List (Nat × Bool)) : (b.plant a ws).stepD = b.stepD := by
  obtain ⟨x, l, h⟩ := b.plant_eq a ws; rw [h]

@[simp] theorem Brick.plant_halted (b : Brick) (a : Nat) (ws : List (Nat × Bool)) : (b.plant a ws).halted = b.halted := by
  obtain ⟨x, l, h⟩ := b.plant_eq a ws; rw [h]

@[simp] theorem Brick.plant_preq (b : Brick) (a : Nat) (ws : List (Nat × Bool)) : (b.plant a ws).preq = b.preq := by
  obtain ⟨x, l, h⟩ := b.plant_eq a ws; rw [h]

@[simp] theorem Brick.plant_saving (b : Brick) (a : Nat) (ws : List (Nat × Bool)) : (b.plant a ws).saving = b.saving := by
  obtain ⟨x, l, h⟩ := b.plant_eq a ws; rw [h]

@[simp] theorem Brick.plant_skip (b : Brick) (a : Nat) (ws : List (Nat × Bool)) : (b.plant a ws).skip = b.skip := by
  obtain ⟨x, l, h⟩ := b.plant_eq a ws; rw [h]

@[simp] theorem Brick.plant_localQ (b : Brick) (a : Nat) (ws : List (Nat × Bool)) : (b.plant a ws).localQ = b.localQ := by
  obtain ⟨x, l, h⟩ := b.plant_eq a ws; rw [h]

@[simp] theorem Brick.plant_assigned (b : Brick) (a : Nat) (ws : List (Nat × Bool)) : (b.plant a ws).assigned = b.assigned := by
  obtain ⟨x, l, h⟩ := b.plant_eq a ws; rw [h]

@[simp] theorem Brick.plant_reserved (b : Brick) (a : Nat) (ws : List (Nat × Bool)) : (b.plant a ws).reserved = b.reserved := by
  obtain ⟨x, l, h⟩ := b.plant_eq a ws; rw [h]

@[simp] theorem Brick.plant_lastCtx (b : Brick) (a : Nat) (ws : List (Nat × Bool)) : (b.plant a ws).lastCtx = b.lastCtx := by
  obtain ⟨x, l, h⟩ := b.plant_eq a ws; rw [h]

@[simp] theorem Brick.plant_clk (b : Brick) (a : Nat) (ws : List (Nat × Bool)) : (b.plant a ws).clk = b.clk := by
  obtain ⟨x, l, h⟩ := b.plant_eq a ws; rw [h]

@[simp] theorem Brick.plant_iss (b : Brick) (a : Nat) (ws : List (Nat × Bool)) : (b.plant a ws).iss = b.iss := by
  obtain ⟨x, l, h⟩ := b.plant_eq a ws; rw [h]

end Sys2Proof.Machine
end

