-- ==== Sys2Proof/Laws/Ops.lean ====
section
/-!
SUPPORT. The shared operations: what each answers, said once.
-/

namespace Sys2Proof.Machine

open Sys2Proof

/-! ## Guards and checks -/

theorem State.guarded_on {s : State} {gd : Guard} (f : State → Out) (h : s.guardOn gd = true) : s.guarded gd f = f s := by
  simp [State.guarded, h]

theorem State.guarded_off {s : State} {gd : Guard} (f : State → Out) (h : s.guardOn gd = false) : s.guarded gd f = .next s := by
  simp [State.guarded, h]

/-- A guarded operation answers what its effect answers, or leaves the state. -/
theorem State.guarded_cases (s : State) (gd : Guard) (f : State → Out) : s.guarded gd f = f s ∨ s.guarded gd f = .next s := by
  cases h : s.guardOn gd
  · exact .inr (s.guarded_off f h)
  · exact .inl (s.guarded_on f h)

@[simp] theorem State.valid_ok (s : State) (k : State → Out) : s.valid false k = k s := rfl

@[simp] theorem State.valid_bad (s : State) (k : State → Out) : s.valid true k = .next (s.illegal 2) := rfl

theorem State.refuseDet_ok {s : State} (k : State → Out) (h : s.isDet = false) : s.refuseDet k = k s := by
  simp [State.refuseDet, h]

theorem State.refuseDet_bad {s : State} (k : State → Out) (h : s.isDet = true) : s.refuseDet k = .next (s.illegal 6) := by
  simp [State.refuseDet, h]

theorem State.aligned_ok {s : State} {a : Word} {n : Nat} (k : State → Out) (h : a.toNat % n = 0) : s.aligned a n k = k s := by
  simp [State.aligned, h]

theorem State.aligned_bad {s : State} {a : Word} {n : Nat} (k : State → Out) (h : a.toNat % n ≠ 0) :
    s.aligned a n k = .next (s.misaligned a n) := by
  simp [State.aligned, h]

/-! ## Stalls -/

@[simp] theorem State.unless_false (s stop : State) (k : State → Out) : s.unless false stop k = k s := rfl

theorem State.unless_go {s stop : State} {k : State → Out} (bad : Bool) (h : s.b.iss.go = true) : s.unless bad stop k = k s := by
  simp [State.unless, h]

theorem State.unless_stall {s stop : State} {k : State → Out} (h : s.b.iss.go = false) : s.unless true stop k = .next stop := by
  simp [State.unless, h]

/-- An increment and its operation, while the counter has room (R190). -/
theorem State.counted_ok {s : State} {c : Ctr} (k : State → Out) (h : s.b.cnt.get c + 1 ≤ 65535) :
    s.counted c 1 k = k (s.defer (.cnt c)) := by
  have : ¬ 65535 < s.b.cnt.get c + 1 := by omega
  simp [State.counted, this, List.range_succ]

/-- An operation's own limit passed over, and met (R450). -/
@[simp] theorem State.limit_ok (s : State) (k : State → Out) : s.limit false k = k s := rfl

@[simp] theorem State.limit_bad (s : State) (k : State → Out) : s.limit true k = .next s.beyond := rfl

/-- A full counter stalls (R190). -/
theorem State.counted_full {s : State} {c : Ctr} (k : State → Out) (h : 65535 < s.b.cnt.get c + 1) (hg : s.b.iss.go = false) :
    s.counted c 1 k = .next (s.stallFor .counterFull (ctrCode c) false s.contBefore) := by
  simp [State.counted, h, State.unless, hg]

theorem State.powered_free {s : State} {c : Nat} (k : State → Out) (h : s.b.cls = none) :
    s.powered c k = k (s.onB (fun b => { b with hiCls := some (max c (b.hiCls.getD 0)) })) := by
  simp [State.powered, h]

theorem State.powered_held {s : State} {c m : Nat} (k : State → Out) (h : s.b.cls = some m) (hc : c ≤ m) :
    s.powered c k = k (s.onB (fun b => { b with hiCls := some (max c (b.hiCls.getD 0)) })) := by
  have : ¬ m < c := by omega
  simp [State.powered, h, this]

theorem State.detGate_off {s : State} {va n : Nat} {use : Use} {rd wr : Bool} {path : Nat} (k : State → Out)
    (h : s.isDet = false) : s.detGate va n use rd wr path k = k s := by
  simp [State.detGate, h]

/-- A local range that no hull of the scoreboard and no matrix operation holds (R124, R273). -/
theorem State.rangeFree_ok {s : State} {load : Bool} {sp off n : Nat} (k : State → Out) (h1 : s.b.hullHit sp off n = false)
    (h2 : s.b.mxHolds load sp off n = false) : s.rangeFree load sp off n k = k s := by
  simp [State.rangeFree, h1, h2]

/-- A local read of words that hold no error, no hull and no result range goes on (R124, R142, R273). -/
theorem State.localRead_ok {s : State} {sp off n : Nat} (k : State → Out) (h1 : s.b.hullHit sp off n = false)
    (h2 : s.b.mxHoldsLoad sp off n = false) (h3 : s.b.ecc = []) (h4 : s.b.lpois = []) : s.localRead sp off n k = k s := by
  unfold State.localRead
  rw [State.rangeFree_ok _ h1 (by simpa [Brick.mxHolds] using h2)]
  simp [Brick.checkRead, h3, h4, State.onB]

theorem State.localWrite_ok {s : State} {sp off n : Nat} (k : State → Out) (h1 : s.b.hullHit sp off n = false)
    (h2 : s.b.mxHoldsStore sp off n = false) : s.localWrite sp off n k = k s := by
  unfold State.localWrite
  exact State.rangeFree_ok _ h1 (by simpa [Brick.mxHolds] using h2)

/-! ## Traps (R371 to R376) -/

/-- A trap that the task does not take in a handler ends it (R376). -/
theorem State.takeTrap_end {s : State} {t : TrapRec} (h : s.b.y.inh = true ∨ trapEnabled s.b.y.tvec t.kind = false) :
    s.takeTrap t =
      ((s.onB (fun b => { b with r := { b.r with opd := b.iss.opd0 }, iss := Issue.idle })).dropGrants s.b.t.tid).endFaulted t := by
  unfold State.takeTrap
  have e : ∀ (f : Brick → Brick), ((s.onB f).dropGrants s.b.t.tid).b.y = (f s.b).y := fun _ => rfl
  rcases h with h | h <;> simp [e, h]

/-! ## Registers -/

theorem vget_vset {α : Type} {n : Nat} (d : α) (v : Vector α n) (i j : Nat) (x : α) (h : i < n) :
    vget d (vset v i x) j = if i = j then x else vget d v j := by
  unfold vget vset
  rw [Vector.getElem?_setIfInBounds]
  by_cases hij : i = j
  · subst hij; simp [h]
  · simp [hij]

theorem Opd.get_set (o : Opd) (l m : OpdL) (x : Word) : (o.set l x).get m = if l = m then x else o.get m := by
  cases l <;> cases m <;> rfl

theorem Res.get_set (o : Res) (l m : ResL) (x : Word) : (o.set l x).get m = if l = m then x else o.get m := by
  cases l <;> cases m <;> rfl

theorem physG_lt (rrb : BitVec 4) (n : Nat) (h : n < 64) : physG rrb n < 64 := by
  unfold physG
  split <;> omega

theorem physV_lt (rrb : BitVec 4) (n : Nat) (h : n < 32) : physV rrb n < 32 := by
  unfold physV
  split <;> omega

end Sys2Proof.Machine
end

