-- ==== Sys2Proof/Laws/Families.lean ====
section
/-!
SUPPORT. The operation that each family of slots shares, where its guard is true and its checks pass.
-/

namespace Sys2Proof.Machine

open Sys2Proof

variable {s : State} {gd : Guard}

/-! ## Integer, address and branch units -/

theorem State.ia_on (u : Ia) (x : Src) (L : Nat) (f : Word → Word → Bool → Word × Word) (h : s.guardOn gd = true) :
    s.ia gd u x L f = .next ((s.launchOp L (.res (iaResults u).1 (f (s.src x) (s.opd (iaOperand u)) (s.iaCarry u)).1)).launchOp L
      (.res (iaResults u).2 (f (s.src x) (s.opd (iaOperand u)) (s.iaCarry u)).2)) := by
  unfold State.ia
  rw [State.guarded_on _ h]

theorem State.divide_on (u : Ia) (x : Src) (f : Word → Word → Word × Word) (h : s.guardOn gd = true) :
    s.divide gd u x f = .next (s.onR (fun k => { k with pipe := k.pipe.filter (fun e => !e.isDiv u) ++
      [⟨20, .div u (f (s.src x) (s.opd (iaOperand u))).1 (f (s.src x) (s.opd (iaOperand u))).2⟩] })) := by
  unfold State.divide
  rw [State.guarded_on _ h]
  rfl

theorem State.ag_on (x : Src) (f : Word → Word → Word × Word) (h : s.guardOn gd = true) :
    s.ag gd x f = .next ((s.launchOp 1 (.res .agr (f (s.src x) (s.opd .ago)).1)).launchOp 1
      (.res .agn (f (s.src x) (s.opd .ago)).2)) := by
  unfold State.ag
  rw [State.guarded_on _ h]

theorem State.compare_on (x : Src) (p : Word → Word → Bool) (h : s.guardOn gd = true) :
    s.compare gd x p = .next (s.setBr (fun b => { b with bc := p (s.src x) (s.opd .bro) })) := by
  unfold State.compare
  rw [State.guarded_on _ h]

theorem State.transfer_on (f : State → Out) (h : s.guardOn gd = true) (h1 : s.b.r.br.xfer = none) (h2 : s.b.r.lp = none) :
    s.transfer gd f = f s := by
  unfold State.transfer
  rw [State.guarded_on _ h]
  simp [State.transferBar, h1, h2]

end Sys2Proof.Machine
end

