-- ==== Sys2Proof/Laws/Slices.lean ====
section
/-!
SUPPORT. What the slices change as they serve an access whose lines no departed key left behind: access counters, hints, held
lines and block descriptors, and nothing else.
-/

namespace Sys2Proof.Machine

open Sys2Proof

/-- A state that differs from another in access counters, hints, held lines and block descriptors alone. -/
def State.Served (s t : State) : Prop :=
  ∃ (a : List (Nat × BitVec 32)) (c : List SliceLine) (k : List (Nat × BitVec 16)) (q r : List (BitVec 128)) (o p : Nat),
    t = { s with acnt := a, cache := c, blk := k, dome0 := { s.dome0 with hintQ := q, hintOv := o },
                 dome1 := { s.dome1 with hintQ := r, hintOv := p } }

theorem State.Served.refl (s : State) : s.Served s := ⟨s.acnt, s.cache, s.blk, s.dome0.hintQ, s.dome1.hintQ, s.dome0.hintOv, s.dome1.hintOv, rfl⟩

theorem State.Served.trans {s t u : State} (h : s.Served t) (g : t.Served u) : s.Served u := by
  obtain ⟨a, c, k, q, r, o, p, rfl⟩ := h
  obtain ⟨a, c, k, q, r, o, p, rfl⟩ := g
  exact ⟨a, c, k, q, r, o, p, rfl⟩

theorem State.Served.foldl {α : Type} (f : State → α → State) (P : State → Prop) (hP : ∀ s t, P s → s.Served t → P t)
    (hf : ∀ s x, P s → s.Served (f s x)) (l : List α) : ∀ s : State, P s → s.Served (l.foldl f s) := by
  induction l with
  | nil => exact fun s _ => .refl s
  | cons x l ih => exact fun s h => (hf s x h).trans (ih _ (hP s _ h (hf s x h)))

theorem State.Served.img {s t : State} (h : s.Served t) : t.img = s.img := by
  obtain ⟨a, c, k, q, r, o, p, rfl⟩ := h
  rfl

theorem State.Served.upset {s t : State} (h : s.Served t) : t.upset = s.upset := by
  obtain ⟨a, c, k, q, r, o, p, rfl⟩ := h
  rfl

theorem State.Served.mem {s t : State} (h : s.Served t) : t.mem = s.mem := by
  obtain ⟨a, c, k, q, r, o, p, rfl⟩ := h
  rfl

theorem State.Served.b {s t : State} (h : s.Served t) : t.b = s.b := by
  obtain ⟨a, c, k, q, r, o, p, rfl⟩ := h
  rfl

theorem State.postHint_served (s : State) (tower frame ctx own other reason : Nat) :
    s.Served (s.postHint tower frame ctx own other reason) := by
  unfold State.postHint State.setDome State.dome
  by_cases h : tower = 0
  · simp only [h, if_true]
    split <;> exact ⟨s.acnt, s.cache, s.blk, _, s.dome1.hintQ, _, s.dome1.hintOv, rfl⟩
  · simp only [h, if_false]
    split <;> exact ⟨s.acnt, s.cache, s.blk, s.dome0.hintQ, _, s.dome0.hintOv, _, rfl⟩

theorem State.countLine_served (s : State) (tower ctx line : Nat) : s.Served (s.countLine tower ctx line) := by
  have count : ∀ (s : State) a, s.Served { s with acnt := a } := fun s a =>
    ⟨a, s.cache, s.blk, s.dome0.hintQ, s.dome1.hintQ, s.dome0.hintOv, s.dome1.hintOv, rfl⟩
  unfold State.countLine
  extract_lets frame home c own other put th
  by_cases h : tower ≠ home ∧ th ≤ other
  · rw [if_pos h]
    exact (s.postHint_served _ _ _ _ _ _).trans (count _ _)
  · rw [if_neg h]
    have hp : s.Served (put s (own + other * 65536)) := count s _
    split
    · exact hp.trans (State.postHint_served _ _ _ _ _ _ _)
    · exact hp

theorem State.counts_served (s : State) (l : Look) (tower ctx va pa n : Nat) : s.Served (s.counts l tower ctx va pa n) := by
  unfold State.counts
  split
  · split
    · exact State.Served.foldl _ (fun _ => True) (fun _ _ _ _ => trivial) (fun s l _ => s.countLine_served tower ctx l) _ s trivial
    · exact .refl s
  · exact .refl s

/-- Block descriptors and held lines changed. -/
theorem State.Served.lines (s : State) (k : List (Nat × BitVec 16)) (c : List SliceLine) : s.Served { s with blk := k, cache := c } :=
  ⟨s.acnt, c, k, s.dome0.hintQ, s.dome1.hintQ, s.dome0.hintOv, s.dome1.hintOv, rfl⟩

theorem State.img_none {s : State} (h : s.img = []) : { s with img := [] } = s := by rw [← h]

theorem State.makeRaw_served (s : State) (ctx frame : Nat) (h : s.img = []) : s.Served (s.makeRaw ctx frame) := by
  unfold State.makeRaw
  simp only [h, if_true]
  have g := fun k => State.Served.lines { s with img := [] } k s.cache
  simp only [State.img_none h] at g
  exact g _

theorem State.writeBlock_served (s : State) (key pa : Nat) (cmp : Bool) (h : s.img = []) : s.Served (s.writeBlock key pa cmp) := by
  unfold State.writeBlock
  simp only [h, if_true]
  have g := fun k => State.Served.lines { s with img := [] } k s.cache
  simp only [State.img_none h] at g
  exact g _

theorem State.writeBack_served (s : State) (c : SliceLine) (h : s.img = []) : s.Served (s.writeBack c) := by
  unfold State.writeBack
  split
  · exact .refl s
  · split
    · exact (s.writeBlock_served _ _ _ h).trans (State.Served.lines _ _ _)
    · split
      · exact s.makeRaw_served _ _ h
      · exact .refl s

theorem State.evict_served (s : State) (line : Nat) (h : s.img = []) : s.Served (s.evict line) := by
  unfold State.evict
  split
  · exact (s.writeBack_served _ h).trans (State.Served.lines _ _ _)
  · exact .refl s

theorem State.allocate_served (s : State) (line : Nat) (cmp : Bool) (h : s.img = []) : s.Served (s.allocate line cmp) := by
  have room : s.Served (s.makeRoom line) := by
    unfold State.makeRoom
    split
    · exact .refl s
    · dsimp only
      split
      · exact .refl s
      · split
        · exact s.evict_served _ h
        · exact .refl s
  unfold State.allocate
  split
  · exact .refl s
  · exact room.trans (State.Served.lines _ _ _)

theorem State.touch_served (s : State) (pa n : Nat) (write cmp : Bool) (h : s.img = []) : s.Served (s.touch pa n write cmp) := by
  unfold State.touch
  split
  · exact .refl s
  · refine State.Served.foldl _ (fun s => s.img = []) (fun s t h g => g.img.trans h) (fun s l h => ?_) _ s h
    dsimp only
    split
    · exact (s.allocate_served l cmp h).trans (State.Served.lines _ _ _)
    · exact s.allocate_served l cmp h

/-- Without a disturbance to come the slice's array changes nothing. -/
theorem State.sliceErrors_none (s : State) (ctx pa : Nat) (h : s.upset = none) : s.sliceErrors ctx pa = s := by
  simp [State.sliceErrors, State.arrayError, h]

/-- Nor do the base dies. -/
theorem State.fillChecks_none (s : State) (ctx pa n : Nat) (h : s.upset = none) : s.fillChecks ctx pa n = s := by
  simp [State.fillChecks, h]

/-- An access served by its slices changes counters, hints, held lines and descriptors alone. -/
theorem State.sliced_served (s : State) (l : Look) (tower ctx va pa n : Nat) (write : Bool) (h : s.img = []) (hu : s.upset = none) :
    s.Served (s.sliced l tower ctx va pa n write) := by
  have c := s.counts_served l tower ctx va pa n
  unfold State.sliced
  rw [State.sliceErrors_none _ _ _ (c.upset.trans hu), State.fillChecks_none _ _ _ _ (c.upset.trans hu)]
  have e : (s.counts l tower ctx va pa n).openLines ctx pa n write = s.counts l tower ctx va pa n := by
    simp [State.openLines, c.img.trans h]
  rw [e]
  exact c.trans (State.touch_served _ _ _ _ _ (c.img.trans h))

end Sys2Proof.Machine
end

