-- ==== Sys2Proof/Laws/Memory.lean ====
section
/-!
SUPPORT. Device memory: what each operation that writes it leaves, and the canonical form they keep.
-/

namespace Sys2Proof.Machine

open Sys2Proof

/-- Reading back what was written. -/
theorem State.readPhys_writePhys (s : State) (pa : Nat) (bs : List Byte) : (s.writePhys pa bs).readPhys pa bs.length = bs :=
  readBytes_writeBytes s.mem pa bs

/-- A write leaves every byte outside it. -/
theorem State.writePhys_elsewhere (s : State) (pa : Nat) (bs : List Byte) (j : Nat) (h : j < pa ∨ pa + bs.length ≤ j) :
    cget 0 (s.writePhys pa bs).mem j = cget 0 s.mem j :=
  cget_writeBytes_out s.mem pa bs j h

/-- A read depends on memory alone. -/
theorem State.readPhys_congr {s t : State} (h : s.mem = t.mem) (pa n : Nat) : s.readPhys pa n = t.readPhys pa n := by
  unfold State.readPhys
  rw [h]

theorem State.writePhys_memOk (s : State) (pa : Nat) (bs : List Byte) (h : s.memOk = true) : (s.writePhys pa bs).memOk = true :=
  Memory.wf_writeBytes s.mem pa bs h

theorem State.writeMasked_memOk (s : State) (pa n data : Nat) (mask : BitVec 256) (h : s.memOk = true) :
    (s.writeMasked pa n data mask).memOk = true :=
  Memory.wf_writeBytes s.mem pa _ h

theorem State.poison_mem (s : State) (line : Nat) : (s.poison line).mem = s.mem := by
  unfold State.poison
  split <;> rfl

@[simp] theorem State.postCw_mem (s : State) (tower : Nat) (r : BitVec 128) : (s.postCw tower r).mem = s.mem := by
  unfold State.postCw
  dsimp only
  split <;> exact State.setDome_mem s tower _

@[simp] theorem State.arrayError_mem (s : State) (array inst addr ctx : Nat) : (s.arrayError array inst addr ctx).2.mem = s.mem := by
  unfold State.arrayError
  split
  · split <;> rfl
  · rfl

/-- A comparison that fails changes no byte. -/
theorem State.mismatch_mem {s t : State} {points : List Nat} {ctx line tower p : Nat} {bs : List Byte}
    (h : s.mismatch points ctx line tower bs = some (p, t)) : t.mem = s.mem := by
  unfold State.mismatch at h
  split at h
  · dsimp only at h
    split at h
    · split at h
      · simp at h
      · simp only [Option.some.injEq] at h
        obtain ⟨rfl, rfl⟩ := h
        split
        · exact State.postCw_mem _ _ _
        · exact State.postCw_mem _ _ _
    · simp at h
  · simp at h

@[simp] theorem State.hurt_mem (s : State) (p line : Nat) : (s.hurt p line).mem = s.mem := by
  unfold State.hurt
  split
  · exact s.poison_mem line
  · rfl

/-- What a base die gives leaves memory, or rewrites bytes of it. -/
theorem State.opened_mem (s : State) (ctx line at_ word : Nat) (r : Nat × Option (List Byte)) :
    (s.opened ctx line at_ word r).mem = s.mem ∨ ∃ bs, (s.opened ctx line at_ word r).mem = writeBytes s.mem at_ bs := by
  rcases r with ⟨p, _ | bs⟩
  · refine .inl ?_
    unfold State.opened
    by_cases h0 : p = 0 <;> simp [h0, State.poison_mem]
  · refine .inr ⟨bs, ?_⟩
    unfold State.opened
    by_cases h0 : p = 0 <;> simp [h0, State.poison_mem]

theorem State.opened_memOk (s : State) (ctx line at_ word : Nat) (r : Nat × Option (List Byte)) (h : s.memOk = true) :
    (s.opened ctx line at_ word r).memOk = true := by
  unfold State.memOk
  rcases s.opened_mem ctx line at_ word r with e | ⟨bs, e⟩ <;> rw [e]
  · exact h
  · exact Memory.wf_writeBytes s.mem at_ bs h

/-- A fold keeps the canonical form when each of its steps does. -/
theorem State.foldl_memOk {α : Type} (f : State → α → State) (hf : ∀ s x, s.memOk = true → (f s x).memOk = true) (l : List α) :
    ∀ s : State, s.memOk = true → (l.foldl f s).memOk = true := by
  induction l with
  | nil => exact fun s h => h
  | cons x l ih => exact fun s h => ih (f s x) (hf s x h)

theorem State.openLine_memOk (s : State) (ctx line : Nat) (m : BitVec 2) (h : s.memOk = true) : (s.openLine ctx line m).memOk = true := by
  unfold State.openLine
  split
  · split
    · exact h
    · split
      · exact State.foldl_memOk _ (fun s _ => s.opened_memOk _ _ _ _ _) _ _ h
      · exact s.opened_memOk _ _ _ _ _ h
  · exact h

theorem State.makeRaw_mem (s : State) (ctx frame : Nat) :
    (s.makeRaw ctx frame).mem = (if s.img = [] then s else (frameLines frame).foldl (fun s l => s.openLine ctx l 3) s).mem := rfl

theorem State.makeRaw_memOk (s : State) (ctx frame : Nat) (h : s.memOk = true) : (s.makeRaw ctx frame).memOk = true := by
  unfold State.memOk
  rw [State.makeRaw_mem]
  split
  · exact h
  · exact State.foldl_memOk _ (fun s l => State.openLine_memOk s ctx l 3) _ _ h

/-- Getting an access's lines from their stack keeps the canonical form. -/
theorem State.openLines_memOk (s : State) (ctx pa n : Nat) (write : Bool) (h : s.memOk = true) :
    (s.openLines ctx pa n write).memOk = true := by
  unfold State.openLines
  split
  · exact h
  · refine State.foldl_memOk _ (fun s l h => ?_) _ _ h
    by_cases c : (write && (s.sealedLine l).isSome && bit (s.descOf l) 6) = true
    · rw [if_pos c]; exact State.makeRaw_memOk s _ _ h
    · rw [if_neg c]; exact State.openLine_memOk s _ _ _ h

/-- While no departed key left lines behind, the stack has nothing to open. -/
theorem State.openLines_none {s : State} (ctx pa n : Nat) (write : Bool) (h : s.img = []) : s.openLines ctx pa n write = s := by
  simp [State.openLines, h]

/-- A fold leaves memory when each of its steps does. -/
theorem State.foldl_mem {α : Type} (f : State → α → State) (hf : ∀ s x, (f s x).mem = s.mem) (l : List α) :
    ∀ s : State, (l.foldl f s).mem = s.mem := by
  induction l with
  | nil => exact fun _ => rfl
  | cons x l ih => exact fun s => (ih (f s x)).trans (hf s x)

@[simp] theorem State.sliceErrors_mem (s : State) (ctx pa : Nat) : (s.sliceErrors ctx pa).mem = s.mem := by
  unfold State.sliceErrors
  dsimp only
  have e := s.arrayError_mem 0x20 (sliceOf (pa / 64 * 64)) (pa / 64 * 64) ctx
  split <;> split <;> simp_all [State.poison_mem]

@[simp] theorem State.fillCheck_mem (s : State) (ctx line : Nat) : (s.fillCheck ctx line).mem = s.mem := by
  unfold State.fillCheck
  split
  · rfl
  · split
    · rename_i h
      exact (State.hurt_mem _ _ _).trans (State.mismatch_mem h)
    · rfl

@[simp] theorem State.fillChecks_mem (s : State) (ctx pa n : Nat) : (s.fillChecks ctx pa n).mem = s.mem := by
  unfold State.fillChecks
  split
  · rfl
  · exact State.foldl_mem _ (fun s l => s.fillCheck_mem ctx l) _ _

theorem State.evict_memOk (s : State) (line : Nat) (h : s.memOk = true) : (s.evict line).memOk = true := by
  have wb : ∀ c, (s.writeBack c).memOk = true := by
    intro c
    unfold State.writeBack
    split
    · exact h
    · split
      · exact h
      · split
        · exact s.makeRaw_memOk _ _ h
        · exact h
  unfold State.evict
  split
  · exact wb _
  · exact h

theorem State.allocate_memOk (s : State) (line : Nat) (cmp : Bool) (h : s.memOk = true) : (s.allocate line cmp).memOk = true := by
  have room : (s.makeRoom line).memOk = true := by
    unfold State.makeRoom
    split
    · exact h
    · dsimp only
      split
      · exact h
      · split
        · exact s.evict_memOk _ h
        · exact h
  unfold State.allocate
  split
  · exact h
  · exact room

theorem State.touch_memOk (s : State) (pa n : Nat) (write cmp : Bool) (h : s.memOk = true) : (s.touch pa n write cmp).memOk = true := by
  unfold State.touch
  split
  · exact h
  · refine State.foldl_memOk _ (fun s l h => ?_) _ _ h
    dsimp only
    split <;> exact s.allocate_memOk l cmp h

/-- An access served by its slices keeps the canonical form. -/
theorem State.sliced_memOk (s : State) (l : Look) (tower ctx va pa n : Nat) (write : Bool) (h : s.memOk = true) :
    (s.sliced l tower ctx va pa n write).memOk = true := by
  unfold State.sliced
  refine State.touch_memOk _ _ _ _ _ (State.openLines_memOk _ _ _ _ _ ?_)
  unfold State.memOk
  rw [State.fillChecks_mem, State.sliceErrors_mem, (s.counts_served l tower ctx va pa n).mem]
  exact h

theorem State.writeChecked_memOk (s : State) (points : List Nat) (ctx tower pa : Nat) (bs : List Byte) (h : s.memOk = true) :
    (s.writeChecked points ctx tower pa bs).1.memOk = true := by
  unfold State.writeChecked
  dsimp only
  split
  · rename_i hm
    unfold State.memOk
    rw [State.poison_mem]
    split
    · rw [State.mismatch_mem hm]; exact h
    · refine State.writePhys_memOk _ _ _ ?_
      unfold State.memOk
      rw [State.mismatch_mem hm]; exact h
  · exact s.writePhys_memOk pa bs h

theorem State.domeWrite_memOk (s : State) (tower ctx va pa : Nat) (bs : List Byte) (h : s.memOk = true) :
    (s.domeWrite tower ctx va pa bs).memOk = true :=
  State.writeChecked_memOk _ _ _ _ _ _ (s.sliced_memOk _ _ _ _ _ _ _ h)

theorem State.writeVa_memOk (s : State) (tower ctx va : Nat) (bs : List Byte) (h : s.memOk = true) :
    (s.writeVa tower ctx va bs).memOk = true := by
  unfold State.writeVa
  split
  · exact s.domeWrite_memOk _ _ _ _ bs h
  · exact h

theorem State.writeRec_memOk (s : State) (tower ctx va pa r : Nat) (h : s.memOk = true) : (s.writeRec tower ctx va pa r).memOk = true :=
  s.domeWrite_memOk _ _ _ _ _ h

theorem State.leaveAt_memOk (s : State) (tower ctx block i : Nat) (h : s.memOk = true) : (s.leaveAt tower ctx block i).memOk = true := by
  unfold State.leaveAt
  split
  · exact s.writeVa_memOk _ _ _ _ h
  · exact h

/-- Reset memory is canonical. -/
theorem State.reset_memOk : State.reset.memOk = true := rfl

end Sys2Proof.Machine
end

