-- ==== Sys2Proof/Laws/PerInstr.lean ====
section
/-!
SUPPORT. Decoding and encoding agree, instruction by instruction.
-/

namespace Sys2Proof.Laws

open Sys2Proof

set_option Elab.async false

/-! ## Fields -/

theorem decodeGuard_encodeGuard (gd : Guard) : decodeGuard (encodeGuard gd) = some gd := by
  cases gd with
  | always => rfl
  | on k => revert k; decide
  | off k => revert k; decide

theorem encodeGuard_lt (gd : Guard) : encodeGuard gd < 15 ∧ encodeGuard gd ≠ 7 := by
  cases gd with
  | always => decide
  | on k => have := k.isLt; simp only [encodeGuard]; omega
  | off k => have := k.isLt; simp only [encodeGuard]; omega

theorem encodeSrc_lt (x : Src) : encodeSrc x < 1024 := by
  cases x with
  | g n => have := n.isLt; simp only [encodeSrc]; omega
  | ix n => have := n.isLt; simp only [encodeSrc]; omega
  | k n => have := n.isLt; simp only [encodeSrc]; omega
  | cnt c => cases c <;> decide
  | res l => cases l <;> decide
  | imm v => have := v.isLt; simp only [encodeSrc]; omega
  | _ => decide

theorem decodeSrc_encodeSrc (x : Src) : decodeSrc (encodeSrc x) = some x := by
  cases x with
  | g n => revert n; decide
  | ix n => revert n; decide
  | k n => revert n; decide
  | cnt c => cases c <;> rfl
  | res l => cases l <;> rfl
  | imm v =>
    have h := v.isLt
    have e : BitVec.ofNat 9 (0x200 + v.toNat) = v := by
      apply BitVec.eq_of_toNat_eq
      simp only [BitVec.toNat_ofNat]
      omega
    have f1 : ¬ 0x200 + v.toNat < 64 := by omega
    have f2 : ¬ (0x044 ≤ 0x200 + v.toNat ∧ 0x200 + v.toNat < 0x04A) := by omega
    have f3 : ¬ (0x050 ≤ 0x200 + v.toNat ∧ 0x200 + v.toNat < 0x057) := by omega
    have f4 : ¬ (0x058 ≤ 0x200 + v.toNat ∧ 0x200 + v.toNat < 0x05C) := by omega
    have f5 : ¬ (0x060 ≤ 0x200 + v.toNat ∧ 0x200 + v.toNat < 0x06F) := by omega
    have f6 : 0x200 ≤ 0x200 + v.toNat ∧ 0x200 + v.toNat < 0x400 := by omega
    have g : ∀ k, k < 0x200 → ¬ 0x200 + v.toNat = k := by omega
    show decodeSrc (0x200 + v.toNat) = _
    unfold decodeSrc
    rw [dif_neg f1, if_neg (g _ (by decide)), if_neg (g _ (by decide)), if_neg (g _ (by decide)), if_neg (g _ (by decide)),
      dif_neg f2, if_neg (g _ (by decide)), if_neg (g _ (by decide)), dif_neg f3, if_neg (g _ (by decide)), if_neg f4,
      if_neg f5, if_pos f6, e]
  | _ => rfl

theorem encodeDst_lt (d : Dst) : encodeDst d < 1024 ∧ isTrigger (encodeDst d) = false := by
  cases d with
  | g n => revert n; decide
  | opd l => cases l <;> decide
  | k n => revert n; decide
  | kw => decide

theorem decodeDst_encodeDst (d : Dst) : decodeDst (encodeDst d) = some d := by
  cases d with
  | g n => revert n; decide
  | opd l => cases l <;> rfl
  | k n => revert n; decide
  | kw => rfl

theorem slotWord_toNat (gd : Guard) (c : Nat) (x : Src) (hc : c < 1024) :
    (slotWord gd c x).toNat = encodeGuard gd * 2 ^ 20 + c * 2 ^ 10 + encodeSrc x := by
  have h1 := (encodeGuard_lt gd).1
  have h2 := encodeSrc_lt x
  unfold slotWord
  rw [BitVec.toNat_ofNat, Nat.mod_eq_of_lt (by omega)]

theorem slotFields (gd : Guard) (c : Nat) (x : Src) (hc : c < 1024) :
    slotGuard (slotWord gd c x) = encodeGuard gd ∧ slotDst (slotWord gd c x) = c ∧ slotSrc (slotWord gd c x) = encodeSrc x := by
  have h1 := (encodeGuard_lt gd).1
  have h2 := encodeSrc_lt x
  unfold slotGuard slotDst slotSrc
  rw [slotWord_toNat gd c x hc]
  refine ⟨?_, ?_, ?_⟩ <;> omega

/-- A trigger slot decodes to its row's operation. -/
theorem decodeSlot_trigger (gd : Guard) (c : Nat) (x : Src) (f : Guard → Src → Instr) (hc : c < 1024)
    (ht : isTrigger c = true) (hf : decodeTrigger c = some f) : decodeSlot (slotWord gd c x) = .ok (f gd x) := by
  obtain ⟨hg, hd, hs⟩ := slotFields gd c x hc
  have h1 := encodeGuard_lt gd
  unfold decodeSlot
  rw [hg, if_neg h1.2, if_neg (by omega), decodeGuard_encodeGuard, hs, hd]
  simp only [decodeSrc_encodeSrc, ht, hf, if_true]

/-- A move slot decodes to its move. -/
theorem decodeSlot_move (gd : Guard) (x : Src) (d : Dst) : decodeSlot (slotWord gd (encodeDst d) x) = .ok (.move gd x d) := by
  obtain ⟨hc, ht⟩ := encodeDst_lt d
  obtain ⟨hg, hd, hs⟩ := slotFields gd (encodeDst d) x hc
  have h1 := encodeGuard_lt gd
  unfold decodeSlot
  rw [hg, if_neg h1.2, if_neg (by omega), decodeGuard_encodeGuard, hs, hd]
  simp only [decodeSrc_encodeSrc, ht, decodeDst_encodeDst, Bool.false_eq_true, if_false]

theorem literal_fields (k : Nat) (p : BitVec 20) (hk : k < 16) :
    slotGuard (BitVec.ofNat 24 (k * 2 ^ 20 + p.toNat)) = k ∧
    BitVec.ofNat 20 (BitVec.ofNat 24 (k * 2 ^ 20 + p.toNat)).toNat = p := by
  have hp := p.isLt
  have e : (BitVec.ofNat 24 (k * 2 ^ 20 + p.toNat)).toNat = k * 2 ^ 20 + p.toNat := by
    rw [BitVec.toNat_ofNat, Nat.mod_eq_of_lt (by omega)]
  refine ⟨?_, ?_⟩
  · unfold slotGuard; rw [e]; omega
  · rw [e]
    apply BitVec.eq_of_toNat_eq
    rw [BitVec.toNat_ofNat]
    omega

/-! ## Every instruction -/

/-- An instruction that has a slot is what its slot decodes to. -/
def RoundTrip.Statement (i : Instr) : Prop := ∀ w, encode i = some w → decodeSlot w = .ok i

theorem RoundTrip.move (gd : Guard) (x : Src) (d : Dst) : RoundTrip.Statement (.move gd x d) := by
  intro w h
  cases h
  exact decodeSlot_move gd x d

theorem RoundTrip.literalSignExtending (p : BitVec 20) : RoundTrip.Statement (.literalSignExtending p) := by
  intro w h
  cases h
  obtain ⟨h1, h2⟩ := literal_fields 7 p (by omega)
  unfold decodeSlot
  rw [h1, h2]
  rfl

theorem RoundTrip.literalZeroExtending (p : BitVec 20) : RoundTrip.Statement (.literalZeroExtending p) := by
  intro w h
  cases h
  obtain ⟨h1, h2⟩ := literal_fields 15 p (by omega)
  unfold decodeSlot
  rw [h1, h2]
  rfl

theorem RoundTrip.emptySlot : RoundTrip.Statement .emptySlot := by
  intro w h
  cases h
  rfl

theorem RoundTrip.iaAdd (gd : Guard) (u : Ia) (x : Src) : RoundTrip.Statement (.iaAdd gd u x) := by
  intro w h
  cases h
  cases u
  · exact decodeSlot_trigger gd _ x (fun gd x => .iaAdd gd .ia0 x) (by decide) (by decide) rfl
  · exact decodeSlot_trigger gd _ x (fun gd x => .iaAdd gd .ia1 x) (by decide) (by decide) rfl

theorem RoundTrip.iaSub (gd : Guard) (u : Ia) (x : Src) : RoundTrip.Statement (.iaSub gd u x) := by
  intro w h
  cases h
  cases u
  · exact decodeSlot_trigger gd _ x (fun gd x => .iaSub gd .ia0 x) (by decide) (by decide) rfl
  · exact decodeSlot_trigger gd _ x (fun gd x => .iaSub gd .ia1 x) (by decide) (by decide) rfl

theorem RoundTrip.iaAdc (gd : Guard) (u : Ia) (x : Src) : RoundTrip.Statement (.iaAdc gd u x) := by
  intro w h
  cases h
  cases u
  · exact decodeSlot_trigger gd _ x (fun gd x => .iaAdc gd .ia0 x) (by decide) (by decide) rfl
  · exact decodeSlot_trigger gd _ x (fun gd x => .iaAdc gd .ia1 x) (by decide) (by decide) rfl

theorem RoundTrip.iaSbc (gd : Guard) (u : Ia) (x : Src) : RoundTrip.Statement (.iaSbc gd u x) := by
  intro w h
  cases h
  cases u
  · exact decodeSlot_trigger gd _ x (fun gd x => .iaSbc gd .ia0 x) (by decide) (by decide) rfl
  · exact decodeSlot_trigger gd _ x (fun gd x => .iaSbc gd .ia1 x) (by decide) (by decide) rfl

theorem RoundTrip.iaAdds (gd : Guard) (u : Ia) (x : Src) : RoundTrip.Statement (.iaAdds gd u x) := by
  intro w h
  cases h
  cases u
  · exact decodeSlot_trigger gd _ x (fun gd x => .iaAdds gd .ia0 x) (by decide) (by decide) rfl
  · exact decodeSlot_trigger gd _ x (fun gd x => .iaAdds gd .ia1 x) (by decide) (by decide) rfl

theorem RoundTrip.iaSubs (gd : Guard) (u : Ia) (x : Src) : RoundTrip.Statement (.iaSubs gd u x) := by
  intro w h
  cases h
  cases u
  · exact decodeSlot_trigger gd _ x (fun gd x => .iaSubs gd .ia0 x) (by decide) (by decide) rfl
  · exact decodeSlot_trigger gd _ x (fun gd x => .iaSubs gd .ia1 x) (by decide) (by decide) rfl

theorem RoundTrip.iaMin (gd : Guard) (u : Ia) (x : Src) : RoundTrip.Statement (.iaMin gd u x) := by
  intro w h
  cases h
  cases u
  · exact decodeSlot_trigger gd _ x (fun gd x => .iaMin gd .ia0 x) (by decide) (by decide) rfl
  · exact decodeSlot_trigger gd _ x (fun gd x => .iaMin gd .ia1 x) (by decide) (by decide) rfl

theorem RoundTrip.iaMax (gd : Guard) (u : Ia) (x : Src) : RoundTrip.Statement (.iaMax gd u x) := by
  intro w h
  cases h
  cases u
  · exact decodeSlot_trigger gd _ x (fun gd x => .iaMax gd .ia0 x) (by decide) (by decide) rfl
  · exact decodeSlot_trigger gd _ x (fun gd x => .iaMax gd .ia1 x) (by decide) (by decide) rfl

theorem RoundTrip.iaMinu (gd : Guard) (u : Ia) (x : Src) : RoundTrip.Statement (.iaMinu gd u x) := by
  intro w h
  cases h
  cases u
  · exact decodeSlot_trigger gd _ x (fun gd x => .iaMinu gd .ia0 x) (by decide) (by decide) rfl
  · exact decodeSlot_trigger gd _ x (fun gd x => .iaMinu gd .ia1 x) (by decide) (by decide) rfl

theorem RoundTrip.iaMaxu (gd : Guard) (u : Ia) (x : Src) : RoundTrip.Statement (.iaMaxu gd u x) := by
  intro w h
  cases h
  cases u
  · exact decodeSlot_trigger gd _ x (fun gd x => .iaMaxu gd .ia0 x) (by decide) (by decide) rfl
  · exact decodeSlot_trigger gd _ x (fun gd x => .iaMaxu gd .ia1 x) (by decide) (by decide) rfl

theorem RoundTrip.iaAbs (gd : Guard) (u : Ia) (x : Src) : RoundTrip.Statement (.iaAbs gd u x) := by
  intro w h
  cases h
  cases u
  · exact decodeSlot_trigger gd _ x (fun gd x => .iaAbs gd .ia0 x) (by decide) (by decide) rfl
  · exact decodeSlot_trigger gd _ x (fun gd x => .iaAbs gd .ia1 x) (by decide) (by decide) rfl

theorem RoundTrip.iaMul (gd : Guard) (u : Ia) (x : Src) : RoundTrip.Statement (.iaMul gd u x) := by
  intro w h
  cases h
  cases u
  · exact decodeSlot_trigger gd _ x (fun gd x => .iaMul gd .ia0 x) (by decide) (by decide) rfl
  · exact decodeSlot_trigger gd _ x (fun gd x => .iaMul gd .ia1 x) (by decide) (by decide) rfl

theorem RoundTrip.iaMulu (gd : Guard) (u : Ia) (x : Src) : RoundTrip.Statement (.iaMulu gd u x) := by
  intro w h
  cases h
  cases u
  · exact decodeSlot_trigger gd _ x (fun gd x => .iaMulu gd .ia0 x) (by decide) (by decide) rfl
  · exact decodeSlot_trigger gd _ x (fun gd x => .iaMulu gd .ia1 x) (by decide) (by decide) rfl

theorem RoundTrip.iaMulsu (gd : Guard) (u : Ia) (x : Src) : RoundTrip.Statement (.iaMulsu gd u x) := by
  intro w h
  cases h
  cases u
  · exact decodeSlot_trigger gd _ x (fun gd x => .iaMulsu gd .ia0 x) (by decide) (by decide) rfl
  · exact decodeSlot_trigger gd _ x (fun gd x => .iaMulsu gd .ia1 x) (by decide) (by decide) rfl

theorem RoundTrip.iaDiv (gd : Guard) (u : Ia) (x : Src) : RoundTrip.Statement (.iaDiv gd u x) := by
  intro w h
  cases h
  cases u
  · exact decodeSlot_trigger gd _ x (fun gd x => .iaDiv gd .ia0 x) (by decide) (by decide) rfl
  · exact decodeSlot_trigger gd _ x (fun gd x => .iaDiv gd .ia1 x) (by decide) (by decide) rfl

theorem RoundTrip.iaDivu (gd : Guard) (u : Ia) (x : Src) : RoundTrip.Statement (.iaDivu gd u x) := by
  intro w h
  cases h
  cases u
  · exact decodeSlot_trigger gd _ x (fun gd x => .iaDivu gd .ia0 x) (by decide) (by decide) rfl
  · exact decodeSlot_trigger gd _ x (fun gd x => .iaDivu gd .ia1 x) (by decide) (by decide) rfl

theorem RoundTrip.iaAnd (gd : Guard) (u : Ia) (x : Src) : RoundTrip.Statement (.iaAnd gd u x) := by
  intro w h
  cases h
  cases u
  · exact decodeSlot_trigger gd _ x (fun gd x => .iaAnd gd .ia0 x) (by decide) (by decide) rfl
  · exact decodeSlot_trigger gd _ x (fun gd x => .iaAnd gd .ia1 x) (by decide) (by decide) rfl

theorem RoundTrip.iaOr (gd : Guard) (u : Ia) (x : Src) : RoundTrip.Statement (.iaOr gd u x) := by
  intro w h
  cases h
  cases u
  · exact decodeSlot_trigger gd _ x (fun gd x => .iaOr gd .ia0 x) (by decide) (by decide) rfl
  · exact decodeSlot_trigger gd _ x (fun gd x => .iaOr gd .ia1 x) (by decide) (by decide) rfl

theorem RoundTrip.iaXor (gd : Guard) (u : Ia) (x : Src) : RoundTrip.Statement (.iaXor gd u x) := by
  intro w h
  cases h
  cases u
  · exact decodeSlot_trigger gd _ x (fun gd x => .iaXor gd .ia0 x) (by decide) (by decide) rfl
  · exact decodeSlot_trigger gd _ x (fun gd x => .iaXor gd .ia1 x) (by decide) (by decide) rfl

theorem RoundTrip.iaAndn (gd : Guard) (u : Ia) (x : Src) : RoundTrip.Statement (.iaAndn gd u x) := by
  intro w h
  cases h
  cases u
  · exact decodeSlot_trigger gd _ x (fun gd x => .iaAndn gd .ia0 x) (by decide) (by decide) rfl
  · exact decodeSlot_trigger gd _ x (fun gd x => .iaAndn gd .ia1 x) (by decide) (by decide) rfl

theorem RoundTrip.iaShl (gd : Guard) (u : Ia) (x : Src) : RoundTrip.Statement (.iaShl gd u x) := by
  intro w h
  cases h
  cases u
  · exact decodeSlot_trigger gd _ x (fun gd x => .iaShl gd .ia0 x) (by decide) (by decide) rfl
  · exact decodeSlot_trigger gd _ x (fun gd x => .iaShl gd .ia1 x) (by decide) (by decide) rfl

theorem RoundTrip.iaShr (gd : Guard) (u : Ia) (x : Src) : RoundTrip.Statement (.iaShr gd u x) := by
  intro w h
  cases h
  cases u
  · exact decodeSlot_trigger gd _ x (fun gd x => .iaShr gd .ia0 x) (by decide) (by decide) rfl
  · exact decodeSlot_trigger gd _ x (fun gd x => .iaShr gd .ia1 x) (by decide) (by decide) rfl

theorem RoundTrip.iaSar (gd : Guard) (u : Ia) (x : Src) : RoundTrip.Statement (.iaSar gd u x) := by
  intro w h
  cases h
  cases u
  · exact decodeSlot_trigger gd _ x (fun gd x => .iaSar gd .ia0 x) (by decide) (by decide) rfl
  · exact decodeSlot_trigger gd _ x (fun gd x => .iaSar gd .ia1 x) (by decide) (by decide) rfl

theorem RoundTrip.iaRol (gd : Guard) (u : Ia) (x : Src) : RoundTrip.Statement (.iaRol gd u x) := by
  intro w h
  cases h
  cases u
  · exact decodeSlot_trigger gd _ x (fun gd x => .iaRol gd .ia0 x) (by decide) (by decide) rfl
  · exact decodeSlot_trigger gd _ x (fun gd x => .iaRol gd .ia1 x) (by decide) (by decide) rfl

theorem RoundTrip.iaRor (gd : Guard) (u : Ia) (x : Src) : RoundTrip.Statement (.iaRor gd u x) := by
  intro w h
  cases h
  cases u
  · exact decodeSlot_trigger gd _ x (fun gd x => .iaRor gd .ia0 x) (by decide) (by decide) rfl
  · exact decodeSlot_trigger gd _ x (fun gd x => .iaRor gd .ia1 x) (by decide) (by decide) rfl

theorem RoundTrip.iaClz (gd : Guard) (u : Ia) (x : Src) : RoundTrip.Statement (.iaClz gd u x) := by
  intro w h
  cases h
  cases u
  · exact decodeSlot_trigger gd _ x (fun gd x => .iaClz gd .ia0 x) (by decide) (by decide) rfl
  · exact decodeSlot_trigger gd _ x (fun gd x => .iaClz gd .ia1 x) (by decide) (by decide) rfl

theorem RoundTrip.iaCtz (gd : Guard) (u : Ia) (x : Src) : RoundTrip.Statement (.iaCtz gd u x) := by
  intro w h
  cases h
  cases u
  · exact decodeSlot_trigger gd _ x (fun gd x => .iaCtz gd .ia0 x) (by decide) (by decide) rfl
  · exact decodeSlot_trigger gd _ x (fun gd x => .iaCtz gd .ia1 x) (by decide) (by decide) rfl

theorem RoundTrip.iaPopc (gd : Guard) (u : Ia) (x : Src) : RoundTrip.Statement (.iaPopc gd u x) := by
  intro w h
  cases h
  cases u
  · exact decodeSlot_trigger gd _ x (fun gd x => .iaPopc gd .ia0 x) (by decide) (by decide) rfl
  · exact decodeSlot_trigger gd _ x (fun gd x => .iaPopc gd .ia1 x) (by decide) (by decide) rfl

theorem RoundTrip.iaBext (gd : Guard) (u : Ia) (x : Src) : RoundTrip.Statement (.iaBext gd u x) := by
  intro w h
  cases h
  cases u
  · exact decodeSlot_trigger gd _ x (fun gd x => .iaBext gd .ia0 x) (by decide) (by decide) rfl
  · exact decodeSlot_trigger gd _ x (fun gd x => .iaBext gd .ia1 x) (by decide) (by decide) rfl

theorem RoundTrip.iaBexts (gd : Guard) (u : Ia) (x : Src) : RoundTrip.Statement (.iaBexts gd u x) := by
  intro w h
  cases h
  cases u
  · exact decodeSlot_trigger gd _ x (fun gd x => .iaBexts gd .ia0 x) (by decide) (by decide) rfl
  · exact decodeSlot_trigger gd _ x (fun gd x => .iaBexts gd .ia1 x) (by decide) (by decide) rfl

theorem RoundTrip.iaSeq (gd : Guard) (u : Ia) (x : Src) : RoundTrip.Statement (.iaSeq gd u x) := by
  intro w h
  cases h
  cases u
  · exact decodeSlot_trigger gd _ x (fun gd x => .iaSeq gd .ia0 x) (by decide) (by decide) rfl
  · exact decodeSlot_trigger gd _ x (fun gd x => .iaSeq gd .ia1 x) (by decide) (by decide) rfl

theorem RoundTrip.iaSne (gd : Guard) (u : Ia) (x : Src) : RoundTrip.Statement (.iaSne gd u x) := by
  intro w h
  cases h
  cases u
  · exact decodeSlot_trigger gd _ x (fun gd x => .iaSne gd .ia0 x) (by decide) (by decide) rfl
  · exact decodeSlot_trigger gd _ x (fun gd x => .iaSne gd .ia1 x) (by decide) (by decide) rfl

theorem RoundTrip.iaSlt (gd : Guard) (u : Ia) (x : Src) : RoundTrip.Statement (.iaSlt gd u x) := by
  intro w h
  cases h
  cases u
  · exact decodeSlot_trigger gd _ x (fun gd x => .iaSlt gd .ia0 x) (by decide) (by decide) rfl
  · exact decodeSlot_trigger gd _ x (fun gd x => .iaSlt gd .ia1 x) (by decide) (by decide) rfl

theorem RoundTrip.iaSltu (gd : Guard) (u : Ia) (x : Src) : RoundTrip.Statement (.iaSltu gd u x) := by
  intro w h
  cases h
  cases u
  · exact decodeSlot_trigger gd _ x (fun gd x => .iaSltu gd .ia0 x) (by decide) (by decide) rfl
  · exact decodeSlot_trigger gd _ x (fun gd x => .iaSltu gd .ia1 x) (by decide) (by decide) rfl

theorem RoundTrip.iaSle (gd : Guard) (u : Ia) (x : Src) : RoundTrip.Statement (.iaSle gd u x) := by
  intro w h
  cases h
  cases u
  · exact decodeSlot_trigger gd _ x (fun gd x => .iaSle gd .ia0 x) (by decide) (by decide) rfl
  · exact decodeSlot_trigger gd _ x (fun gd x => .iaSle gd .ia1 x) (by decide) (by decide) rfl

theorem RoundTrip.iaSleu (gd : Guard) (u : Ia) (x : Src) : RoundTrip.Statement (.iaSleu gd u x) := by
  intro w h
  cases h
  cases u
  · exact decodeSlot_trigger gd _ x (fun gd x => .iaSleu gd .ia0 x) (by decide) (by decide) rfl
  · exact decodeSlot_trigger gd _ x (fun gd x => .iaSleu gd .ia1 x) (by decide) (by decide) rfl

theorem RoundTrip.iaSext (gd : Guard) (u : Ia) (x : Src) : RoundTrip.Statement (.iaSext gd u x) := by
  intro w h
  cases h
  cases u
  · exact decodeSlot_trigger gd _ x (fun gd x => .iaSext gd .ia0 x) (by decide) (by decide) rfl
  · exact decodeSlot_trigger gd _ x (fun gd x => .iaSext gd .ia1 x) (by decide) (by decide) rfl

theorem RoundTrip.iaZext (gd : Guard) (u : Ia) (x : Src) : RoundTrip.Statement (.iaZext gd u x) := by
  intro w h
  cases h
  cases u
  · exact decodeSlot_trigger gd _ x (fun gd x => .iaZext gd .ia0 x) (by decide) (by decide) rfl
  · exact decodeSlot_trigger gd _ x (fun gd x => .iaZext gd .ia1 x) (by decide) (by decide) rfl

theorem RoundTrip.iaBswap (gd : Guard) (u : Ia) (x : Src) : RoundTrip.Statement (.iaBswap gd u x) := by
  intro w h
  cases h
  cases u
  · exact decodeSlot_trigger gd _ x (fun gd x => .iaBswap gd .ia0 x) (by decide) (by decide) rfl
  · exact decodeSlot_trigger gd _ x (fun gd x => .iaBswap gd .ia1 x) (by decide) (by decide) rfl

theorem RoundTrip.agAdd (gd : Guard) (x : Src) : RoundTrip.Statement (.agAdd gd x) := by
  intro w h
  cases h
  exact decodeSlot_trigger gd _ x .agAdd (by decide) (by decide) rfl

theorem RoundTrip.agIdx (gd : Guard) (x : Src) : RoundTrip.Statement (.agIdx gd x) := by
  intro w h
  cases h
  exact decodeSlot_trigger gd _ x .agIdx (by decide) (by decide) rfl

theorem RoundTrip.agPost (gd : Guard) (x : Src) : RoundTrip.Statement (.agPost gd x) := by
  intro w h
  cases h
  exact decodeSlot_trigger gd _ x .agPost (by decide) (by decide) rfl

theorem RoundTrip.agPre (gd : Guard) (x : Src) : RoundTrip.Statement (.agPre gd x) := by
  intro w h
  cases h
  exact decodeSlot_trigger gd _ x .agPre (by decide) (by decide) rfl

theorem RoundTrip.agRing (gd : Guard) (x : Src) : RoundTrip.Statement (.agRing gd x) := by
  intro w h
  cases h
  exact decodeSlot_trigger gd _ x .agRing (by decide) (by decide) rfl

theorem RoundTrip.agAlign (gd : Guard) (x : Src) : RoundTrip.Statement (.agAlign gd x) := by
  intro w h
  cases h
  exact decodeSlot_trigger gd _ x .agAlign (by decide) (by decide) rfl

theorem RoundTrip.agSlot (gd : Guard) (x : Src) : RoundTrip.Statement (.agSlot gd x) := by
  intro w h
  cases h
  exact decodeSlot_trigger gd _ x .agSlot (by decide) (by decide) rfl

theorem RoundTrip.agAcc (gd : Guard) (x : Src) : RoundTrip.Statement (.agAcc gd x) := by
  intro w h
  cases h
  exact decodeSlot_trigger gd _ x .agAcc (by decide) (by decide) rfl

theorem RoundTrip.lsSldB (gd : Guard) (x : Src) : RoundTrip.Statement (.lsSldB gd x) := by
  intro w h
  cases h
  exact decodeSlot_trigger gd _ x .lsSldB (by decide) (by decide) rfl

theorem RoundTrip.lsSldBu (gd : Guard) (x : Src) : RoundTrip.Statement (.lsSldBu gd x) := by
  intro w h
  cases h
  exact decodeSlot_trigger gd _ x .lsSldBu (by decide) (by decide) rfl

theorem RoundTrip.lsSldH (gd : Guard) (x : Src) : RoundTrip.Statement (.lsSldH gd x) := by
  intro w h
  cases h
  exact decodeSlot_trigger gd _ x .lsSldH (by decide) (by decide) rfl

theorem RoundTrip.lsSldHu (gd : Guard) (x : Src) : RoundTrip.Statement (.lsSldHu gd x) := by
  intro w h
  cases h
  exact decodeSlot_trigger gd _ x .lsSldHu (by decide) (by decide) rfl

theorem RoundTrip.lsSldW (gd : Guard) (x : Src) : RoundTrip.Statement (.lsSldW gd x) := by
  intro w h
  cases h
  exact decodeSlot_trigger gd _ x .lsSldW (by decide) (by decide) rfl

theorem RoundTrip.lsSldWu (gd : Guard) (x : Src) : RoundTrip.Statement (.lsSldWu gd x) := by
  intro w h
  cases h
  exact decodeSlot_trigger gd _ x .lsSldWu (by decide) (by decide) rfl

theorem RoundTrip.lsSldD (gd : Guard) (x : Src) : RoundTrip.Statement (.lsSldD gd x) := by
  intro w h
  cases h
  exact decodeSlot_trigger gd _ x .lsSldD (by decide) (by decide) rfl

theorem RoundTrip.lsSvld (gd : Guard) (x : Src) : RoundTrip.Statement (.lsSvld gd x) := by
  intro w h
  cases h
  exact decodeSlot_trigger gd _ x .lsSvld (by decide) (by decide) rfl

theorem RoundTrip.lsSstB (gd : Guard) (x : Src) : RoundTrip.Statement (.lsSstB gd x) := by
  intro w h
  cases h
  exact decodeSlot_trigger gd _ x .lsSstB (by decide) (by decide) rfl

theorem RoundTrip.lsSstH (gd : Guard) (x : Src) : RoundTrip.Statement (.lsSstH gd x) := by
  intro w h
  cases h
  exact decodeSlot_trigger gd _ x .lsSstH (by decide) (by decide) rfl

theorem RoundTrip.lsSstW (gd : Guard) (x : Src) : RoundTrip.Statement (.lsSstW gd x) := by
  intro w h
  cases h
  exact decodeSlot_trigger gd _ x .lsSstW (by decide) (by decide) rfl

theorem RoundTrip.lsSstD (gd : Guard) (x : Src) : RoundTrip.Statement (.lsSstD gd x) := by
  intro w h
  cases h
  exact decodeSlot_trigger gd _ x .lsSstD (by decide) (by decide) rfl

theorem RoundTrip.lsSvst (gd : Guard) (x : Src) : RoundTrip.Statement (.lsSvst gd x) := by
  intro w h
  cases h
  exact decodeSlot_trigger gd _ x .lsSvst (by decide) (by decide) rfl

theorem RoundTrip.lsLdB (gd : Guard) (x : Src) : RoundTrip.Statement (.lsLdB gd x) := by
  intro w h
  cases h
  exact decodeSlot_trigger gd _ x .lsLdB (by decide) (by decide) rfl

theorem RoundTrip.lsLdBu (gd : Guard) (x : Src) : RoundTrip.Statement (.lsLdBu gd x) := by
  intro w h
  cases h
  exact decodeSlot_trigger gd _ x .lsLdBu (by decide) (by decide) rfl

theorem RoundTrip.lsLdH (gd : Guard) (x : Src) : RoundTrip.Statement (.lsLdH gd x) := by
  intro w h
  cases h
  exact decodeSlot_trigger gd _ x .lsLdH (by decide) (by decide) rfl

theorem RoundTrip.lsLdHu (gd : Guard) (x : Src) : RoundTrip.Statement (.lsLdHu gd x) := by
  intro w h
  cases h
  exact decodeSlot_trigger gd _ x .lsLdHu (by decide) (by decide) rfl

theorem RoundTrip.lsLdW (gd : Guard) (x : Src) : RoundTrip.Statement (.lsLdW gd x) := by
  intro w h
  cases h
  exact decodeSlot_trigger gd _ x .lsLdW (by decide) (by decide) rfl

theorem RoundTrip.lsLdWu (gd : Guard) (x : Src) : RoundTrip.Statement (.lsLdWu gd x) := by
  intro w h
  cases h
  exact decodeSlot_trigger gd _ x .lsLdWu (by decide) (by decide) rfl

theorem RoundTrip.lsLdD (gd : Guard) (x : Src) : RoundTrip.Statement (.lsLdD gd x) := by
  intro w h
  cases h
  exact decodeSlot_trigger gd _ x .lsLdD (by decide) (by decide) rfl

theorem RoundTrip.lsLdQ (gd : Guard) (x : Src) : RoundTrip.Statement (.lsLdQ gd x) := by
  intro w h
  cases h
  exact decodeSlot_trigger gd _ x .lsLdQ (by decide) (by decide) rfl

theorem RoundTrip.lsVld (gd : Guard) (x : Src) : RoundTrip.Statement (.lsVld gd x) := by
  intro w h
  cases h
  exact decodeSlot_trigger gd _ x .lsVld (by decide) (by decide) rfl

theorem RoundTrip.lsLdWAcq (gd : Guard) (x : Src) : RoundTrip.Statement (.lsLdWAcq gd x) := by
  intro w h
  cases h
  exact decodeSlot_trigger gd _ x .lsLdWAcq (by decide) (by decide) rfl

theorem RoundTrip.lsLdDAcq (gd : Guard) (x : Src) : RoundTrip.Statement (.lsLdDAcq gd x) := by
  intro w h
  cases h
  exact decodeSlot_trigger gd _ x .lsLdDAcq (by decide) (by decide) rfl

theorem RoundTrip.lsStB (gd : Guard) (x : Src) : RoundTrip.Statement (.lsStB gd x) := by
  intro w h
  cases h
  exact decodeSlot_trigger gd _ x .lsStB (by decide) (by decide) rfl

theorem RoundTrip.lsStH (gd : Guard) (x : Src) : RoundTrip.Statement (.lsStH gd x) := by
  intro w h
  cases h
  exact decodeSlot_trigger gd _ x .lsStH (by decide) (by decide) rfl

theorem RoundTrip.lsStW (gd : Guard) (x : Src) : RoundTrip.Statement (.lsStW gd x) := by
  intro w h
  cases h
  exact decodeSlot_trigger gd _ x .lsStW (by decide) (by decide) rfl

theorem RoundTrip.lsStD (gd : Guard) (x : Src) : RoundTrip.Statement (.lsStD gd x) := by
  intro w h
  cases h
  exact decodeSlot_trigger gd _ x .lsStD (by decide) (by decide) rfl

theorem RoundTrip.lsStQ (gd : Guard) (x : Src) : RoundTrip.Statement (.lsStQ gd x) := by
  intro w h
  cases h
  exact decodeSlot_trigger gd _ x .lsStQ (by decide) (by decide) rfl

theorem RoundTrip.lsVst (gd : Guard) (x : Src) : RoundTrip.Statement (.lsVst gd x) := by
  intro w h
  cases h
  exact decodeSlot_trigger gd _ x .lsVst (by decide) (by decide) rfl

theorem RoundTrip.lsStWRel (gd : Guard) (x : Src) : RoundTrip.Statement (.lsStWRel gd x) := by
  intro w h
  cases h
  exact decodeSlot_trigger gd _ x .lsStWRel (by decide) (by decide) rfl

theorem RoundTrip.lsStDRel (gd : Guard) (x : Src) : RoundTrip.Statement (.lsStDRel gd x) := by
  intro w h
  cases h
  exact decodeSlot_trigger gd _ x .lsStDRel (by decide) (by decide) rfl

theorem RoundTrip.lsRstD (gd : Guard) (x : Src) : RoundTrip.Statement (.lsRstD gd x) := by
  intro w h
  cases h
  exact decodeSlot_trigger gd _ x .lsRstD (by decide) (by decide) rfl

theorem RoundTrip.lsAmoAdd (gd : Guard) (x : Src) : RoundTrip.Statement (.lsAmoAdd gd x) := by
  intro w h
  cases h
  exact decodeSlot_trigger gd _ x .lsAmoAdd (by decide) (by decide) rfl

theorem RoundTrip.lsAmoAnd (gd : Guard) (x : Src) : RoundTrip.Statement (.lsAmoAnd gd x) := by
  intro w h
  cases h
  exact decodeSlot_trigger gd _ x .lsAmoAnd (by decide) (by decide) rfl

theorem RoundTrip.lsAmoOr (gd : Guard) (x : Src) : RoundTrip.Statement (.lsAmoOr gd x) := by
  intro w h
  cases h
  exact decodeSlot_trigger gd _ x .lsAmoOr (by decide) (by decide) rfl

theorem RoundTrip.lsAmoXor (gd : Guard) (x : Src) : RoundTrip.Statement (.lsAmoXor gd x) := by
  intro w h
  cases h
  exact decodeSlot_trigger gd _ x .lsAmoXor (by decide) (by decide) rfl

theorem RoundTrip.lsAmoMin (gd : Guard) (x : Src) : RoundTrip.Statement (.lsAmoMin gd x) := by
  intro w h
  cases h
  exact decodeSlot_trigger gd _ x .lsAmoMin (by decide) (by decide) rfl

theorem RoundTrip.lsAmoMax (gd : Guard) (x : Src) : RoundTrip.Statement (.lsAmoMax gd x) := by
  intro w h
  cases h
  exact decodeSlot_trigger gd _ x .lsAmoMax (by decide) (by decide) rfl

theorem RoundTrip.lsAmoMinu (gd : Guard) (x : Src) : RoundTrip.Statement (.lsAmoMinu gd x) := by
  intro w h
  cases h
  exact decodeSlot_trigger gd _ x .lsAmoMinu (by decide) (by decide) rfl

theorem RoundTrip.lsAmoMaxu (gd : Guard) (x : Src) : RoundTrip.Statement (.lsAmoMaxu gd x) := by
  intro w h
  cases h
  exact decodeSlot_trigger gd _ x .lsAmoMaxu (by decide) (by decide) rfl

theorem RoundTrip.lsAmoSwap (gd : Guard) (x : Src) : RoundTrip.Statement (.lsAmoSwap gd x) := by
  intro w h
  cases h
  exact decodeSlot_trigger gd _ x .lsAmoSwap (by decide) (by decide) rfl

theorem RoundTrip.lsAmoCas (gd : Guard) (x : Src) : RoundTrip.Statement (.lsAmoCas gd x) := by
  intro w h
  cases h
  exact decodeSlot_trigger gd _ x .lsAmoCas (by decide) (by decide) rfl

theorem RoundTrip.lsAmoFadd (gd : Guard) (x : Src) : RoundTrip.Statement (.lsAmoFadd gd x) := by
  intro w h
  cases h
  exact decodeSlot_trigger gd _ x .lsAmoFadd (by decide) (by decide) rfl

theorem RoundTrip.lsAmoAddC (gd : Guard) (x : Src) : RoundTrip.Statement (.lsAmoAddC gd x) := by
  intro w h
  cases h
  exact decodeSlot_trigger gd _ x .lsAmoAddC (by decide) (by decide) rfl

theorem RoundTrip.lsAmoAndC (gd : Guard) (x : Src) : RoundTrip.Statement (.lsAmoAndC gd x) := by
  intro w h
  cases h
  exact decodeSlot_trigger gd _ x .lsAmoAndC (by decide) (by decide) rfl

theorem RoundTrip.lsAmoOrC (gd : Guard) (x : Src) : RoundTrip.Statement (.lsAmoOrC gd x) := by
  intro w h
  cases h
  exact decodeSlot_trigger gd _ x .lsAmoOrC (by decide) (by decide) rfl

theorem RoundTrip.lsAmoXorC (gd : Guard) (x : Src) : RoundTrip.Statement (.lsAmoXorC gd x) := by
  intro w h
  cases h
  exact decodeSlot_trigger gd _ x .lsAmoXorC (by decide) (by decide) rfl

theorem RoundTrip.lsAmoMinC (gd : Guard) (x : Src) : RoundTrip.Statement (.lsAmoMinC gd x) := by
  intro w h
  cases h
  exact decodeSlot_trigger gd _ x .lsAmoMinC (by decide) (by decide) rfl

theorem RoundTrip.lsAmoMaxC (gd : Guard) (x : Src) : RoundTrip.Statement (.lsAmoMaxC gd x) := by
  intro w h
  cases h
  exact decodeSlot_trigger gd _ x .lsAmoMaxC (by decide) (by decide) rfl

theorem RoundTrip.lsAmoMinuC (gd : Guard) (x : Src) : RoundTrip.Statement (.lsAmoMinuC gd x) := by
  intro w h
  cases h
  exact decodeSlot_trigger gd _ x .lsAmoMinuC (by decide) (by decide) rfl

theorem RoundTrip.lsAmoMaxuC (gd : Guard) (x : Src) : RoundTrip.Statement (.lsAmoMaxuC gd x) := by
  intro w h
  cases h
  exact decodeSlot_trigger gd _ x .lsAmoMaxuC (by decide) (by decide) rfl

theorem RoundTrip.lsAmoSwapC (gd : Guard) (x : Src) : RoundTrip.Statement (.lsAmoSwapC gd x) := by
  intro w h
  cases h
  exact decodeSlot_trigger gd _ x .lsAmoSwapC (by decide) (by decide) rfl

theorem RoundTrip.lsAmoFaddComb (gd : Guard) (x : Src) : RoundTrip.Statement (.lsAmoFaddComb gd x) := by
  intro w h
  cases h
  exact decodeSlot_trigger gd _ x .lsAmoFaddComb (by decide) (by decide) rfl

theorem RoundTrip.lsChld (gd : Guard) (x : Src) : RoundTrip.Statement (.lsChld gd x) := by
  intro w h
  cases h
  exact decodeSlot_trigger gd _ x .lsChld (by decide) (by decide) rfl

theorem RoundTrip.lsTlk (gd : Guard) (x : Src) : RoundTrip.Statement (.lsTlk gd x) := by
  intro w h
  cases h
  exact decodeSlot_trigger gd _ x .lsTlk (by decide) (by decide) rfl

theorem RoundTrip.lsTget (gd : Guard) (x : Src) : RoundTrip.Statement (.lsTget gd x) := by
  intro w h
  cases h
  exact decodeSlot_trigger gd _ x .lsTget (by decide) (by decide) rfl

theorem RoundTrip.lsTset (gd : Guard) (x : Src) : RoundTrip.Statement (.lsTset gd x) := by
  intro w h
  cases h
  exact decodeSlot_trigger gd _ x .lsTset (by decide) (by decide) rfl

theorem RoundTrip.lsLarm (gd : Guard) (x : Src) : RoundTrip.Statement (.lsLarm gd x) := by
  intro w h
  cases h
  exact decodeSlot_trigger gd _ x .lsLarm (by decide) (by decide) rfl

theorem RoundTrip.vxVaddI32 (gd : Guard) (x : Src) : RoundTrip.Statement (.vxVaddI32 gd x) := by
  intro w h
  cases h
  exact decodeSlot_trigger gd _ x .vxVaddI32 (by decide) (by decide) rfl

theorem RoundTrip.vxVsubI32 (gd : Guard) (x : Src) : RoundTrip.Statement (.vxVsubI32 gd x) := by
  intro w h
  cases h
  exact decodeSlot_trigger gd _ x .vxVsubI32 (by decide) (by decide) rfl

theorem RoundTrip.vxVaddsI32 (gd : Guard) (x : Src) : RoundTrip.Statement (.vxVaddsI32 gd x) := by
  intro w h
  cases h
  exact decodeSlot_trigger gd _ x .vxVaddsI32 (by decide) (by decide) rfl

theorem RoundTrip.vxVsubsI32 (gd : Guard) (x : Src) : RoundTrip.Statement (.vxVsubsI32 gd x) := by
  intro w h
  cases h
  exact decodeSlot_trigger gd _ x .vxVsubsI32 (by decide) (by decide) rfl

theorem RoundTrip.vxVaddsuI32 (gd : Guard) (x : Src) : RoundTrip.Statement (.vxVaddsuI32 gd x) := by
  intro w h
  cases h
  exact decodeSlot_trigger gd _ x .vxVaddsuI32 (by decide) (by decide) rfl

theorem RoundTrip.vxVsubsuI32 (gd : Guard) (x : Src) : RoundTrip.Statement (.vxVsubsuI32 gd x) := by
  intro w h
  cases h
  exact decodeSlot_trigger gd _ x .vxVsubsuI32 (by decide) (by decide) rfl

theorem RoundTrip.vxVmulI32 (gd : Guard) (x : Src) : RoundTrip.Statement (.vxVmulI32 gd x) := by
  intro w h
  cases h
  exact decodeSlot_trigger gd _ x .vxVmulI32 (by decide) (by decide) rfl

theorem RoundTrip.vxVmulhI32 (gd : Guard) (x : Src) : RoundTrip.Statement (.vxVmulhI32 gd x) := by
  intro w h
  cases h
  exact decodeSlot_trigger gd _ x .vxVmulhI32 (by decide) (by decide) rfl

theorem RoundTrip.vxVminI32 (gd : Guard) (x : Src) : RoundTrip.Statement (.vxVminI32 gd x) := by
  intro w h
  cases h
  exact decodeSlot_trigger gd _ x .vxVminI32 (by decide) (by decide) rfl

theorem RoundTrip.vxVmaxI32 (gd : Guard) (x : Src) : RoundTrip.Statement (.vxVmaxI32 gd x) := by
  intro w h
  cases h
  exact decodeSlot_trigger gd _ x .vxVmaxI32 (by decide) (by decide) rfl

theorem RoundTrip.vxVminuI32 (gd : Guard) (x : Src) : RoundTrip.Statement (.vxVminuI32 gd x) := by
  intro w h
  cases h
  exact decodeSlot_trigger gd _ x .vxVminuI32 (by decide) (by decide) rfl

theorem RoundTrip.vxVmaxuI32 (gd : Guard) (x : Src) : RoundTrip.Statement (.vxVmaxuI32 gd x) := by
  intro w h
  cases h
  exact decodeSlot_trigger gd _ x .vxVmaxuI32 (by decide) (by decide) rfl

theorem RoundTrip.vxVand (gd : Guard) (x : Src) : RoundTrip.Statement (.vxVand gd x) := by
  intro w h
  cases h
  exact decodeSlot_trigger gd _ x .vxVand (by decide) (by decide) rfl

theorem RoundTrip.vxVor (gd : Guard) (x : Src) : RoundTrip.Statement (.vxVor gd x) := by
  intro w h
  cases h
  exact decodeSlot_trigger gd _ x .vxVor (by decide) (by decide) rfl

theorem RoundTrip.vxVxor (gd : Guard) (x : Src) : RoundTrip.Statement (.vxVxor gd x) := by
  intro w h
  cases h
  exact decodeSlot_trigger gd _ x .vxVxor (by decide) (by decide) rfl

theorem RoundTrip.vxVshl (gd : Guard) (x : Src) : RoundTrip.Statement (.vxVshl gd x) := by
  intro w h
  cases h
  exact decodeSlot_trigger gd _ x .vxVshl (by decide) (by decide) rfl

theorem RoundTrip.vxVshr (gd : Guard) (x : Src) : RoundTrip.Statement (.vxVshr gd x) := by
  intro w h
  cases h
  exact decodeSlot_trigger gd _ x .vxVshr (by decide) (by decide) rfl

theorem RoundTrip.vxVsar (gd : Guard) (x : Src) : RoundTrip.Statement (.vxVsar gd x) := by
  intro w h
  cases h
  exact decodeSlot_trigger gd _ x .vxVsar (by decide) (by decide) rfl

theorem RoundTrip.vxVsel (gd : Guard) (x : Src) : RoundTrip.Statement (.vxVsel gd x) := by
  intro w h
  cases h
  exact decodeSlot_trigger gd _ x .vxVsel (by decide) (by decide) rfl

theorem RoundTrip.vxVaddF32 (gd : Guard) (x : Src) : RoundTrip.Statement (.vxVaddF32 gd x) := by
  intro w h
  cases h
  exact decodeSlot_trigger gd _ x .vxVaddF32 (by decide) (by decide) rfl

theorem RoundTrip.vxVsubF32 (gd : Guard) (x : Src) : RoundTrip.Statement (.vxVsubF32 gd x) := by
  intro w h
  cases h
  exact decodeSlot_trigger gd _ x .vxVsubF32 (by decide) (by decide) rfl

theorem RoundTrip.vxVmulF32 (gd : Guard) (x : Src) : RoundTrip.Statement (.vxVmulF32 gd x) := by
  intro w h
  cases h
  exact decodeSlot_trigger gd _ x .vxVmulF32 (by decide) (by decide) rfl

theorem RoundTrip.vxVfmaF32 (gd : Guard) (x : Src) : RoundTrip.Statement (.vxVfmaF32 gd x) := by
  intro w h
  cases h
  exact decodeSlot_trigger gd _ x .vxVfmaF32 (by decide) (by decide) rfl

theorem RoundTrip.vxVfmsF32 (gd : Guard) (x : Src) : RoundTrip.Statement (.vxVfmsF32 gd x) := by
  intro w h
  cases h
  exact decodeSlot_trigger gd _ x .vxVfmsF32 (by decide) (by decide) rfl

theorem RoundTrip.vxVminF32 (gd : Guard) (x : Src) : RoundTrip.Statement (.vxVminF32 gd x) := by
  intro w h
  cases h
  exact decodeSlot_trigger gd _ x .vxVminF32 (by decide) (by decide) rfl

theorem RoundTrip.vxVmaxF32 (gd : Guard) (x : Src) : RoundTrip.Statement (.vxVmaxF32 gd x) := by
  intro w h
  cases h
  exact decodeSlot_trigger gd _ x .vxVmaxF32 (by decide) (by decide) rfl

theorem RoundTrip.vxVdivF32 (gd : Guard) (x : Src) : RoundTrip.Statement (.vxVdivF32 gd x) := by
  intro w h
  cases h
  exact decodeSlot_trigger gd _ x .vxVdivF32 (by decide) (by decide) rfl

theorem RoundTrip.vxVsqrtF32 (gd : Guard) (x : Src) : RoundTrip.Statement (.vxVsqrtF32 gd x) := by
  intro w h
  cases h
  exact decodeSlot_trigger gd _ x .vxVsqrtF32 (by decide) (by decide) rfl

theorem RoundTrip.vxVabsF32 (gd : Guard) (x : Src) : RoundTrip.Statement (.vxVabsF32 gd x) := by
  intro w h
  cases h
  exact decodeSlot_trigger gd _ x .vxVabsF32 (by decide) (by decide) rfl

theorem RoundTrip.vxVnegF32 (gd : Guard) (x : Src) : RoundTrip.Statement (.vxVnegF32 gd x) := by
  intro w h
  cases h
  exact decodeSlot_trigger gd _ x .vxVnegF32 (by decide) (by decide) rfl

theorem RoundTrip.vxVrcpeF32 (gd : Guard) (x : Src) : RoundTrip.Statement (.vxVrcpeF32 gd x) := by
  intro w h
  cases h
  exact decodeSlot_trigger gd _ x .vxVrcpeF32 (by decide) (by decide) rfl

theorem RoundTrip.vxVrsqrteF32 (gd : Guard) (x : Src) : RoundTrip.Statement (.vxVrsqrteF32 gd x) := by
  intro w h
  cases h
  exact decodeSlot_trigger gd _ x .vxVrsqrteF32 (by decide) (by decide) rfl

theorem RoundTrip.vxVexp2F32 (gd : Guard) (x : Src) : RoundTrip.Statement (.vxVexp2F32 gd x) := by
  intro w h
  cases h
  exact decodeSlot_trigger gd _ x .vxVexp2F32 (by decide) (by decide) rfl

theorem RoundTrip.vxVlog2F32 (gd : Guard) (x : Src) : RoundTrip.Statement (.vxVlog2F32 gd x) := by
  intro w h
  cases h
  exact decodeSlot_trigger gd _ x .vxVlog2F32 (by decide) (by decide) rfl

theorem RoundTrip.vxVtanhF32 (gd : Guard) (x : Src) : RoundTrip.Statement (.vxVtanhF32 gd x) := by
  intro w h
  cases h
  exact decodeSlot_trigger gd _ x .vxVtanhF32 (by decide) (by decide) rfl

theorem RoundTrip.vxVceqI32 (gd : Guard) (x : Src) : RoundTrip.Statement (.vxVceqI32 gd x) := by
  intro w h
  cases h
  exact decodeSlot_trigger gd _ x .vxVceqI32 (by decide) (by decide) rfl

theorem RoundTrip.vxVcltI32 (gd : Guard) (x : Src) : RoundTrip.Statement (.vxVcltI32 gd x) := by
  intro w h
  cases h
  exact decodeSlot_trigger gd _ x .vxVcltI32 (by decide) (by decide) rfl

theorem RoundTrip.vxVcleI32 (gd : Guard) (x : Src) : RoundTrip.Statement (.vxVcleI32 gd x) := by
  intro w h
  cases h
  exact decodeSlot_trigger gd _ x .vxVcleI32 (by decide) (by decide) rfl

theorem RoundTrip.vxVcltuI32 (gd : Guard) (x : Src) : RoundTrip.Statement (.vxVcltuI32 gd x) := by
  intro w h
  cases h
  exact decodeSlot_trigger gd _ x .vxVcltuI32 (by decide) (by decide) rfl

theorem RoundTrip.vxVcleuI32 (gd : Guard) (x : Src) : RoundTrip.Statement (.vxVcleuI32 gd x) := by
  intro w h
  cases h
  exact decodeSlot_trigger gd _ x .vxVcleuI32 (by decide) (by decide) rfl

theorem RoundTrip.vxVceqF32 (gd : Guard) (x : Src) : RoundTrip.Statement (.vxVceqF32 gd x) := by
  intro w h
  cases h
  exact decodeSlot_trigger gd _ x .vxVceqF32 (by decide) (by decide) rfl

theorem RoundTrip.vxVcltF32 (gd : Guard) (x : Src) : RoundTrip.Statement (.vxVcltF32 gd x) := by
  intro w h
  cases h
  exact decodeSlot_trigger gd _ x .vxVcltF32 (by decide) (by decide) rfl

theorem RoundTrip.vxVcleF32 (gd : Guard) (x : Src) : RoundTrip.Statement (.vxVcleF32 gd x) := by
  intro w h
  cases h
  exact decodeSlot_trigger gd _ x .vxVcleF32 (by decide) (by decide) rfl

theorem RoundTrip.vxVcunF32 (gd : Guard) (x : Src) : RoundTrip.Statement (.vxVcunF32 gd x) := by
  intro w h
  cases h
  exact decodeSlot_trigger gd _ x .vxVcunF32 (by decide) (by decide) rfl

theorem RoundTrip.vxMand (gd : Guard) (x : Src) : RoundTrip.Statement (.vxMand gd x) := by
  intro w h
  cases h
  exact decodeSlot_trigger gd _ x .vxMand (by decide) (by decide) rfl

theorem RoundTrip.vxMor (gd : Guard) (x : Src) : RoundTrip.Statement (.vxMor gd x) := by
  intro w h
  cases h
  exact decodeSlot_trigger gd _ x .vxMor (by decide) (by decide) rfl

theorem RoundTrip.vxMxor (gd : Guard) (x : Src) : RoundTrip.Statement (.vxMxor gd x) := by
  intro w h
  cases h
  exact decodeSlot_trigger gd _ x .vxMxor (by decide) (by decide) rfl

theorem RoundTrip.vxMandn (gd : Guard) (x : Src) : RoundTrip.Statement (.vxMandn gd x) := by
  intro w h
  cases h
  exact decodeSlot_trigger gd _ x .vxMandn (by decide) (by decide) rfl

theorem RoundTrip.vxMset (gd : Guard) (x : Src) : RoundTrip.Statement (.vxMset gd x) := by
  intro w h
  cases h
  exact decodeSlot_trigger gd _ x .vxMset (by decide) (by decide) rfl

theorem RoundTrip.vxMget (gd : Guard) (x : Src) : RoundTrip.Statement (.vxMget gd x) := by
  intro w h
  cases h
  exact decodeSlot_trigger gd _ x .vxMget (by decide) (by decide) rfl

theorem RoundTrip.vxMpopc (gd : Guard) (x : Src) : RoundTrip.Statement (.vxMpopc gd x) := by
  intro w h
  cases h
  exact decodeSlot_trigger gd _ x .vxMpopc (by decide) (by decide) rfl

theorem RoundTrip.vxMfirst (gd : Guard) (x : Src) : RoundTrip.Statement (.vxMfirst gd x) := by
  intro w h
  cases h
  exact decodeSlot_trigger gd _ x .vxMfirst (by decide) (by decide) rfl

theorem RoundTrip.vxVany (gd : Guard) (x : Src) : RoundTrip.Statement (.vxVany gd x) := by
  intro w h
  cases h
  exact decodeSlot_trigger gd _ x .vxVany (by decide) (by decide) rfl

theorem RoundTrip.vxVall (gd : Guard) (x : Src) : RoundTrip.Statement (.vxVall gd x) := by
  intro w h
  cases h
  exact decodeSlot_trigger gd _ x .vxVall (by decide) (by decide) rfl

theorem RoundTrip.vxVcvt (gd : Guard) (x : Src) : RoundTrip.Statement (.vxVcvt gd x) := by
  intro w h
  cases h
  exact decodeSlot_trigger gd _ x .vxVcvt (by decide) (by decide) rfl

theorem RoundTrip.vxVcvtSc (gd : Guard) (x : Src) : RoundTrip.Statement (.vxVcvtSc gd x) := by
  intro w h
  cases h
  exact decodeSlot_trigger gd _ x .vxVcvtSc (by decide) (by decide) rfl

theorem RoundTrip.vxVmov (gd : Guard) (x : Src) : RoundTrip.Statement (.vxVmov gd x) := by
  intro w h
  cases h
  exact decodeSlot_trigger gd _ x .vxVmov (by decide) (by decide) rfl

theorem RoundTrip.vxVbcast (gd : Guard) (x : Src) : RoundTrip.Statement (.vxVbcast gd x) := by
  intro w h
  cases h
  exact decodeSlot_trigger gd _ x .vxVbcast (by decide) (by decide) rfl

theorem RoundTrip.vxVins (gd : Guard) (x : Src) : RoundTrip.Statement (.vxVins gd x) := by
  intro w h
  cases h
  exact decodeSlot_trigger gd _ x .vxVins (by decide) (by decide) rfl

theorem RoundTrip.vxVext (gd : Guard) (x : Src) : RoundTrip.Statement (.vxVext gd x) := by
  intro w h
  cases h
  exact decodeSlot_trigger gd _ x .vxVext (by decide) (by decide) rfl

theorem RoundTrip.vxVperm (gd : Guard) (x : Src) : RoundTrip.Statement (.vxVperm gd x) := by
  intro w h
  cases h
  exact decodeSlot_trigger gd _ x .vxVperm (by decide) (by decide) rfl

theorem RoundTrip.vxVrot (gd : Guard) (x : Src) : RoundTrip.Statement (.vxVrot gd x) := by
  intro w h
  cases h
  exact decodeSlot_trigger gd _ x .vxVrot (by decide) (by decide) rfl

theorem RoundTrip.vxVzipLo (gd : Guard) (x : Src) : RoundTrip.Statement (.vxVzipLo gd x) := by
  intro w h
  cases h
  exact decodeSlot_trigger gd _ x .vxVzipLo (by decide) (by decide) rfl

theorem RoundTrip.vxVzipHi (gd : Guard) (x : Src) : RoundTrip.Statement (.vxVzipHi gd x) := by
  intro w h
  cases h
  exact decodeSlot_trigger gd _ x .vxVzipHi (by decide) (by decide) rfl

theorem RoundTrip.vxVcomp (gd : Guard) (x : Src) : RoundTrip.Statement (.vxVcomp gd x) := by
  intro w h
  cases h
  exact decodeSlot_trigger gd _ x .vxVcomp (by decide) (by decide) rfl

theorem RoundTrip.vxVraddI32 (gd : Guard) (x : Src) : RoundTrip.Statement (.vxVraddI32 gd x) := by
  intro w h
  cases h
  exact decodeSlot_trigger gd _ x .vxVraddI32 (by decide) (by decide) rfl

theorem RoundTrip.vxVraddF32 (gd : Guard) (x : Src) : RoundTrip.Statement (.vxVraddF32 gd x) := by
  intro w h
  cases h
  exact decodeSlot_trigger gd _ x .vxVraddF32 (by decide) (by decide) rfl

theorem RoundTrip.vxVrminI32 (gd : Guard) (x : Src) : RoundTrip.Statement (.vxVrminI32 gd x) := by
  intro w h
  cases h
  exact decodeSlot_trigger gd _ x .vxVrminI32 (by decide) (by decide) rfl

theorem RoundTrip.vxVrmaxI32 (gd : Guard) (x : Src) : RoundTrip.Statement (.vxVrmaxI32 gd x) := by
  intro w h
  cases h
  exact decodeSlot_trigger gd _ x .vxVrmaxI32 (by decide) (by decide) rfl

theorem RoundTrip.vxVrminuI32 (gd : Guard) (x : Src) : RoundTrip.Statement (.vxVrminuI32 gd x) := by
  intro w h
  cases h
  exact decodeSlot_trigger gd _ x .vxVrminuI32 (by decide) (by decide) rfl

theorem RoundTrip.vxVrmaxuI32 (gd : Guard) (x : Src) : RoundTrip.Statement (.vxVrmaxuI32 gd x) := by
  intro w h
  cases h
  exact decodeSlot_trigger gd _ x .vxVrmaxuI32 (by decide) (by decide) rfl

theorem RoundTrip.vxVrminF32 (gd : Guard) (x : Src) : RoundTrip.Statement (.vxVrminF32 gd x) := by
  intro w h
  cases h
  exact decodeSlot_trigger gd _ x .vxVrminF32 (by decide) (by decide) rfl

theorem RoundTrip.vxVrmaxF32 (gd : Guard) (x : Src) : RoundTrip.Statement (.vxVrmaxF32 gd x) := by
  intro w h
  cases h
  exact decodeSlot_trigger gd _ x .vxVrmaxF32 (by decide) (by decide) rfl

theorem RoundTrip.vxVdotG16 (gd : Guard) (x : Src) : RoundTrip.Statement (.vxVdotG16 gd x) := by
  intro w h
  cases h
  exact decodeSlot_trigger gd _ x .vxVdotG16 (by decide) (by decide) rfl

theorem RoundTrip.vxRnd32 (gd : Guard) (x : Src) : RoundTrip.Statement (.vxRnd32 gd x) := by
  intro w h
  cases h
  exact decodeSlot_trigger gd _ x .vxRnd32 (by decide) (by decide) rfl

theorem RoundTrip.vxViota (gd : Guard) (x : Src) : RoundTrip.Statement (.vxViota gd x) := by
  intro w h
  cases h
  exact decodeSlot_trigger gd _ x .vxViota (by decide) (by decide) rfl

theorem RoundTrip.mxMm (gd : Guard) (x : Src) : RoundTrip.Statement (.mxMm gd x) := by
  intro w h
  cases h
  exact decodeSlot_trigger gd _ x .mxMm (by decide) (by decide) rfl

theorem RoundTrip.mxMmT (gd : Guard) (x : Src) : RoundTrip.Statement (.mxMmT gd x) := by
  intro w h
  cases h
  exact decodeSlot_trigger gd _ x .mxMmT (by decide) (by decide) rfl

theorem RoundTrip.mxMmc (gd : Guard) (x : Src) : RoundTrip.Statement (.mxMmc gd x) := by
  intro w h
  cases h
  exact decodeSlot_trigger gd _ x .mxMmc (by decide) (by decide) rfl

theorem RoundTrip.mxMms (gd : Guard) (x : Src) : RoundTrip.Statement (.mxMms gd x) := by
  intro w h
  cases h
  exact decodeSlot_trigger gd _ x .mxMms (by decide) (by decide) rfl

theorem RoundTrip.mxMmsT (gd : Guard) (x : Src) : RoundTrip.Statement (.mxMmsT gd x) := by
  intro w h
  cases h
  exact decodeSlot_trigger gd _ x .mxMmsT (by decide) (by decide) rfl

theorem RoundTrip.mxMmcs (gd : Guard) (x : Src) : RoundTrip.Statement (.mxMmcs gd x) := by
  intro w h
  cases h
  exact decodeSlot_trigger gd _ x .mxMmcs (by decide) (by decide) rfl

theorem RoundTrip.mxCclr (gd : Guard) (x : Src) : RoundTrip.Statement (.mxCclr gd x) := by
  intro w h
  cases h
  exact decodeSlot_trigger gd _ x .mxCclr (by decide) (by decide) rfl

theorem RoundTrip.mxCacc (gd : Guard) (x : Src) : RoundTrip.Statement (.mxCacc gd x) := by
  intro w h
  cases h
  exact decodeSlot_trigger gd _ x .mxCacc (by decide) (by decide) rfl

theorem RoundTrip.mxCscl (gd : Guard) (x : Src) : RoundTrip.Statement (.mxCscl gd x) := by
  intro w h
  cases h
  exact decodeSlot_trigger gd _ x .mxCscl (by decide) (by decide) rfl

theorem RoundTrip.mxStat (gd : Guard) (x : Src) : RoundTrip.Statement (.mxStat gd x) := by
  intro w h
  cases h
  exact decodeSlot_trigger gd _ x .mxStat (by decide) (by decide) rfl

theorem RoundTrip.mxDrain (gd : Guard) (x : Src) : RoundTrip.Statement (.mxDrain gd x) := by
  intro w h
  cases h
  exact decodeSlot_trigger gd _ x .mxDrain (by decide) (by decide) rfl

theorem RoundTrip.mxDrainq (gd : Guard) (x : Src) : RoundTrip.Statement (.mxDrainq gd x) := by
  intro w h
  cases h
  exact decodeSlot_trigger gd _ x .mxDrainq (by decide) (by decide) rfl

theorem RoundTrip.brTgt (gd : Guard) (x : Src) : RoundTrip.Statement (.brTgt gd x) := by
  intro w h
  cases h
  exact decodeSlot_trigger gd _ x .brTgt (by decide) (by decide) rfl

theorem RoundTrip.brCeq (gd : Guard) (x : Src) : RoundTrip.Statement (.brCeq gd x) := by
  intro w h
  cases h
  exact decodeSlot_trigger gd _ x .brCeq (by decide) (by decide) rfl

theorem RoundTrip.brCne (gd : Guard) (x : Src) : RoundTrip.Statement (.brCne gd x) := by
  intro w h
  cases h
  exact decodeSlot_trigger gd _ x .brCne (by decide) (by decide) rfl

theorem RoundTrip.brClt (gd : Guard) (x : Src) : RoundTrip.Statement (.brClt gd x) := by
  intro w h
  cases h
  exact decodeSlot_trigger gd _ x .brClt (by decide) (by decide) rfl

theorem RoundTrip.brCge (gd : Guard) (x : Src) : RoundTrip.Statement (.brCge gd x) := by
  intro w h
  cases h
  exact decodeSlot_trigger gd _ x .brCge (by decide) (by decide) rfl

theorem RoundTrip.brCltu (gd : Guard) (x : Src) : RoundTrip.Statement (.brCltu gd x) := by
  intro w h
  cases h
  exact decodeSlot_trigger gd _ x .brCltu (by decide) (by decide) rfl

theorem RoundTrip.brCgeu (gd : Guard) (x : Src) : RoundTrip.Statement (.brCgeu gd x) := by
  intro w h
  cases h
  exact decodeSlot_trigger gd _ x .brCgeu (by decide) (by decide) rfl

theorem RoundTrip.brJmp (gd : Guard) (x : Src) : RoundTrip.Statement (.brJmp gd x) := by
  intro w h
  cases h
  exact decodeSlot_trigger gd _ x .brJmp (by decide) (by decide) rfl

theorem RoundTrip.brJt (gd : Guard) (x : Src) : RoundTrip.Statement (.brJt gd x) := by
  intro w h
  cases h
  exact decodeSlot_trigger gd _ x .brJt (by decide) (by decide) rfl

theorem RoundTrip.brCall (gd : Guard) (x : Src) : RoundTrip.Statement (.brCall gd x) := by
  intro w h
  cases h
  exact decodeSlot_trigger gd _ x .brCall (by decide) (by decide) rfl

theorem RoundTrip.brRet (gd : Guard) (x : Src) : RoundTrip.Statement (.brRet gd x) := by
  intro w h
  cases h
  exact decodeSlot_trigger gd _ x .brRet (by decide) (by decide) rfl

theorem RoundTrip.brLoop (gd : Guard) (x : Src) : RoundTrip.Statement (.brLoop gd x) := by
  intro w h
  cases h
  exact decodeSlot_trigger gd _ x .brLoop (by decide) (by decide) rfl

theorem RoundTrip.syWait (gd : Guard) (x : Src) : RoundTrip.Statement (.syWait gd x) := by
  intro w h
  cases h
  exact decodeSlot_trigger gd _ x .syWait (by decide) (by decide) rfl

theorem RoundTrip.syWaitall (gd : Guard) (x : Src) : RoundTrip.Statement (.syWaitall gd x) := by
  intro w h
  cases h
  exact decodeSlot_trigger gd _ x .syWaitall (by decide) (by decide) rfl

theorem RoundTrip.syExit (gd : Guard) (x : Src) : RoundTrip.Statement (.syExit gd x) := by
  intro w h
  cases h
  exact decodeSlot_trigger gd _ x .syExit (by decide) (by decide) rfl

theorem RoundTrip.syYield (gd : Guard) (x : Src) : RoundTrip.Statement (.syYield gd x) := by
  intro w h
  cases h
  exact decodeSlot_trigger gd _ x .syYield (by decide) (by decide) rfl

theorem RoundTrip.sySusp (gd : Guard) (x : Src) : RoundTrip.Statement (.sySusp gd x) := by
  intro w h
  cases h
  exact decodeSlot_trigger gd _ x .sySusp (by decide) (by decide) rfl

theorem RoundTrip.syWtok (gd : Guard) (x : Src) : RoundTrip.Statement (.syWtok gd x) := by
  intro w h
  cases h
  exact decodeSlot_trigger gd _ x .syWtok (by decide) (by decide) rfl

theorem RoundTrip.syArmw (gd : Guard) (x : Src) : RoundTrip.Statement (.syArmw gd x) := by
  intro w h
  cases h
  exact decodeSlot_trigger gd _ x .syArmw (by decide) (by decide) rfl

theorem RoundTrip.syFencex (gd : Guard) (x : Src) : RoundTrip.Statement (.syFencex gd x) := by
  intro w h
  cases h
  exact decodeSlot_trigger gd _ x .syFencex (by decide) (by decide) rfl

theorem RoundTrip.syPhase (gd : Guard) (x : Src) : RoundTrip.Statement (.syPhase gd x) := by
  intro w h
  cases h
  exact decodeSlot_trigger gd _ x .syPhase (by decide) (by decide) rfl

theorem RoundTrip.syBar (gd : Guard) (x : Src) : RoundTrip.Statement (.syBar gd x) := by
  intro w h
  cases h
  exact decodeSlot_trigger gd _ x .syBar (by decide) (by decide) rfl

theorem RoundTrip.syArrive (gd : Guard) (x : Src) : RoundTrip.Statement (.syArrive gd x) := by
  intro w h
  cases h
  exact decodeSlot_trigger gd _ x .syArrive (by decide) (by decide) rfl

theorem RoundTrip.syBleave (gd : Guard) (x : Src) : RoundTrip.Statement (.syBleave gd x) := by
  intro w h
  cases h
  exact decodeSlot_trigger gd _ x .syBleave (by decide) (by decide) rfl

theorem RoundTrip.syTspawn (gd : Guard) (x : Src) : RoundTrip.Statement (.syTspawn gd x) := by
  intro w h
  cases h
  exact decodeSlot_trigger gd _ x .syTspawn (by decide) (by decide) rfl

theorem RoundTrip.syTdec (gd : Guard) (x : Src) : RoundTrip.Statement (.syTdec gd x) := by
  intro w h
  cases h
  exact decodeSlot_trigger gd _ x .syTdec (by decide) (by decide) rfl

theorem RoundTrip.syTinc (gd : Guard) (x : Src) : RoundTrip.Statement (.syTinc gd x) := by
  intro w h
  cases h
  exact decodeSlot_trigger gd _ x .syTinc (by decide) (by decide) rfl

theorem RoundTrip.syTkill (gd : Guard) (x : Src) : RoundTrip.Statement (.syTkill gd x) := by
  intro w h
  cases h
  exact decodeSlot_trigger gd _ x .syTkill (by decide) (by decide) rfl

theorem RoundTrip.syTread (gd : Guard) (x : Src) : RoundTrip.Statement (.syTread gd x) := by
  intro w h
  cases h
  exact decodeSlot_trigger gd _ x .syTread (by decide) (by decide) rfl

theorem RoundTrip.syTself (gd : Guard) (x : Src) : RoundTrip.Statement (.syTself gd x) := by
  intro w h
  cases h
  exact decodeSlot_trigger gd _ x .syTself (by decide) (by decide) rfl

theorem RoundTrip.syTteam (gd : Guard) (x : Src) : RoundTrip.Statement (.syTteam gd x) := by
  intro w h
  cases h
  exact decodeSlot_trigger gd _ x .syTteam (by decide) (by decide) rfl

theorem RoundTrip.syTprio (gd : Guard) (x : Src) : RoundTrip.Statement (.syTprio gd x) := by
  intro w h
  cases h
  exact decodeSlot_trigger gd _ x .syTprio (by decide) (by decide) rfl

theorem RoundTrip.syRsr (gd : Guard) (x : Src) : RoundTrip.Statement (.syRsr gd x) := by
  intro w h
  cases h
  exact decodeSlot_trigger gd _ x .syRsr (by decide) (by decide) rfl

theorem RoundTrip.syWsr (gd : Guard) (x : Src) : RoundTrip.Statement (.syWsr gd x) := by
  intro w h
  cases h
  exact decodeSlot_trigger gd _ x .syWsr (by decide) (by decide) rfl

theorem RoundTrip.syTrap (gd : Guard) (x : Src) : RoundTrip.Statement (.syTrap gd x) := by
  intro w h
  cases h
  exact decodeSlot_trigger gd _ x .syTrap (by decide) (by decide) rfl

theorem RoundTrip.syTret (gd : Guard) (x : Src) : RoundTrip.Statement (.syTret gd x) := by
  intro w h
  cases h
  exact decodeSlot_trigger gd _ x .syTret (by decide) (by decide) rfl

theorem RoundTrip.qpPush (gd : Guard) (x : Src) : RoundTrip.Statement (.qpPush gd x) := by
  intro w h
  cases h
  exact decodeSlot_trigger gd _ x .qpPush (by decide) (by decide) rfl

theorem RoundTrip.qpPushw (gd : Guard) (x : Src) : RoundTrip.Statement (.qpPushw gd x) := by
  intro w h
  cases h
  exact decodeSlot_trigger gd _ x .qpPushw (by decide) (by decide) rfl

theorem RoundTrip.qpPushn (gd : Guard) (x : Src) : RoundTrip.Statement (.qpPushn gd x) := by
  intro w h
  cases h
  exact decodeSlot_trigger gd _ x .qpPushn (by decide) (by decide) rfl

theorem RoundTrip.qpFree (gd : Guard) (x : Src) : RoundTrip.Statement (.qpFree gd x) := by
  intro w h
  cases h
  exact decodeSlot_trigger gd _ x .qpFree (by decide) (by decide) rfl

theorem RoundTrip.spSend (gd : Guard) (x : Src) : RoundTrip.Statement (.spSend gd x) := by
  intro w h
  cases h
  exact decodeSlot_trigger gd _ x .spSend (by decide) (by decide) rfl

theorem RoundTrip.spSendn (gd : Guard) (x : Src) : RoundTrip.Statement (.spSendn gd x) := by
  intro w h
  cases h
  exact decodeSlot_trigger gd _ x .spSendn (by decide) (by decide) rfl

theorem RoundTrip.spRecv (gd : Guard) (x : Src) : RoundTrip.Statement (.spRecv gd x) := by
  intro w h
  cases h
  exact decodeSlot_trigger gd _ x .spRecv (by decide) (by decide) rfl

theorem RoundTrip.spRecvn (gd : Guard) (x : Src) : RoundTrip.Statement (.spRecvn gd x) := by
  intro w h
  cases h
  exact decodeSlot_trigger gd _ x .spRecvn (by decide) (by decide) rfl

theorem RoundTrip.spCnt (gd : Guard) (x : Src) : RoundTrip.Statement (.spCnt gd x) := by
  intro w h
  cases h
  exact decodeSlot_trigger gd _ x .spCnt (by decide) (by decide) rfl

theorem RoundTrip.pwAcq (gd : Guard) (x : Src) : RoundTrip.Statement (.pwAcq gd x) := by
  intro w h
  cases h
  exact decodeSlot_trigger gd _ x .pwAcq (by decide) (by decide) rfl

theorem RoundTrip.pwRel (gd : Guard) (x : Src) : RoundTrip.Statement (.pwRel gd x) := by
  intro w h
  cases h
  exact decodeSlot_trigger gd _ x .pwRel (by decide) (by decide) rfl

theorem RoundTrip.pwCls (gd : Guard) (x : Src) : RoundTrip.Statement (.pwCls gd x) := by
  intro w h
  cases h
  exact decodeSlot_trigger gd _ x .pwCls (by decide) (by decide) rfl

theorem RoundTrip.pwDst (gd : Guard) (x : Src) : RoundTrip.Statement (.pwDst gd x) := by
  intro w h
  cases h
  exact decodeSlot_trigger gd _ x .pwDst (by decide) (by decide) rfl

theorem RoundTrip.pwGate (gd : Guard) (x : Src) : RoundTrip.Statement (.pwGate gd x) := by
  intro w h
  cases h
  exact decodeSlot_trigger gd _ x .pwGate (by decide) (by decide) rfl

theorem RoundTrip.pwUngate (gd : Guard) (x : Src) : RoundTrip.Statement (.pwUngate gd x) := by
  intro w h
  cases h
  exact decodeSlot_trigger gd _ x .pwUngate (by decide) (by decide) rfl

theorem RoundTrip.pwMsd (gd : Guard) (x : Src) : RoundTrip.Statement (.pwMsd gd x) := by
  intro w h
  cases h
  exact decodeSlot_trigger gd _ x .pwMsd (by decide) (by decide) rfl

theorem RoundTrip.pwMst (gd : Guard) (x : Src) : RoundTrip.Statement (.pwMst gd x) := by
  intro w h
  cases h
  exact decodeSlot_trigger gd _ x .pwMst (by decide) (by decide) rfl

theorem RoundTrip.operationResultWrite : RoundTrip.Statement .operationResultWrite := by
  intro w h
  exact absurd h (by simp [encode])

theorem RoundTrip.stallSuspension : RoundTrip.Statement .stallSuspension := by
  intro w h
  exact absurd h (by simp [encode])

theorem RoundTrip.spireFull : RoundTrip.Statement .spireFull := by
  intro w h
  exact absurd h (by simp [encode])

theorem RoundTrip.spireEntryArrival : RoundTrip.Statement .spireEntryArrival := by
  intro w h
  exact absurd h (by simp [encode])

theorem RoundTrip.armwTimeout : RoundTrip.Statement .armwTimeout := by
  intro w h
  exact absurd h (by simp [encode])

theorem RoundTrip.localWritePacket (space : Nat) (off : Nat) (data : Bytes) (source : Nat) : RoundTrip.Statement (.localWritePacket space off data source) := by
  intro w h
  exact absurd h (by simp [encode])

theorem RoundTrip.deviceLoadComplete (d : LoadEnd) : RoundTrip.Statement (.deviceLoadComplete d) := by
  intro w h
  exact absurd h (by simp [encode])

theorem RoundTrip.deviceAccessReply (id : Nat) : RoundTrip.Statement (.deviceAccessReply id) := by
  intro w h
  exact absurd h (by simp [encode])

theorem RoundTrip.sliceWrite (id : Nat) (held : Bool) : RoundTrip.Statement (.sliceWrite id held) := by
  intro w h
  exact absurd h (by simp [encode])

theorem RoundTrip.sliceRead (id : Nat) : RoundTrip.Statement (.sliceRead id) := by
  intro w h
  exact absurd h (by simp [encode])

theorem RoundTrip.sliceAtomic (id : Nat) (held : Bool) : RoundTrip.Statement (.sliceAtomic id held) := by
  intro w h
  exact absurd h (by simp [encode])

theorem RoundTrip.sliceLineArrival (line : Nat) : RoundTrip.Statement (.sliceLineArrival line) := by
  intro w h
  exact absurd h (by simp [encode])

theorem RoundTrip.baseDieAccess (ctx : Nat) (key : Nat) (pa : Nat) (whole : Bool) (cmp : Bool) : RoundTrip.Statement (.baseDieAccess ctx key pa whole cmp) := by
  intro w h
  exact absurd h (by simp [encode])

theorem RoundTrip.towerWalk (id : Nat) : RoundTrip.Statement (.towerWalk id) := by
  intro w h
  exact absurd h (by simp [encode])

theorem RoundTrip.shadowWalk : RoundTrip.Statement .shadowWalk := by
  intro w h
  exact absurd h (by simp [encode])

theorem RoundTrip.parkLimit : RoundTrip.Statement .parkLimit := by
  intro w h
  exact absurd h (by simp [encode])

theorem RoundTrip.freplRetry (tok : Nat) : RoundTrip.Statement (.freplRetry tok) := by
  intro w h
  exact absurd h (by simp [encode])

theorem RoundTrip.freplAbort (tok : Nat) : RoundTrip.Statement (.freplAbort tok) := by
  intro w h
  exact absurd h (by simp [encode])

theorem RoundTrip.tlbinv (tower : Nat) (val : Word) : RoundTrip.Statement (.tlbinv tower val) := by
  intro w h
  exact absurd h (by simp [encode])

theorem RoundTrip.tlbinvDone (tower : Nat) : RoundTrip.Statement (.tlbinvDone tower) := by
  intro w h
  exact absurd h (by simp [encode])

theorem RoundTrip.preq (tower : Nat) (val : Word) : RoundTrip.Statement (.preq tower val) := by
  intro w h
  exact absurd h (by simp [encode])

theorem RoundTrip.actclr (tower : Nat) : RoundTrip.Statement (.actclr tower) := by
  intro w h
  exact absurd h (by simp [encode])

theorem RoundTrip.domeRegisterWrite (tower : Nat) (num : Nat) (val : Word) : RoundTrip.Statement (.domeRegisterWrite tower num val) := by
  intro w h
  exact absurd h (by simp [encode])

theorem RoundTrip.thermalSample (stack : Nat) (deg : Nat) : RoundTrip.Statement (.thermalSample stack deg) := by
  intro w h
  exact absurd h (by simp [encode])

theorem RoundTrip.budgetWindow (d : Nat) : RoundTrip.Statement (.budgetWindow d) := by
  intro w h
  exact absurd h (by simp [encode])

theorem RoundTrip.powerGrant (d : Nat) : RoundTrip.Statement (.powerGrant d) := by
  intro w h
  exact absurd h (by simp [encode])

theorem RoundTrip.grantTimeout : RoundTrip.Statement .grantTimeout := by
  intro w h
  exact absurd h (by simp [encode])

theorem RoundTrip.domainGated (d : Nat) : RoundTrip.Statement (.domainGated d) := by
  intro w h
  exact absurd h (by simp [encode])

theorem RoundTrip.domainPowerReturn (d : Nat) : RoundTrip.Statement (.domainPowerReturn d) := by
  intro w h
  exact absurd h (by simp [encode])

theorem RoundTrip.engineCommandAccept (e : Nat) : RoundTrip.Statement (.engineCommandAccept e) := by
  intro w h
  exact absurd h (by simp [encode])

theorem RoundTrip.pushBufferDrain : RoundTrip.Statement (.pushBufferDrain) := by
  intro w h
  exact absurd h (by simp [encode])

theorem RoundTrip.engineCommandStart (e : Nat) : RoundTrip.Statement (.engineCommandStart e) := by
  intro w h
  exact absurd h (by simp [encode])

theorem RoundTrip.engineCommandComplete (e : Nat) (i : Nat) : RoundTrip.Statement (.engineCommandComplete e i) := by
  intro w h
  exact absurd h (by simp [encode])

theorem RoundTrip.streamSbpop (e : Nat) (n : Nat) : RoundTrip.Statement (.streamSbpop e n) := by
  intro w h
  exact absurd h (by simp [encode])

theorem RoundTrip.streamSbpush (e : Nat) (data : Bytes) : RoundTrip.Statement (.streamSbpush e data) := by
  intro w h
  exact absurd h (by simp [encode])

theorem RoundTrip.routineEcall (e : Nat) (a0 : Word) : RoundTrip.Statement (.routineEcall e a0) := by
  intro w h
  exact absurd h (by simp [encode])

theorem RoundTrip.routineWatchdog (e : Nat) : RoundTrip.Statement (.routineWatchdog e) := by
  intro w h
  exact absurd h (by simp [encode])

theorem RoundTrip.collectiveAbort (e : Nat) : RoundTrip.Statement (.collectiveAbort e) := by
  intro w h
  exact absurd h (by simp [encode])

theorem RoundTrip.combineArrival (r : Nat) (id : Nat) : RoundTrip.Statement (.combineArrival r id) := by
  intro w h
  exact absurd h (by simp [encode])

theorem RoundTrip.waitBufferRelease (r : Nat) : RoundTrip.Statement (.waitBufferRelease r) := by
  intro w h
  exact absurd h (by simp [encode])

theorem RoundTrip.splitReply (r : Nat) (id : Nat) : RoundTrip.Statement (.splitReply r id) := by
  intro w h
  exact absurd h (by simp [encode])

theorem RoundTrip.chainStep (id : Nat) : RoundTrip.Statement (.chainStep id) := by
  intro w h
  exact absurd h (by simp [encode])

theorem RoundTrip.chainReturn (id : Nat) : RoundTrip.Statement (.chainReturn id) := by
  intro w h
  exact absurd h (by simp [encode])

theorem RoundTrip.mxOpStart : RoundTrip.Statement .mxOpStart := by
  intro w h
  exact absurd h (by simp [encode])

theorem RoundTrip.mxRangeRelease : RoundTrip.Statement .mxRangeRelease := by
  intro w h
  exact absurd h (by simp [encode])

theorem RoundTrip.mxStreamWait : RoundTrip.Statement .mxStreamWait := by
  intro w h
  exact absurd h (by simp [encode])

theorem RoundTrip.mxOpComplete : RoundTrip.Statement .mxOpComplete := by
  intro w h
  exact absurd h (by simp [encode])

theorem RoundTrip.barrierArrival (id : Nat) : RoundTrip.Statement (.barrierArrival id) := by
  intro w h
  exact absurd h (by simp [encode])

theorem RoundTrip.taskExitReport (tid : Nat) : RoundTrip.Statement (.taskExitReport tid) := by
  intro w h
  exact absurd h (by simp [encode])

theorem RoundTrip.taskWake (tid : Nat) : RoundTrip.Statement (.taskWake tid) := by
  intro w h
  exact absurd h (by simp [encode])

theorem RoundTrip.brickTakesWork : RoundTrip.Statement .brickTakesWork := by
  intro w h
  exact absurd h (by simp [encode])

theorem RoundTrip.dispatch : RoundTrip.Statement .dispatch := by
  intro w h
  exact absurd h (by simp [encode])

theorem RoundTrip.teamDispatch (tower : Nat) : RoundTrip.Statement (.teamDispatch tower) := by
  intro w h
  exact absurd h (by simp [encode])

theorem RoundTrip.localQueueRecall : RoundTrip.Statement .localQueueRecall := by
  intro w h
  exact absurd h (by simp [encode])

theorem RoundTrip.queueRefill (tower : Nat) (prio : Nat) : RoundTrip.Statement (.queueRefill tower prio) := by
  intro w h
  exact absurd h (by simp [encode])

theorem RoundTrip.balancingRound (tower : Nat) : RoundTrip.Statement (.balancingRound tower) := by
  intro w h
  exact absurd h (by simp [encode])

theorem RoundTrip.teamSliceEnd (launch : Nat) : RoundTrip.Statement (.teamSliceEnd launch) := by
  intro w h
  exact absurd h (by simp [encode])

theorem RoundTrip.preempt : RoundTrip.Statement .preempt := by
  intro w h
  exact absurd h (by simp [encode])

theorem RoundTrip.restore (tid : Nat) : RoundTrip.Statement (.restore tid) := by
  intro w h
  exact absurd h (by simp [encode])

theorem RoundTrip.savedImageWrite (tid : Nat) (space : Nat) (off : Nat) (data : Bytes) : RoundTrip.Statement (.savedImageWrite tid space off data) := by
  intro w h
  exact absurd h (by simp [encode])

theorem RoundTrip.gangSliceStart (i : Nat) : RoundTrip.Statement (.gangSliceStart i) := by
  intro w h
  exact absurd h (by simp [encode])

theorem RoundTrip.gangSliceEnd : RoundTrip.Statement .gangSliceEnd := by
  intro w h
  exact absurd h (by simp [encode])

theorem RoundTrip.gangSkewExpiry : RoundTrip.Statement .gangSkewExpiry := by
  intro w h
  exact absurd h (by simp [encode])

theorem RoundTrip.gangAbort : RoundTrip.Statement .gangAbort := by
  intro w h
  exact absurd h (by simp [encode])

theorem RoundTrip.launchRingWake (ctx : Nat) : RoundTrip.Statement (.launchRingWake ctx) := by
  intro w h
  exact absurd h (by simp [encode])

theorem RoundTrip.launchExpand : RoundTrip.Statement .launchExpand := by
  intro w h
  exact absurd h (by simp [encode])

theorem RoundTrip.launchComplete (launch : Nat) : RoundTrip.Statement (.launchComplete launch) := by
  intro w h
  exact absurd h (by simp [encode])

theorem RoundTrip.msdComplete (id : Nat) : RoundTrip.Statement (.msdComplete id) := by
  intro w h
  exact absurd h (by simp [encode])

theorem RoundTrip.holdupFreeze : RoundTrip.Statement .holdupFreeze := by
  intro w h
  exact absurd h (by simp [encode])

theorem RoundTrip.holdupSave (n : Nat) : RoundTrip.Statement (.holdupSave n) := by
  intro w h
  exact absurd h (by simp [encode])

theorem RoundTrip.holdupSeal : RoundTrip.Statement .holdupSeal := by
  intro w h
  exact absurd h (by simp [encode])

theorem RoundTrip.supplyReturn : RoundTrip.Statement .supplyReturn := by
  intro w h
  exact absurd h (by simp [encode])

theorem RoundTrip.reset : RoundTrip.Statement .reset := by
  intro w h
  exact absurd h (by simp [encode])

theorem RoundTrip.rdmaWrite (port : Nat) (qp : Nat) (rkey : Nat) (va : Nat) (data : Bytes) : RoundTrip.Statement (.rdmaWrite port qp rkey va data) := by
  intro w h
  exact absurd h (by simp [encode])

theorem RoundTrip.rdmaRead (port : Nat) (qp : Nat) (rkey : Nat) (va : Nat) (len : Nat) : RoundTrip.Statement (.rdmaRead port qp rkey va len) := by
  intro w h
  exact absurd h (by simp [encode])

theorem RoundTrip.atomicFetchAdd (port : Nat) (qp : Nat) (rkey : Nat) (va : Nat) (add : Word) : RoundTrip.Statement (.atomicFetchAdd port qp rkey va add) := by
  intro w h
  exact absurd h (by simp [encode])

theorem RoundTrip.atomicCmpSwap (port : Nat) (qp : Nat) (rkey : Nat) (va : Nat) (cmp : Word) (swap : Word) : RoundTrip.Statement (.atomicCmpSwap port qp rkey va cmp swap) := by
  intro w h
  exact absurd h (by simp [encode])

theorem RoundTrip.readConfiguration (h : MgmtHeader) (pl : Bytes) : RoundTrip.Statement (.readConfiguration h pl) := by
  intro w h
  exact absurd h (by simp [encode])

theorem RoundTrip.readDomeRegister (h : MgmtHeader) (pl : Bytes) : RoundTrip.Statement (.readDomeRegister h pl) := by
  intro w h
  exact absurd h (by simp [encode])

theorem RoundTrip.writeDomeRegister (h : MgmtHeader) (pl : Bytes) : RoundTrip.Statement (.writeDomeRegister h pl) := by
  intro w h
  exact absurd h (by simp [encode])

theorem RoundTrip.setContext (h : MgmtHeader) (pl : Bytes) : RoundTrip.Statement (.setContext h pl) := by
  intro w h
  exact absurd h (by simp [encode])

theorem RoundTrip.setWindow (h : MgmtHeader) (pl : Bytes) : RoundTrip.Statement (.setWindow h pl) := by
  intro w h
  exact absurd h (by simp [encode])

theorem RoundTrip.setRegion (h : MgmtHeader) (pl : Bytes) : RoundTrip.Statement (.setRegion h pl) := by
  intro w h
  exact absurd h (by simp [encode])

theorem RoundTrip.openKeyTransport (h : MgmtHeader) (pl : Bytes) : RoundTrip.Statement (.openKeyTransport h pl) := by
  intro w h
  exact absurd h (by simp [encode])

theorem RoundTrip.loadKey (h : MgmtHeader) (pl : Bytes) : RoundTrip.Statement (.loadKey h pl) := by
  intro w h
  exact absurd h (by simp [encode])

theorem RoundTrip.clearKey (h : MgmtHeader) (pl : Bytes) : RoundTrip.Statement (.clearKey h pl) := by
  intro w h
  exact absurd h (by simp [encode])

theorem RoundTrip.keySlotCleared (slot : Nat) : RoundTrip.Statement (.keySlotCleared slot) := by
  intro w h
  exact absurd h (by simp [encode])

theorem RoundTrip.attest (h : MgmtHeader) (pl : Bytes) : RoundTrip.Statement (.attest h pl) := by
  intro w h
  exact absurd h (by simp [encode])

theorem RoundTrip.debugNonce (h : MgmtHeader) (pl : Bytes) : RoundTrip.Statement (.debugNonce h pl) := by
  intro w h
  exact absurd h (by simp [encode])

theorem RoundTrip.debugUnlock (h : MgmtHeader) (pl : Bytes) : RoundTrip.Statement (.debugUnlock h pl) := by
  intro w h
  exact absurd h (by simp [encode])

theorem RoundTrip.debugRevoke (h : MgmtHeader) (pl : Bytes) : RoundTrip.Statement (.debugRevoke h pl) := by
  intro w h
  exact absurd h (by simp [encode])

theorem RoundTrip.restartReport (h : MgmtHeader) (pl : Bytes) : RoundTrip.Statement (.restartReport h pl) := by
  intro w h
  exact absurd h (by simp [encode])

theorem RoundTrip.readKeep (h : MgmtHeader) (pl : Bytes) : RoundTrip.Statement (.readKeep h pl) := by
  intro w h
  exact absurd h (by simp [encode])

theorem RoundTrip.stageFirmware (h : MgmtHeader) (pl : Bytes) : RoundTrip.Statement (.stageFirmware h pl) := by
  intro w h
  exact absurd h (by simp [encode])

theorem RoundTrip.commitFirmware (h : MgmtHeader) (pl : Bytes) : RoundTrip.Statement (.commitFirmware h pl) := by
  intro w h
  exact absurd h (by simp [encode])

theorem RoundTrip.setGroup (h : MgmtHeader) (pl : Bytes) : RoundTrip.Statement (.setGroup h pl) := by
  intro w h
  exact absurd h (by simp [encode])

theorem RoundTrip.setNode (h : MgmtHeader) (pl : Bytes) : RoundTrip.Statement (.setNode h pl) := by
  intro w h
  exact absurd h (by simp [encode])

theorem RoundTrip.readLogs (h : MgmtHeader) (pl : Bytes) : RoundTrip.Statement (.readLogs h pl) := by
  intro w h
  exact absurd h (by simp [encode])

theorem RoundTrip.flitReceive (link : Nat) (flit : Bytes) : RoundTrip.Statement (.flitReceive link flit) := by
  intro w h
  exact absurd h (by simp [encode])

theorem RoundTrip.fabricStore (src : FabSource) (pa : Nat) (q : FabAccess) (d : FabData) (tag : Nat) : RoundTrip.Statement (.fabricStore src pa q d tag) := by
  intro w h
  exact absurd h (by simp [encode])

theorem RoundTrip.fabricLoad (src : FabSource) (pa : Nat) (q : FabAccess) (len : Nat) (tag : Nat) : RoundTrip.Statement (.fabricLoad src pa q len tag) := by
  intro w h
  exact absurd h (by simp [encode])

theorem RoundTrip.fabricLoadReply (id : Nat) (data : Bytes) (r : FabEnd) : RoundTrip.Statement (.fabricLoadReply id data r) := by
  intro w h
  exact absurd h (by simp [encode])

theorem RoundTrip.fabricAtomic (q : FabReq) (pa : Nat) (op : Nat) (w8 : Bool) (mode : Nat) (opd : Word) (cmp : Word) (poisoned : Bool) : RoundTrip.Statement (.fabricAtomic q pa op w8 mode opd cmp poisoned) := by
  intro w h
  exact absurd h (by simp [encode])

theorem RoundTrip.fabricCombinableAtomic (q : FabReq) (pa : Nat) (op : Nat) (w8 : Bool) (mode : Nat) (opd : Word) (poisoned : Bool) : RoundTrip.Statement (.fabricCombinableAtomic q pa op w8 mode opd poisoned) := by
  intro w h
  exact absurd h (by simp [encode])

theorem RoundTrip.fabricAtomicReply (id : Nat) (old : Word) (flags : BitVec 7) (status : Nat) (kind : Nat) : RoundTrip.Statement (.fabricAtomicReply id old flags status kind) := by
  intro w h
  exact absurd h (by simp [encode])

theorem RoundTrip.fabricChainStep (p : FabPacket) : RoundTrip.Statement (.fabricChainStep p) := by
  intro w h
  exact absurd h (by simp [encode])

theorem RoundTrip.fabricChainReturn (id : Nat) (status : Nat) (kind : Nat) (step : Nat) (addr : Nat) (val : Word) : RoundTrip.Statement (.fabricChainReturn id status kind step addr val) := by
  intro w h
  exact absurd h (by simp [encode])

theorem RoundTrip.fabricCollective (e : Nat) (rank : Nat) (d : FabPart) : RoundTrip.Statement (.fabricCollective e rank d) := by
  intro w h
  exact absurd h (by simp [encode])

theorem RoundTrip.fabricControl (src : Nat) (gang : Option Nat) (time : Nat) : RoundTrip.Statement (.fabricControl src gang time) := by
  intro w h
  exact absurd h (by simp [encode])

theorem RoundTrip.fabricAcknowledgement (a : FabAck) : RoundTrip.Statement (.fabricAcknowledgement a) := by
  intro w h
  exact absurd h (by simp [encode])

theorem RoundTrip.fabricTimeSync : RoundTrip.Statement .fabricTimeSync := by
  intro w h
  exact absurd h (by simp [encode])

theorem RoundTrip.linkLaneChange (link : Nat) (use : Nat) : RoundTrip.Statement (.linkLaneChange link use) := by
  intro w h
  exact absurd h (by simp [encode])

theorem RoundTrip.linkDown (link : Nat) : RoundTrip.Statement (.linkDown link) := by
  intro w h
  exact absurd h (by simp [encode])

theorem RoundTrip.supplyEnd : RoundTrip.Statement .supplyEnd := by
  intro w h
  exact absurd h (by simp [encode])

theorem RoundTrip.linkTraining (link : Nat) (combines : Bool) : RoundTrip.Statement (.linkTraining link combines) := by
  intro w h
  exact absurd h (by simp [encode])

theorem RoundTrip.halt (brick : Nat) : RoundTrip.Statement (.halt brick) := by
  intro w h
  exact absurd h (by simp [encode])

theorem RoundTrip.haltResume (brick : Nat) : RoundTrip.Statement (.haltResume brick) := by
  intro w h
  exact absurd h (by simp [encode])

theorem RoundTrip.lockFuseBlow : RoundTrip.Statement .lockFuseBlow := by
  intro w h
  exact absurd h (by simp [encode])

theorem RoundTrip.brickRetirement (brick : Nat) : RoundTrip.Statement (.brickRetirement brick) := by
  intro w h
  exact absurd h (by simp [encode])

theorem RoundTrip.bStreamDelivery : RoundTrip.Statement .bStreamDelivery := by
  intro w h
  exact absurd h (by simp [encode])

theorem RoundTrip.hostResponse (e : Nat) (i : Nat) (ok : Bool) (data : Bytes) : RoundTrip.Statement (.hostResponse e i ok data) := by
  intro w h
  exact absurd h (by simp [encode])

theorem RoundTrip.retryExhaustion (e : Nat) (i : Nat) : RoundTrip.Statement (.retryExhaustion e i) := by
  intro w h
  exact absurd h (by simp [encode])

theorem RoundTrip.streamCoreTrap (e : Nat) (mcause : Word) : RoundTrip.Statement (.streamCoreTrap e mcause) := by
  intro w h
  exact absurd h (by simp [encode])

theorem RoundTrip.gangSliceBroadcast (i : Nat) (start : Nat) : RoundTrip.Statement (.gangSliceBroadcast i start) := by
  intro w h
  exact absurd h (by simp [encode])

theorem RoundTrip.pauseFrame (port : Nat) (pause : Bool) : RoundTrip.Statement (.pauseFrame port pause) := by
  intro w h
  exact absurd h (by simp [encode])

end Sys2Proof.Laws
end

