-- ==== Sys2Proof/Tests/Slice0.lean ====
section
/-!
SUPPORT. Tests: the ill-formed terms that WellFormed refuses, the words of every slot, single steps, and for each statement
a state that meets its hypotheses.
-/

namespace Sys2Proof.Tests

open Sys2Proof Sys2Proof.Machine

set_option Elab.async false
set_option maxRecDepth 100000

/-! ## WellFormed: an ill-formed term for each check -/

def badPort : MgmtHeader := ⟨4, 0, 0, 0, 0⟩

theorem test_illFormed_parts : ∀ i ∈ ([.localWritePacket 3 0 [] 0, .localWritePacket 0 0 (List.replicate 65 0) 0, .tlbinv 2 0,
    .tlbinvDone 2, .preq 2 0, .actclr 2, .domeRegisterWrite 2 0 0, .thermalSample 12 0, .thermalSample 0 256, .budgetWindow 16,
    .powerGrant 16, .domainGated 16, .domainPowerReturn 16, .engineCommandAccept 34, .engineCommandStart 34,
    .engineCommandComplete 34 0, .engineCommandComplete 0 4, .streamSbpop 32 0, .streamSbpush 32 [], .routineEcall 32 0,
    .routineWatchdog 32, .collectiveAbort 31, .collectiveAbort 34, .teamDispatch 2, .queueRefill 2 0, .queueRefill 0 4,
    .balancingRound 2, .savedImageWrite 0 3 0 [], .gangSliceStart 16, .keySlotCleared 128] : List Instr),
    i.wellFormed = false := by decide +kernel

theorem test_illFormed_ports : ∀ i ∈ ([.rdmaWrite 4 0 0 0 [], .rdmaRead 4 0 0 0 1, .atomicFetchAdd 4 0 0 0 0,
    .atomicCmpSwap 4 0 0 0 0 0, .readConfiguration badPort [], .readDomeRegister badPort [], .writeDomeRegister badPort [],
    .setContext badPort [], .setWindow badPort [], .setRegion badPort [], .openKeyTransport badPort [], .loadKey badPort [],
    .clearKey badPort [], .attest badPort [], .debugNonce badPort [], .debugUnlock badPort [], .debugRevoke badPort [],
    .restartReport badPort [], .readKeep badPort [], .stageFirmware badPort [], .commitFirmware badPort [], .setGroup badPort [],
    .setNode badPort [], .readLogs badPort []] : List Instr), i.wellFormed = false := by decide +kernel

theorem test_illFormed_links : ∀ i ∈ ([.flitReceive 36 (List.replicate 256 0), .flitReceive 0 [0], .fabricCollective 31 0 ⟨⟨[], false⟩, 36⟩,
    .fabricCollective 34 0 ⟨⟨[], false⟩, 0⟩, .linkLaneChange 36 0, .linkDown 36, .linkTraining 36 true, .halt 768, .haltResume 768,
    .brickRetirement 768, .hostResponse 34 0 true [], .hostResponse 0 4 true [], .retryExhaustion 34 0, .retryExhaustion 0 4,
    .streamCoreTrap 32 0, .gangSliceBroadcast 16 0, .pauseFrame 4 true] : List Instr), i.wellFormed = false := by decide +kernel

theorem test_wellFormed : ∀ i ∈ ([.iaAdd .always .ia1 .lit, .localWritePacket 2 0 (List.replicate 64 0) 0, .thermalSample 11 255,
    .flitReceive 35 (List.replicate 256 0), .halt 767, .collectiveAbort 33] : List Instr), i.wellFormed = true := by decide +kernel

/-! ## Decoding: one word of every slot, from the code tables of the spec (R145 to R152); the events have no words -/

theorem test_words_Slots : ∀ p ∈ ([
    (0x712345, .literalSignExtending 0x12345), (0xF12345, .literalZeroExtending 0x12345), (0x800000, .emptySlot),
    (0x300403, .move (.on 2) (.g 3) (.g 1))] : List (Nat × Instr)), (decodeSlot (BitVec.ofNat 24 p.1)).toOption = some p.2 := by decide +kernel

theorem test_words_Integer : ∀ p ∈ ([
    (0x330003, .iaAdd (.on 2) .ia1 (.g 3)), (0x330403, .iaSub (.on 2) .ia1 (.g 3)), (0x330803, .iaAdc (.on 2) .ia1 (.g 3)),
    (0x330C03, .iaSbc (.on 2) .ia1 (.g 3)), (0x331003, .iaAdds (.on 2) .ia1 (.g 3)), (0x331403, .iaSubs (.on 2) .ia1 (.g 3)),
    (0x331803, .iaMin (.on 2) .ia1 (.g 3)), (0x331C03, .iaMax (.on 2) .ia1 (.g 3)), (0x332003, .iaMinu (.on 2) .ia1 (.g 3)),
    (0x332403, .iaMaxu (.on 2) .ia1 (.g 3)), (0x332803, .iaAbs (.on 2) .ia1 (.g 3)), (0x332C03, .iaMul (.on 2) .ia1 (.g 3)),
    (0x333003, .iaMulu (.on 2) .ia1 (.g 3)), (0x333403, .iaMulsu (.on 2) .ia1 (.g 3)), (0x333803, .iaDiv (.on 2) .ia1 (.g 3)),
    (0x333C03, .iaDivu (.on 2) .ia1 (.g 3)), (0x334003, .iaAnd (.on 2) .ia1 (.g 3)), (0x334403, .iaOr (.on 2) .ia1 (.g 3)),
    (0x334803, .iaXor (.on 2) .ia1 (.g 3)), (0x334C03, .iaAndn (.on 2) .ia1 (.g 3)), (0x335003, .iaShl (.on 2) .ia1 (.g 3)),
    (0x335403, .iaShr (.on 2) .ia1 (.g 3)), (0x335803, .iaSar (.on 2) .ia1 (.g 3)), (0x335C03, .iaRol (.on 2) .ia1 (.g 3)),
    (0x336003, .iaRor (.on 2) .ia1 (.g 3)), (0x336403, .iaClz (.on 2) .ia1 (.g 3)), (0x336803, .iaCtz (.on 2) .ia1 (.g 3)),
    (0x336C03, .iaPopc (.on 2) .ia1 (.g 3)), (0x337003, .iaBext (.on 2) .ia1 (.g 3)), (0x337403, .iaBexts (.on 2) .ia1 (.g 3)),
    (0x337803, .iaSeq (.on 2) .ia1 (.g 3)), (0x337C03, .iaSne (.on 2) .ia1 (.g 3)), (0x338003, .iaSlt (.on 2) .ia1 (.g 3)),
    (0x338403, .iaSltu (.on 2) .ia1 (.g 3)), (0x338803, .iaSle (.on 2) .ia1 (.g 3)), (0x338C03, .iaSleu (.on 2) .ia1 (.g 3)),
    (0x339003, .iaSext (.on 2) .ia1 (.g 3)), (0x339403, .iaZext (.on 2) .ia1 (.g 3)), (0x339803, .iaBswap (.on 2) .ia1 (.g 3))] : List (Nat × Instr)), (decodeSlot (BitVec.ofNat 24 p.1)).toOption = some p.2 := by decide +kernel

theorem test_words_Address : ∀ p ∈ ([
    (0x340003, .agAdd (.on 2) (.g 3)), (0x340403, .agIdx (.on 2) (.g 3)), (0x340803, .agPost (.on 2) (.g 3)),
    (0x340C03, .agPre (.on 2) (.g 3)), (0x341003, .agRing (.on 2) (.g 3)), (0x341403, .agAlign (.on 2) (.g 3)),
    (0x341803, .agSlot (.on 2) (.g 3)), (0x341C03, .agAcc (.on 2) (.g 3))] : List (Nat × Instr)), (decodeSlot (BitVec.ofNat 24 p.1)).toOption = some p.2 := by decide +kernel

theorem test_words_LoadStore1 : ∀ p ∈ ([
    (0x348003, .lsSldB (.on 2) (.g 3)), (0x348403, .lsSldBu (.on 2) (.g 3)), (0x348803, .lsSldH (.on 2) (.g 3)),
    (0x348C03, .lsSldHu (.on 2) (.g 3)), (0x349003, .lsSldW (.on 2) (.g 3)), (0x349403, .lsSldWu (.on 2) (.g 3)),
    (0x349803, .lsSldD (.on 2) (.g 3)), (0x349C03, .lsSvld (.on 2) (.g 3)), (0x34A003, .lsSstB (.on 2) (.g 3)),
    (0x34A403, .lsSstH (.on 2) (.g 3)), (0x34A803, .lsSstW (.on 2) (.g 3)), (0x34AC03, .lsSstD (.on 2) (.g 3)),
    (0x34B003, .lsSvst (.on 2) (.g 3)), (0x34C003, .lsLdB (.on 2) (.g 3)), (0x34C403, .lsLdBu (.on 2) (.g 3)),
    (0x34C803, .lsLdH (.on 2) (.g 3)), (0x34CC03, .lsLdHu (.on 2) (.g 3)), (0x34D003, .lsLdW (.on 2) (.g 3)),
    (0x34D403, .lsLdWu (.on 2) (.g 3)), (0x34D803, .lsLdD (.on 2) (.g 3)), (0x34DC03, .lsLdQ (.on 2) (.g 3)),
    (0x34E003, .lsVld (.on 2) (.g 3)), (0x34E403, .lsLdWAcq (.on 2) (.g 3)), (0x34E803, .lsLdDAcq (.on 2) (.g 3)),
    (0x350003, .lsStB (.on 2) (.g 3)), (0x350403, .lsStH (.on 2) (.g 3)), (0x350803, .lsStW (.on 2) (.g 3)),
    (0x350C03, .lsStD (.on 2) (.g 3)), (0x351003, .lsStQ (.on 2) (.g 3)), (0x351403, .lsVst (.on 2) (.g 3)),
    (0x351803, .lsStWRel (.on 2) (.g 3)), (0x351C03, .lsStDRel (.on 2) (.g 3)), (0x352003, .lsRstD (.on 2) (.g 3)),
    (0x354003, .lsAmoAdd (.on 2) (.g 3)), (0x354403, .lsAmoAnd (.on 2) (.g 3)), (0x354803, .lsAmoOr (.on 2) (.g 3)),
    (0x354C03, .lsAmoXor (.on 2) (.g 3)), (0x355003, .lsAmoMin (.on 2) (.g 3)), (0x355403, .lsAmoMax (.on 2) (.g 3)),
    (0x355803, .lsAmoMinu (.on 2) (.g 3))] : List (Nat × Instr)), (decodeSlot (BitVec.ofNat 24 p.1)).toOption = some p.2 := by decide +kernel

theorem test_words_LoadStore2 : ∀ p ∈ ([
    (0x355C03, .lsAmoMaxu (.on 2) (.g 3)), (0x356003, .lsAmoSwap (.on 2) (.g 3)), (0x356403, .lsAmoCas (.on 2) (.g 3)),
    (0x356803, .lsAmoFadd (.on 2) (.g 3)), (0x358003, .lsAmoAddC (.on 2) (.g 3)), (0x358403, .lsAmoAndC (.on 2) (.g 3)),
    (0x358803, .lsAmoOrC (.on 2) (.g 3)), (0x358C03, .lsAmoXorC (.on 2) (.g 3)), (0x359003, .lsAmoMinC (.on 2) (.g 3)),
    (0x359403, .lsAmoMaxC (.on 2) (.g 3)), (0x359803, .lsAmoMinuC (.on 2) (.g 3)), (0x359C03, .lsAmoMaxuC (.on 2) (.g 3)),
    (0x35A003, .lsAmoSwapC (.on 2) (.g 3)), (0x35A403, .lsAmoFaddComb (.on 2) (.g 3)), (0x35C003, .lsChld (.on 2) (.g 3)),
    (0x35C403, .lsTlk (.on 2) (.g 3)), (0x35C803, .lsTget (.on 2) (.g 3)), (0x35CC03, .lsTset (.on 2) (.g 3)),
    (0x35D003, .lsLarm (.on 2) (.g 3))] : List (Nat × Instr)), (decodeSlot (BitVec.ofNat 24 p.1)).toOption = some p.2 := by decide +kernel

theorem test_words_Vector1 : ∀ p ∈ ([
    (0x370003, .vxVaddI32 (.on 2) (.g 3)), (0x370403, .vxVsubI32 (.on 2) (.g 3)), (0x370803, .vxVaddsI32 (.on 2) (.g 3)),
    (0x370C03, .vxVsubsI32 (.on 2) (.g 3)), (0x371003, .vxVaddsuI32 (.on 2) (.g 3)), (0x371403, .vxVsubsuI32 (.on 2) (.g 3)),
    (0x371803, .vxVmulI32 (.on 2) (.g 3)), (0x371C03, .vxVmulhI32 (.on 2) (.g 3)), (0x372003, .vxVminI32 (.on 2) (.g 3)),
    (0x372403, .vxVmaxI32 (.on 2) (.g 3)), (0x372803, .vxVminuI32 (.on 2) (.g 3)), (0x372C03, .vxVmaxuI32 (.on 2) (.g 3)),
    (0x373003, .vxVand (.on 2) (.g 3)), (0x373403, .vxVor (.on 2) (.g 3)), (0x373803, .vxVxor (.on 2) (.g 3)),
    (0x373C03, .vxVshl (.on 2) (.g 3)), (0x374003, .vxVshr (.on 2) (.g 3)), (0x374403, .vxVsar (.on 2) (.g 3)),
    (0x374803, .vxVsel (.on 2) (.g 3)), (0x378003, .vxVaddF32 (.on 2) (.g 3)), (0x378403, .vxVsubF32 (.on 2) (.g 3)),
    (0x378803, .vxVmulF32 (.on 2) (.g 3)), (0x378C03, .vxVfmaF32 (.on 2) (.g 3)), (0x379003, .vxVfmsF32 (.on 2) (.g 3)),
    (0x379403, .vxVminF32 (.on 2) (.g 3)), (0x379803, .vxVmaxF32 (.on 2) (.g 3)), (0x379C03, .vxVdivF32 (.on 2) (.g 3)),
    (0x37A003, .vxVsqrtF32 (.on 2) (.g 3)), (0x37A403, .vxVabsF32 (.on 2) (.g 3)), (0x37A803, .vxVnegF32 (.on 2) (.g 3)),
    (0x37C003, .vxVrcpeF32 (.on 2) (.g 3)), (0x37C403, .vxVrsqrteF32 (.on 2) (.g 3)), (0x37C803, .vxVexp2F32 (.on 2) (.g 3)),
    (0x37CC03, .vxVlog2F32 (.on 2) (.g 3)), (0x37D003, .vxVtanhF32 (.on 2) (.g 3)), (0x380003, .vxVceqI32 (.on 2) (.g 3)),
    (0x380403, .vxVcltI32 (.on 2) (.g 3)), (0x380803, .vxVcleI32 (.on 2) (.g 3)), (0x380C03, .vxVcltuI32 (.on 2) (.g 3)),
    (0x381003, .vxVcleuI32 (.on 2) (.g 3))] : List (Nat × Instr)), (decodeSlot (BitVec.ofNat 24 p.1)).toOption = some p.2 := by decide +kernel

theorem test_words_Vector2 : ∀ p ∈ ([
    (0x381403, .vxVceqF32 (.on 2) (.g 3)), (0x381803, .vxVcltF32 (.on 2) (.g 3)), (0x381C03, .vxVcleF32 (.on 2) (.g 3)),
    (0x382003, .vxVcunF32 (.on 2) (.g 3)), (0x384003, .vxMand (.on 2) (.g 3)), (0x384403, .vxMor (.on 2) (.g 3)),
    (0x384803, .vxMxor (.on 2) (.g 3)), (0x384C03, .vxMandn (.on 2) (.g 3)), (0x385003, .vxMset (.on 2) (.g 3)),
    (0x385403, .vxMget (.on 2) (.g 3)), (0x385803, .vxMpopc (.on 2) (.g 3)), (0x385C03, .vxMfirst (.on 2) (.g 3)),
    (0x386003, .vxVany (.on 2) (.g 3)), (0x386403, .vxVall (.on 2) (.g 3)), (0x388003, .vxVcvt (.on 2) (.g 3)),
    (0x388403, .vxVcvtSc (.on 2) (.g 3)), (0x38C003, .vxVmov (.on 2) (.g 3)), (0x38C403, .vxVbcast (.on 2) (.g 3)),
    (0x38C803, .vxVins (.on 2) (.g 3)), (0x38CC03, .vxVext (.on 2) (.g 3)), (0x38D003, .vxVperm (.on 2) (.g 3)),
    (0x38D403, .vxVrot (.on 2) (.g 3)), (0x38D803, .vxVzipLo (.on 2) (.g 3)), (0x38DC03, .vxVzipHi (.on 2) (.g 3)),
    (0x38E003, .vxVcomp (.on 2) (.g 3)), (0x390003, .vxVraddI32 (.on 2) (.g 3)), (0x390403, .vxVraddF32 (.on 2) (.g 3)),
    (0x390803, .vxVrminI32 (.on 2) (.g 3)), (0x390C03, .vxVrmaxI32 (.on 2) (.g 3)), (0x391003, .vxVrminuI32 (.on 2) (.g 3)),
    (0x391403, .vxVrmaxuI32 (.on 2) (.g 3)), (0x391803, .vxVrminF32 (.on 2) (.g 3)), (0x391C03, .vxVrmaxF32 (.on 2) (.g 3)),
    (0x394003, .vxVdotG16 (.on 2) (.g 3)), (0x394403, .vxRnd32 (.on 2) (.g 3)), (0x394803, .vxViota (.on 2) (.g 3))] : List (Nat × Instr)), (decodeSlot (BitVec.ofNat 24 p.1)).toOption = some p.2 := by decide +kernel

theorem test_words_Matrix : ∀ p ∈ ([
    (0x3B0003, .mxMm (.on 2) (.g 3)), (0x3B0403, .mxMmT (.on 2) (.g 3)), (0x3B0803, .mxMmc (.on 2) (.g 3)),
    (0x3B0C03, .mxMms (.on 2) (.g 3)), (0x3B1003, .mxMmsT (.on 2) (.g 3)), (0x3B1403, .mxMmcs (.on 2) (.g 3)),
    (0x3B1803, .mxCclr (.on 2) (.g 3)), (0x3B1C03, .mxCacc (.on 2) (.g 3)), (0x3B2003, .mxCscl (.on 2) (.g 3)),
    (0x3B2403, .mxStat (.on 2) (.g 3)), (0x3B2803, .mxDrain (.on 2) (.g 3)), (0x3B2C03, .mxDrainq (.on 2) (.g 3))] : List (Nat × Instr)), (decodeSlot (BitVec.ofNat 24 p.1)).toOption = some p.2 := by decide +kernel

theorem test_words_Branch : ∀ p ∈ ([
    (0x3B8003, .brTgt (.on 2) (.g 3)), (0x3B8403, .brCeq (.on 2) (.g 3)), (0x3B8803, .brCne (.on 2) (.g 3)),
    (0x3B8C03, .brClt (.on 2) (.g 3)), (0x3B9003, .brCge (.on 2) (.g 3)), (0x3B9403, .brCltu (.on 2) (.g 3)),
    (0x3B9803, .brCgeu (.on 2) (.g 3)), (0x3B9C03, .brJmp (.on 2) (.g 3)), (0x3BA003, .brJt (.on 2) (.g 3)),
    (0x3BA403, .brCall (.on 2) (.g 3)), (0x3BA803, .brRet (.on 2) (.g 3)), (0x3BAC03, .brLoop (.on 2) (.g 3))] : List (Nat × Instr)), (decodeSlot (BitVec.ofNat 24 p.1)).toOption = some p.2 := by decide +kernel

theorem test_words_Sync : ∀ p ∈ ([
    (0x3C0003, .syWait (.on 2) (.g 3)), (0x3C0403, .syWaitall (.on 2) (.g 3)), (0x3C0803, .syExit (.on 2) (.g 3)),
    (0x3C0C03, .syYield (.on 2) (.g 3)), (0x3C1003, .sySusp (.on 2) (.g 3)), (0x3C1403, .syWtok (.on 2) (.g 3)),
    (0x3C1803, .syArmw (.on 2) (.g 3)), (0x3C1C03, .syFencex (.on 2) (.g 3)), (0x3C2003, .syPhase (.on 2) (.g 3)),
    (0x3C2403, .syBar (.on 2) (.g 3)), (0x3C2803, .syArrive (.on 2) (.g 3)), (0x3C2C03, .syBleave (.on 2) (.g 3)),
    (0x3C4003, .syTspawn (.on 2) (.g 3)), (0x3C4403, .syTdec (.on 2) (.g 3)), (0x3C4803, .syTinc (.on 2) (.g 3)),
    (0x3C4C03, .syTkill (.on 2) (.g 3)), (0x3C5003, .syTread (.on 2) (.g 3)), (0x3C5403, .syTself (.on 2) (.g 3)),
    (0x3C5803, .syTteam (.on 2) (.g 3)), (0x3C5C03, .syTprio (.on 2) (.g 3)), (0x3C6003, .syRsr (.on 2) (.g 3)),
    (0x3C6403, .syWsr (.on 2) (.g 3)), (0x3C6803, .syTrap (.on 2) (.g 3)), (0x3C6C03, .syTret (.on 2) (.g 3))] : List (Nat × Instr)), (decodeSlot (BitVec.ofNat 24 p.1)).toOption = some p.2 := by decide +kernel

theorem test_words_Push : ∀ p ∈ ([
    (0x3D0003, .qpPush (.on 2) (.g 3)), (0x3D0403, .qpPushw (.on 2) (.g 3)), (0x3D0803, .qpPushn (.on 2) (.g 3)),
    (0x3D0C03, .qpFree (.on 2) (.g 3))] : List (Nat × Instr)), (decodeSlot (BitVec.ofNat 24 p.1)).toOption = some p.2 := by decide +kernel

theorem test_words_Spire : ∀ p ∈ ([
    (0x3D4003, .spSend (.on 2) (.g 3)), (0x3D4403, .spSendn (.on 2) (.g 3)), (0x3D4803, .spRecv (.on 2) (.g 3)),
    (0x3D4C03, .spRecvn (.on 2) (.g 3)), (0x3D5003, .spCnt (.on 2) (.g 3))] : List (Nat × Instr)), (decodeSlot (BitVec.ofNat 24 p.1)).toOption = some p.2 := by decide +kernel

theorem test_words_Power : ∀ p ∈ ([
    (0x3D8003, .pwAcq (.on 2) (.g 3)), (0x3D8403, .pwRel (.on 2) (.g 3)), (0x3D8803, .pwCls (.on 2) (.g 3)),
    (0x3D8C03, .pwDst (.on 2) (.g 3)), (0x3D9003, .pwGate (.on 2) (.g 3)), (0x3D9403, .pwUngate (.on 2) (.g 3)),
    (0x3D9803, .pwMsd (.on 2) (.g 3)), (0x3D9C03, .pwMst (.on 2) (.g 3))] : List (Nat × Instr)), (decodeSlot (BitVec.ofNat 24 p.1)).toOption = some p.2 := by decide +kernel

/-- The worked bundle of the spec's Bundles chapter, slot by slot. -/
theorem test_words_bundle : (bundleSlots 0x80000080000001500A9103FD202C44002840756789701234).map (fun w => (decodeSlot w).toOption) =
    [some (.literalSignExtending 0x01234), some (.literalSignExtending 0x56789), some (.move .always .lit (.g 10)),
      some (.move (.on 1) (.ix 0) (.g 11)), some (.move (.off 0) (.imm 0x1FD) (.opd .ia0o)),
      some (.move .always (.g 10) (.k 3)), some .emptySlot, some .emptySlot] := by decide +kernel

/-- Words that name nothing: an empty slot with payload, an unassigned source, an unassigned destination, an unassigned trigger. -/
theorem test_words_refused : (decodeSlot 0x800001).toOption = none ∧ (decodeSlot 0x00004C).toOption = none ∧
    (decodeSlot 0x013C00).toOption = none ∧ (decodeSlot 0x029C00).toOption = none := by decide +kernel

/-- The encoder gives the words back. -/
theorem test_encode : encode (.iaAdd (.on 2) .ia1 (.g 3)) = some 0x330003 ∧ encode (.qpPush .always .lit) = some 0x0D0040 ∧
    encode .operationResultWrite = none := by decide +kernel
/-! ## Small states, and for each statement one that meets its hypotheses -/

/-- Context 1's task 1 on brick 0, its addresses below 1 GiB mapped to themselves. -/
def here : State := State.reset.withTask

/-- The source that the tests' slots read. -/
def x1 : Src := .g 1

/-- A value in g1, and values in operand latches. -/
def put (s : State) (a : Word) (l : List (OpdL × Word)) : State :=
  s.onR (fun r => { r with g := r.g.set 1 a, opd := l.foldl (fun o e => o.set e.1 e.2) r.opd })

/-- An access of the brick's task with id 5, its translation held. -/
def away (op : DevOp) : State :=
  here.onB (fun b => { b with dev := [op], nextId := 6, tlb := [⟨1, 0, 2 ^ 30, 0x1D⟩] })

/-- The access of the tests. -/
def acc (k : DevKind) (va len : Nat) : DevOp := { DevOp.basic k va len with id := 5, tid := 1, ctx := 1, dst := .g 7, bytes := 0xFF }

/-- A deterministic task. -/
def det (s : State) : State := s.onB (fun b => { b with t := { b.t with det := some 1 } })

/-- A brick in a handler. -/
def inHandler (s : State) : State := s.onY (fun y => { y with inh := true })

/-- A state after an outcome. -/
def next (o : Out) : State := match o with | .next t => t | _ => State.reset

theorem test_meets_FalseGuardHasNoEffect : (Instr.iaAdd (.on 0) .ia0 x1).guard = some (.on 0) ∧ here.guardOn (.on 0) = false := by
  decide +kernel

theorem test_meets_MovesAndLiterals : here.guardOn (.off 0) = true ∧ here.b.iss.litN = 0 ∧ here.b.iss.litV = 0 := by decide +kernel

/-- What the integer, address and product statements ask of a state. -/
theorem test_meets_units : here.guardOn .always = true := by decide +kernel

theorem test_meets_BranchesAndTransfers : fld ((put here 0xFFFFFFFF []).src x1) 63 32 = 0 ∧ fld ((put here 0x100000000 []).src x1) 63 32 ≠ 0 ∧
    here.b.r.br.xfer = none ∧ here.b.r.lp = none ∧ here.b.r.br.bc = false ∧
    (here.setBr (fun b => { b with bc := true, xfer := some (0, 3) })).b.r.br.bc = true ∧
    (here.setBr (fun b => { b with xfer := some (0, 3) })).b.r.br.xfer ≠ none ∧
    (here.onR (fun r => { r with lp := some ⟨0, 1, 1, 0, 1, [2], 2, 0, 0, []⟩ })).b.r.lp ≠ none ∧
    ({ Issue.idle with jump := some 9 } : Issue).jump = some 9 := by decide +kernel

/-- A loop of two levels over trip counts a and b. -/
def loops (a b : Nat) : State :=
  (put here 0x4000 []).onR (fun r => { r with g := (r.g.set 8 (BitVec.ofNat 64 a)).set 9 (BitVec.ofNat 64 b) })

theorem test_meets_LoopsStartAndPass : ∀ p ∈ ([(2, 3), (0, 3), (0xFFFFFFFF, 0x10000), (0x100000000, 0)] : List (Nat × Nat)),
    loopBad ((loops p.1 p.2).src x1) = false ∧ (loops p.1 p.2).b.r.br.xfer = none ∧ (loops p.1 p.2).b.r.lp = none ∧
    (List.range (fld ((loops p.1 p.2).src x1) 16 14 + 1)).map (fun i => ((loops p.1 p.2).readG (8 + i)).toNat) =
      [p.1, p.2] := by decide +kernel

theorem test_meets_LocalLoadsAndStores : ∀ n ∈ [1, 2, 4, 8, 256],
    (let s := put here (BitVec.ofNat 64 (0x100000 - n)) []
     let a := s.src x1
     fld a 63 22 = 0 ∧ fld a 19 0 + n ≤ spaceSize (fld a 21 20) ∧ a.toNat % n = 0 ∧ fld (s.opd .lsa) 63 20 = 0 ∧
     bit (s.opd .lsa).toNat 5 = false ∧ s.b.hullHit (fld a 21 20) (fld a 19 0) n = false ∧
     s.b.mxHoldsLoad (fld a 21 20) (fld a 19 0) n = false ∧ s.b.mxHoldsStore (fld a 21 20) (fld a 19 0) n = false ∧
     s.b.ecc = [] ∧ s.b.lpois = []) := by decide +kernel

theorem test_meets_DeviceAccesses : ∀ n ∈ [1, 2, 4, 8, 16, 256],
    (let s := put here (BitVec.ofNat 64 (0x3FFFFFFF / n * n)) [(.lsa, 0x80000)]
     (s.src x1).toNat % n = 0 ∧ fld (s.opd .lsa) 63 20 = 0 ∧ fld (s.opd .lsa) 19 17 = 4 ∧ bit (s.opd .lsa).toNat 0 = false ∧
     bit (s.opd .lsa).toNat 5 = false ∧ s.isDet = false ∧ s.b.cnt.ld < 65535 ∧ s.b.cnt.st < 65535 ∧ s.b.replay.length < 16 ∧
     fld (s.src x1) 63 52 = 0) := by decide +kernel

theorem test_meets_Checked : Claims.Checked (here.defer (.cnt .ld)) (here.defer (.cnt .ld)) 8 8 .read true false := .inl ⟨rfl, rfl⟩

theorem test_meets_DeviceStores_remote : let s := put here (BitVec.ofNat 64 (767 * 2 ^ 30 + 0xFFFF8)) []
    fld (s.src x1) 63 40 = 0 ∧ fld (s.src x1) 29 22 = 0 ∧ s.inService (fld (s.src x1) 39 30) = true ∧
    fld (s.src x1) 19 0 + 8 ≤ spaceSize (fld (s.src x1) 21 20) ∧ (s.src x1).toNat % 8 = 0 ∧ s.isDet = false := by decide +kernel

theorem test_meets_Atomics : ∀ d ∈ [0, 0x2000, 0x80000 + 0x10000 + 0x2000], let s := put here 64 [(.lsa, BitVec.ofNat 64 d)]
    fld (s.opd .lsa) 63 20 = 0 ∧ fld (s.opd .lsa) 16 14 ≤ 4 ∧ fld (s.opd .lsa) 19 17 ≤ 4 ∧ s.isDet = false ∧
    (s.src x1).toNat % 8 = 0 ∧ s.b.replay.length < 16 ∧ s.b.cnt.st < 65535 := by decide +kernel

/-- A chain block of one step at scratchpad offset 0xFFFD0: head at 0x1000, its step keeps every bit and adds nothing. -/
def chain : State :=
  (put here 0xFFFC0 []).onB (fun b => { b with loc := b.loc.write 0 0xFFFC0 (toBytes 32 (0x1000 + 1 * 2 ^ 160) ++ toBytes 16 (2 ^ 64 - 1)) })

theorem test_meets_ChainedLoadIssues : let h := chain.b.loc.readNat 0 0xFFFC0 32
    fld (chain.src x1) 63 20 = 0 ∧ fld (chain.opd .lsa) 63 20 = 0 ∧ fld (chain.src x1) 19 0 = 0xFFFC0 ∧ 0xFFFC0 % 32 = 0 ∧
    bits h 163 160 = 1 ∧ 0xFFFC0 + (32 + 16 * 1) ≤ 0x100000 ∧
    bits h 255 176 = 0 ∧ bits h 171 170 = 0 ∧ bit h 167 = false ∧ bits h 159 128 = 0 ∧ bits h 63 52 = 0 ∧ bits h 166 164 < 1 ∧
    bits h 51 0 % 8 = 0 ∧ chain.b.hullHit 0 0xFFFC0 48 = false ∧ chain.b.mxHoldsLoad 0 0xFFFC0 48 = false ∧ chain.b.ecc = [] ∧
    chain.b.lpois = [] ∧ chain.b.cnt.ld < 65535 ∧ chain.isDet = false := by decide +kernel

/-- A tag table whose slot 255 holds key 9, and one whose every slot is kept. -/
def tagged : State := (put here 9 []).onY (fun y => { y with tag := vset y.tag 255 (9 * 2 ^ 24 + 1) })
def kept : State := (put here 9 []).onY (fun y => { y with tag := Vector.replicate 256 8 })

theorem test_meets_TagLookup_hit : bit (vget 0 tagged.b.y.tag 255).toNat 0 = true ∧ fld (vget 0 tagged.b.y.tag 255) 63 24 = 9 ∧
    fld (tagged.src x1) 39 0 = 9 ∧ fld (tagged.src x1) 63 40 = 0 ∧ tagged.b.ecc = [] ∧
    ∀ i ∈ List.range 255, bit (vget 0 tagged.b.y.tag i).toNat 0 = false := by decide +kernel

theorem test_meets_TagLookup_miss : (∀ i ∈ List.range 256, bit (vget 0 kept.b.y.tag i).toNat 0 = false) ∧
    (∀ i ∈ List.range 256, bit (vget 0 kept.b.y.tag i).toNat 3 = true) ∧
    (∀ i ∈ List.range 256, bit (vget 0 here.b.y.tag i).toNat 0 = false) ∧ bit (vget 0 here.b.y.tag 0).toNat 3 = false := by
  decide +kernel

/-- Context 1 with a class of its own (R428). -/
def ofClass (c : Nat) (s : State) : State := { s with ctxTab := cset 0 s.ctxTab 1 (BitVec.ofNat 256 (1 + 2 * c + 2 ^ 90)) }

theorem test_meets_TagEntriesAndArming : ((put here 255 []).src x1).toNat = 255 ∧ ((put here 256 []).src x1).toNat = 256 ∧
    fld ((put here 255 [(.lsd, 0xFFFFFFFFFFFF000F)]).opd .lsd) 15 4 = 0 ∧ here.b.mxHoldsStore 0 (4096 * 255) 4096 = false ∧
    bit here.b.y.einj.toNat 63 = false ∧ here.b.ecc = [] ∧
    (let a := (put here 0x3AFFFFF []).src x1
     fld a 63 26 = 0 ∧ bit a.toNat 22 = false ∧ fld a 21 20 ≠ 3) ∧ (ofClass 2 here).cls = 2 ∧ here.cls ≠ 2 := by decide +kernel

theorem test_meets_SlotChecksTrap : spaceSize 2 < fld ((put here 0x2FFFFF []).src x1) 19 0 + 8 ∧ fld ((put here 0x400000 []).src x1) 63 22 ≠ 0 ∧
    (let a := (put here 0x7 []).src x1
     fld a 63 22 = 0 ∧ fld a 19 0 + 8 ≤ spaceSize (fld a 21 20) ∧ a.toNat % 8 ≠ 0 ∧ a.toNat % 4 ≠ 0) ∧
    (0, 8) ∈ (here.onB (fun b => { b with lpois := [(0, 8)] })).b.lpois ∧
    fld ((put here 0 [(.lsa, 0x100000)]).opd .lsa) 63 20 ≠ 0 ∧ (det here).isDet = true ∧
    vxBad VUse.two 0x10000000000 = true ∧ vxBad VUse.two 0 = false ∧ vxBad VUse.one 0 = false ∧
    (here.onB (fun b => { b with cls := some 0 })).b.cls = some 0 ∧ here.b.iss.go = false := by decide +kernel

theorem test_meets_Vectors : here.b.cls = none ∧ vxBad VUse.two 0x2F003FF = false ∧
    vxBad { d := true, a := true, b := true, sb := true, m := true } 0x7FFF = false ∧ bit (0x7FFF : Word).toNat 23 = false ∧
    vxBad Claims.useDABMR 0xC000000 = false ∧ vxBad Claims.useDAMR 0xC000000 = false ∧
    vxBad { Claims.useDABMR with c := true } 0xC0F8000 = false ∧ fld (7 : Word) 4 0 < 8 ∧ fld (6 : Word) 4 0 ≤ 6 ∧
    vxBad { d := true, a := true, b := true } 0x1CE7 = false ∧ vxBad { a := true } 0xE0 = false := by decide +kernel

theorem test_meets_VectorMovesReductionsAndDots : vxBad { d := true, xf := true } 0x3F0000000 = false ∧ fld (0x3F0000000 : Word) 39 34 = 0 ∧
    vxBad { d := true, a := true, m := true } 0x800000 = false ∧ bit (0x800000 : Word).toNat 23 = true ∧
    vxBad { d := true, a := true, c := true, m := true, z := true, r := true, xf := true } 0x220000000 = false ∧
    (∃ f, Fmt.ofCode (fld (0x220000000 : Word) 31 28) = some f ∧ 64 * f.width ≤ 2048) ∧
    (∃ f, Fmt.ofCode (fld (0x220000000 : Word) 35 32) = some f ∧ 64 * (fld (0x220000000 : Word) 38 36 + 1) * f.width ≤ 2048) ∧
    vxBad { d := true, a := true, b := true, c := true, m := true, z := true, r := true, xf := true } 0x80000000 = false ∧
    fld (0x80000000 : Word) 39 32 = 0 ∧ fld (0x80000000 : Word) 31 28 = 8 ∧ (Fmt.ofCode 8).isSome = true := by
  refine ⟨by decide +kernel, by decide +kernel, by decide +kernel, by decide +kernel, by decide +kernel, ⟨_, rfl, by decide +kernel⟩,
    ⟨_, rfl, by decide +kernel⟩, by decide +kernel, by decide +kernel, by decide +kernel, by decide +kernel⟩


/-! ## Witnesses for numbers, checks, and what accesses and operations leave -/

/-- A finite code, a positive one, an integer and a power of two: 2 in FP32. -/
theorem test_meets_RoundingIsNearest : Claims.Finite32 0x40000000 ∧ Claims.real32 0x40000000 = 2 ∧ 0 < Claims.real32 0x40000000 ∧
    Claims.real32 0x40000000 = ((2 : ℤ) : ℝ) ∧ |(2 : ℤ)| < 4096 ∧ Claims.real32 0x40000000 = (2 : ℝ) ^ (1 : ℤ) ∧
    Claims.Finite (.fin true 1 0) ∧ ∀ x ∈ [Val.fin true 1 0, .fin false 3 (-1)], Claims.Finite x := by
  have h : Claims.real32 0x40000000 = 2 := by
    have : read32 0x40000000 = .fin false (2 ^ 23) (-22) := by decide +kernel
    simp only [Claims.real32, this, Claims.real]
    norm_num
  refine ⟨by unfold Claims.Finite32; decide, h, by rw [h]; norm_num, by rw [h]; norm_num, by decide, by rw [h]; norm_num, ⟨_, _, _, rfl⟩, ?_⟩
  intro x hx
  simp only [List.mem_cons, List.not_mem_nil, or_false] at hx
  obtain rfl | rfl := hx <;> exact ⟨_, _, _, rfl⟩

theorem test_meets_BranchesAndTransfers_bad : loopBad ((put here 0x20000 []).src x1) = true ∧ loopBad ((put here 0 []).src x1) = false ∧
    here.guardOn .always = true := by decide +kernel

/-- Bad descriptors, scopes and addresses, and what the same checks let by. -/
theorem test_meets_SlotChecksTrap_forms : (let s := put here 1 [(.lsa, 0x100000)]
     fld (s.opd .lsa) 63 20 ≠ 0 ∧ s.isDet = false ∧ (s.src x1).toNat % 256 ≠ 0) ∧
    (let s := put here 1 [(.lsa, 0xA0000)]
     4 < fld (s.opd .lsa) 19 17 ∧ fld (s.opd .lsa) 63 20 = 0) ∧
    (let s := det (put here 4 [(.lsa, 0x4000)])
     s.isDet = true ∧ fld (s.opd .lsa) 16 14 ≠ 0 ∧ fld (s.opd .lsa) 16 14 ≤ 4 ∧ fld (s.opd .lsa) 19 17 ≤ 4 ∧ (s.src x1).toNat % 8 ≠ 0) ∧
    (let s := here.onB (fun b => { b with lpois := [(1, 0x10), (0, 0x100)] })
     (1, Claims.wordAt 1 0x13) ∈ s.b.lpois ∧ (0, Claims.wordAt 0 0x104) ∈ s.b.lpois ∧ s.b.ecc = [] ∧ s.b.hullHit 0 0 256 = false ∧
     s.b.mxHoldsLoad 0 0 256 = false) ∧
    (let a := (put here (BitVec.ofNat 64 (2 ^ 40)) []).src x1
     fld a 63 40 ≠ 0) ∧
    (let s := put here (BitVec.ofNat 64 (767 * 2 ^ 30 + 0xFFFFC)) []
     s.inService (fld (s.src x1) 39 30) = true ∧ spaceSize (fld (s.src x1) 21 20) < fld (s.src x1) 19 0 + 8) ∧
    (let s := det (put here 4 [])
     fld (s.src x1) 63 40 = 0 ∧ fld (s.src x1) 29 22 = 0 ∧ fld (s.src x1) 21 20 ≠ 3 ∧ s.inService 0 = true ∧ s.isDet = true) := by
  decide +kernel

/-- Vector descriptors that an operation of each kind refuses, and one that they take while their task holds C0. -/
theorem test_meets_SlotChecksTrap_vectors : (∀ p ∈ (Claims.vectorSlots .always x1 0).map (fun p => p.2.1), vxBad p 0 = false ∧ vxBad p 0x8000000000000000 = true) ∧
    (∀ p ∈ (Claims.floatSlots .always x1 0).map (fun p => p.2.1), vxBad p 0 = false ∧ vxBad p 0x8000000000000000 = true) ∧
    (∀ p ∈ (Claims.moveSlots .always x1 0).map (fun p => p.2.1), vxBad p 0 = false ∧ vxBad p 0x8000000000000000 = true) ∧
    8 ≤ fld (31 : Word) 4 0 ∧ bit (0x800000 : Word).toNat 23 = true ∧ fld (0x400000000 : Word) 39 34 ≠ 0 ∧
    (here.onB (fun b => { b with cls := some 0 })).b.iss.go = false := by decide +kernel

/-- Loads whose values are there, for one register, for a pair and for lanes of a vector, and a store and an atomic without result. -/
def landed (k : DevKind) (len : Nat) (d : Dest) : DevOp := { acc k 0x100 len with dst := d, stage := .performed 9 1 }

theorem test_meets_delivery_forms : (∀ p ∈ [(8, Dest.g 63), (16, .gq 62 63), (256, .v 31 0xF0)],
      (let op := landed (.load false) p.1 p.2
       (away op).b.op? op.id = some op ∧ op.dst = p.2 ∧ op.len = p.1 ∧ op.stage = .performed 9 1 ∧ (away op).b.running = true ∧
       (away op).b.t.tid = op.tid ∧ (away op).images = [] ∧ (away op).upset = none)) ∧
    ∀ k ∈ [DevKind.store, .amo .add false 0 true 0], (let op := landed k 8 .none
      (away op).b.op? op.id = some op ∧ op.kind.isLoad = false ∧ op.kind ≠ .marker ∧ op.dst = .none ∧ (away op).b.t.tid = op.tid) := by
  decide +kernel

theorem test_meets_StoresAndAtomicsPerform_values : (4 = 4 ∨ 4 = 8) ∧ 2 ^ 32 - 1 < 2 ^ (8 * 4) ∧ 2 ^ 64 - 1 < 2 ^ (8 * 8) := by
  decide

theorem test_meets_MatrixTriggersQueue : pcwOk 0x1C0C44 = true ∧
    (∀ c ∈ [MxCode.mm, .mmT, .mmc, .mms, .mmsT, .mmcs], (Prod.ofOp c 0x1FF 0x1C0C44 0).bad 0x1FF 0 = false) ∧
    regionBad 0xFFFF0000 = false ∧ fld (0x1FF : Word) 63 9 = 0 ∧ (Drain.ofOp .drain 0 0x1C0C44).bad 0 = false ∧
    (Drain.ofOp .drainq 0x80F00000 0x1C0C44).bad 0x80F00000 = false ∧ here.b.cls = none ∧ here.b.cnt.mx < 65535 ∧
    here.b.mxq.length < 4 ∧ here.b.mxq = [] := by decide +kernel

/-- A pending report, and a task that waits on it. -/
def report5 : Report := ⟨.ld, ⟨4, 0, 0, 8, 0, 0, 0, 0⟩⟩
def reported : State := (put here 0 []).onB (fun b => { b with reports := [report5], cnt := ⟨1, 0, 0, 0⟩ })

theorem test_meets_WaitsAndLeavings : fld (reported.src x1) 63 34 = 0 ∧ reported.b.reports = [] ++ report5 :: [] ∧ report5.ctr = .ld ∧
    reported.b.y.inh = false ∧ reported.b.iss.go = false ∧ fld (reported.src x1) 31 0 < reported.b.cnt.get .ld ∧
    (∀ op ∈ reported.b.mxq, op.frozen = false) ∧ (put here 0 []).src x1 = 0 ∧ here.b.reports = [] ∧ here.b.cnt = ⟨0, 0, 0, 0⟩ ∧
    here.b.cnt.get .mx ≤ fld ((put here 0x300000000 []).src x1) 31 0 ∧ fld ((put here 0x300000000 []).src x1) 63 34 = 0 ∧
    (inHandler here).b.y.inh = true ∧ fld ((put here 0xFFFFFFFF []).src x1) 63 32 = 0 ∧ (here.recAt 1 0).isSome = true := by
  decide +kernel

/-- A class-2 context with a wake token queued, comparator 3 hit, and a barrier block at 0x800. -/
def woken : State := ((ofClass 2 (put here 0x4FF [])).onY (fun y => { y with wakeQ := [7], arm := y.arm.set 3 0xC00000 })).onB
  (fun b => { b with t := { b.t with bar := 0x800 } })

theorem test_meets_Synchronisation : woken.b.y.wakeQ = 7 :: [] ∧ woken.isDet = false ∧ woken.cls = 2 ∧
    bit (vget 0 woken.b.y.arm 3).toNat 23 = true ∧ bit (vget 0 woken.b.y.arm 3).toNat 22 = true ∧
    fld (woken.src x1) 63 11 = 0 ∧ fld (woken.src x1) 10 8 = 4 ∧ woken.b.t.bar ≠ 0 ∧ woken.b.cnt.st < 65535 ∧
    (let a := (put here 0x3F []).src x1
     fld a 63 6 = 0 ∧ 2 ≤ popcount 6 (fld a 5 0)) ∧ here.b.cnt = ⟨0, 0, 0, 0⟩ ∧ here.b.push = [] ∧ here.b.dev = [] ∧
    ((put here 4 []).src x1).toNat ≤ 4 ∧ (put here 0 []).src x1 = 0 ∧ fld ((put here 0xFFFFFFFF []).src x1) 63 32 = 0 := by
  decide +kernel

theorem test_meets_TaskOperations : ((put here 0x3FFFFFC0 []).src x1).toNat % 64 = 0 ∧ here.isDet = false ∧ here.b.replay.length < 16 ∧
    here.b.cnt.st < 65535 ∧ here.b.cnt.ld < 65535 ∧ (put here 1 []).src x1 = 1 ∧ ((put here 3 []).src x1).toNat ≤ 3 ∧
    (det here).isDet = true := by decide +kernel

theorem test_meets_SystemRegisterAccess : ((put here 0x017 []).src x1).toNat = 0x017 ∧ ((put here 0x119 []).src x1).toNat = 0x101 + 2 * 12 ∧
    ((put here 0x102 []).src x1).toNat = 0x100 + 2 * 1 ∧ here.cls = 0 ∧ (ofClass 1 here).cls ≠ 0 ∧ (here.ctxEnt 1).isSome = true ∧
    here.b.t.ctx = 1 ∧ fld ((put here 0x1000 []).src x1) 63 12 ≠ 0 ∧ ((put here 0x11A []).src x1).toNat < 2 ^ 12 := by decide +kernel

/-- A task whose handler takes traps of kinds 1 to 14, at bundle 6 of code-table entry 0, its code at 0x40000. -/
def trapping : State :=
  (here.writePhys 0 (toBytes 8 0x40001)).onY (fun y => { y with tvec := 0x600002FFF })

theorem test_meets_TrapsEnterTheHandler : fld ((put here 0xFFFF []).src x1) 63 16 = 0 ∧ trapping.b.y.inh = false ∧
    (∀ k ∈ [1, 7, 12, 14], bit trapping.b.y.tvec.toNat (k - 1) = true) ∧
    (trapping.codeBase trapping.b.t.ctx (fld trapping.b.y.tvec 31 20)).isSome = true := by decide +kernel

theorem test_meets_TrapReturnAndRecords : ((put here 1 []).src x1).toNat ≤ 1 ∧ here.b.y.inh = false ∧ (inHandler here).b.y.inh = true ∧
    (inHandler here).b.r.pipe = [] ∧ (inHandler here).b.mxq = [] ∧ (report5.tr).kind ≠ 8 ∧
    (here.b.enterHandler report5.tr 0).y.held = (here.b.enterHandler report5.tr 0).y.held ∧
    (here.b.enterHandler report5.tr 0).r.pipe = [] ∧ report5.tr.kind < 256 ∧ report5.tr.slot < 8 ∧ report5.tr.path < 16 := by
  decide +kernel

theorem test_meets_PushBufferAndSpire : pushBad 0x3021FFF00 = false ∧ pushBeyond 0x3021FFF00 true = false ∧ here.b.push.length + 4 ≤ 8 ∧ here.b.cnt.cp + 4 ≤ 65535 ∧
    here.b.hullHit 0 0xFFF00 256 = false ∧ here.b.mxHoldsLoad 0 0xFFF00 256 = false ∧ here.b.ecc = [] ∧ here.b.lpois = [] ∧
    ((List.range 4).map ((put here 0x3021FFF00 []).command 0x3021FFF00)).flatMap Cmd.scoreOf = [] ∧
    pushBad 0x21FFFC0 = false ∧ pushBeyond 0x21FFFC0 false = false ∧
    (here.onB (fun b => { b with push := List.replicate 8 ⟨0, 0, 0, 0, 0, false, none, 0, false⟩ })).b.push.length = 8 ∧
    ((put here 31 []).src x1).toNat ≤ 31 ∧ here.isDet = false ∧ here.b.spq = [] ∧ (put here 0 []).src x1 = 0 ∧
    (here.onB (fun b => { b with spq := [⟨0, 0⟩] })).b.spq = ⟨0, 0⟩ :: [] ∧
    0 < ({ here with peers := [(partnerOf 0, { here.b with bid := partnerOf 0 })] } : State).spFree := by decide +kernel

theorem test_meets_PowerOperations : ((put here 4 []).src x1).toNat ≤ 4 ∧ here.isDet = false ∧ here.b.grant = none ∧
    (here.onB (fun b => { b with cls := some 4 })).b.cls = some 4 ∧
    (here.onB (fun b => { b with cls := some 4, grant := some true })).b.grant = some true ∧ (put here 0 []).src x1 = 0 ∧
    fld ((put here 15 []).src x1) 63 4 = 0 ∧ ((put here 15 []).src x1).toNat ≠ domainOf here.b.bid ∧ (ofClass 1 here).cls ≠ 0 ∧
    fld ((put here 16 [(.pwo, 64)]).opd .pwo) 6 0 ≤ 64 ∧ ((put here 16 [(.pwo, 64)]).src x1).toNat % 16 = 0 ∧
    here.b.cnt.st < 65535 := by decide +kernel

/-! ## Accesses, the matrix unit and the domes -/

/-- The lines of an access held in their slices, clean. -/
def holding0 (s : State) (pa n : Nat) : State := { s with cache := (linesOf pa n).map (fun l => ⟨l, 0, false⟩) }

/-- What AtSlice, Held and RunsHere ask, for an access at the top of the mapped page. -/
theorem test_meets_AtSlice : ∀ k ∈ [(DevKind.load true, 0x3FFFFFF8), (.store, 0x3FFFFFF8), (.amo .add false 0 false 0, 0x3FFFFFF8),
      (.chain 0 1 0 0, 0x100)],
    (let op := acc k.1 k.2 8
     let s := holding0 (away op) k.2 8
     s.b.op? op.id = some op ∧ op.stage = .issued ∧ s.ready s.b op = true ∧ s.xlate s.b.dataLook op.ctx op.va .read false = .ok k.2 ∧
     s.xlate s.b.dataLook op.ctx op.va .write false = .ok k.2 ∧ s.ownerNode k.2 = none ∧ s.wq = [] ∧ s.upset = none ∧ s.img = [] ∧
     s.poisoned k.2 op.len = false ∧ (∀ l ∈ linesOf k.2 op.len, s.holds l = true) ∧ s.arrives s.b.bid op = true ∧ s.routers = [] ∧
     s.b.running = true ∧ s.b.t.tid = op.tid ∧ s.images = [] ∧ op.dst = .g 7 ∧ op.va % 8 = 0 ∧ 0 < op.len ∧ op.len ≤ 32 ∧
     op.bytes.getLsbD 0 = true) := by decide +kernel

/-- What Wide asks of a `vld` and a `vst`, with all sectors to come or one. -/
theorem test_meets_Wide : ∀ k ∈ [(DevKind.load true, 0), (.store, 0xF7)],
    (let op := { acc k.1 0x3FFFFF00 256 with sect := k.2 }
     let s := holding0 (away op) 0x3FFFFF00 256
     s.b.op? op.id = some op ∧ op.stage = .issued ∧ s.ready s.b op = true ∧
     (∀ i ∈ List.range 8, s.xlate s.b.dataLook op.ctx (op.va + 32 * i) .read false = .ok (0x3FFFFF00 + 32 * i) ∧
       s.xlate s.b.dataLook op.ctx (op.va + 32 * i) .write false = .ok (0x3FFFFF00 + 32 * i) ∧ s.ownerNode (0x3FFFFF00 + 32 * i) = none) ∧
     s.wq = [] ∧ s.upset = none ∧ s.img = [] ∧ s.poisoned 0x3FFFFF00 256 = false ∧ (∀ l ∈ linesOf 0x3FFFFF00 256, s.holds l = true) ∧
     bit op.sect 3 = false) := by decide +kernel

/-- An access that has been performed. -/
def doneOp (k : DevKind) : DevOp := { acc k 0x100 8 with stage := .performed 9 1 }

theorem test_meets_delivery : ∀ k ∈ [DevKind.load false, .store, .amo .swap false 0 false 0, .chain 0 1 0 0],
    (away (doneOp k)).b.op? 5 = some (doneOp k) ∧ (doneOp k).stage = .performed 9 1 ∧ (away (doneOp k)).upset = none := by decide +kernel

theorem test_meets_SliceLineArrival : ({ away (acc .store 0x100 8) with wq := [⟨0x100, [(0, 5)]⟩] } : State).wq =
    [⟨0x100, [((away (acc .store 0x100 8)).b.bid, (acc .store 0x100 8).id)]⟩] := by decide +kernel

theorem test_meets_ChainedLoadsStep_misaligned : (away (acc (.chain 0 1 0 0) 0x104 8)).b.ordered (acc (.chain 0 1 0 0) 0x104 8) = true ∧
    (acc (.chain 0 1 0 0) 0x104 8).va % 8 ≠ 0 ∧ (away (acc (.chain 0 1 0 0) 0x104 8)).wq = [] ∧
    ({ acc (.chain 0 1 0 0) 0x100 8 with bytes := 0 } : DevOp).bytes = 0 := by decide +kernel

/-- Block 1 stored compressed under key 0: one of its lines held dirty, and all of them. -/
def dirtied (n : Nat) : State :=
  { here with blk := cset rawBlock here.blk 1 0x40, cache := (List.range n).map (fun i => ⟨0x1000 + 64 * i, 3, true⟩) }

theorem test_meets_BaseDieAccess : here.keyLoaded 1 0 = true ∧ here.keyFault 1 5 0x1000 true ≠ none ∧
    ({ here with keys := [⟨127, 1, 0, none⟩] } : State).keyLoaded 1 127 = true ∧
    (let s := dirtied 1
     s.keyFault 1 0 0x1000 false = none ∧ secondTier 0x1000 = false ∧ s.upset = none ∧ s.img = [] ∧
     s.heldLine 0x1000 = some ⟨0x1000, 3, true⟩ ∧ s.blockDirty 1 = false ∧ bit (s.descOf 0x1000) 6 = true) ∧
    (let s := dirtied 64
     s.keyFault 1 0 0x1000 true = none ∧ s.upset = none ∧ s.blockDirty 1 = true ∧ s.blockDirty 2 = false) := by decide +kernel

/-- Comparator 2 watching bytes 0 to 63 of the scratchpad, and packets at both ends of it. -/
theorem test_meets_WritePackets : 768 ≠ here.b.bid ∧ 0xFFFF8 % 64 + 8 ≤ 64 ∧ 0xFFFF8 + 8 ≤ spaceSize 0 ∧
    here.b.mxHoldsOther 0 0xFFFF8 8 = false ∧ here.takesWrites here.b = true ∧
    (let y := (here.onY (fun y => { y with wcmp := y.wcmp.set 2 (2 ^ 63 + 63 * 2 ^ 40) })).b.y
     y.wakeQ.length < 16 ∧ ∀ j ∈ List.range 8, wakeMatches (vget 0 y.wcmp j) 0 56 8 = decide (j = 2)) ∧
    ∀ j ∈ List.range 8, wakeMatches (vget 0 here.b.y.wcmp j) 0 56 8 = false := by decide +kernel

theorem test_meets_CombiningEqualsSequence : AmoOp.add ≠ .cas ∧ AmoOp.add ≠ .fadd ∧ 2 ^ 64 - 1 < 2 ^ (8 * 8) ∧
    ∀ d ∈ Claims.operands (.pair (.leaf 0 0 (2 ^ 64 - 1)) (.leaf 1 0 3)), d < 2 ^ (8 * 8) := by decide +kernel

/-- A combinable addition, and the domes with a window of 15 cycles. -/
def addC : DevOp := acc (.amo .add true 0 false 0) 0x100 8
def combining : State := { away addC with dome0 := { (away addC).dome0 with cwin := 15 } }
def keyC : CombKey := ⟨0x100, true, .add, 0, 0, 0, 1, 0⟩

theorem test_meets_CombiningEvents : combining.b.op? 5 = some addC ∧ combining.ready combining.b addC = true ∧
    combining.combKey 0 addC = some keyC ∧ 0 ∈ pathOf 0 0x100 ∧
    combining.goesTo keyC (pathOf 0 0x100) addC ((pathOf 0 0x100).findIdx (fun x => x == 0)) = true ∧ combining.routers = [] ∧ (combining.dome (towerOf 0)).cwin ≠ 0 ∧
    (9, 4) ≠ (combining.b.bid, addC.id) ∧ 0 + (here.dome (towerOf 0)).cwin ≤ here.clk ∧
    (let s := here.onB (fun b => { b with dev := [{ addC with id := 3 }, { addC with id := 4 }] })
     (s.b.op? 3).isSome = true ∧ (s.b.op? 4).isSome = true ∧ 3 ≠ 4) := by decide +kernel

theorem test_meets_BrickTimersAndResults : (here.onR (fun r => { r with pipe := [⟨0, .res .lsr 5⟩] })).b.r.pipe = [⟨0, .res .lsr 5⟩] ∧
    (let s := here.onB (fun b => { b with stall := some ⟨.countedWait, 0, false, 0, .none⟩, timer := 4096 })
     s.b.stall = some ⟨.countedWait, 0, false, 0, .none⟩ ∧ s.b.running = true ∧ 4096 ≤ s.b.timer ∧ s.b.domainHeld = false ∧ s.b.y.inh = false ∧
     (inHandler s).b.y.inh = true ∧ (s.recAt s.b.t.ctx s.b.t.recVa).isSome = true) ∧
    (let s := here.onB (fun b => { b with own := [(0, 1)], spTimer := 256 })
     s.b.own = [(0, 1)] ∧ 256 ≤ s.b.spTimer ∧ s.b.domainHeld = false) ∧
    (let s := here.onB (fun b => { b with own := [(2, 1)], timer := 1 })
     s.b.own = [(2, 1)] ∧ 1 ≤ s.b.timer) ∧
    (let s := here.onB (fun b => { b with own := [(1, 4)], acqTimer := 4096 })
     s.b.own = [(1, 4)] ∧ 4096 ≤ s.b.acqTimer ∧ s.b.grant = none) := by decide +kernel

/-- Matrix operations: a clear of a whole bank, and a device product of one column. -/
def clear1 : MxOp := ⟨.cclr, 0xFFFF0000, 0x1C0C44, 0, 1, 1, none, false, some Locals.clear, 100, 0, 0, 0, [], 0, [], [], false, none, 0, none, false, false⟩
def device1 : MxOp := ⟨.mms, 0, 0x1C0C44, 0x1000, 1, 1, none, false, some Locals.clear, 0, 0, 0, 0, [], 0, [], [], false, none, 1, none, false, false⟩
def queueing (op : MxOp) : State := here.onB (fun b => { b with mxq := [op] })

theorem test_meets_MatrixUnitEvents : (queueing { clear1 with snap := none }).b.mxq = { clear1 with snap := none } :: [] ∧ clear1.frozen = false ∧
    clear1.snap ≠ none ∧ clear1.waiting = false ∧ clear1.code = .cclr ∧ fixedCycles .cclr clear1.desc ≤ clear1.elapsed ∧
    here.b.lpois = [] ∧ here.b.running = true ∧ here.b.t.tid = clear1.tid ∧ regionBad clear1.desc = false ∧
    device1.code.isProduct = true ∧ device1.prod.dev = true ∧ device1.col < device1.lastCol ∧ device1.elapsed = device1.colAt ∧
    device1.bgot < device1.prod.colLen * (device1.col + 1) ∧ device1.bgot < device1.mayFetch ∧
    (queueing device1).b.holdsBlock device1 = false ∧ device1.tok = none ∧ device1.det = none ∧
    (let s := (queueing device1).onB (fun b => { b with tlb := [⟨1, 0, 2 ^ 30, 0x1D⟩] })
     s.streamPa device1 device1.nextBlock.1 = .ok device1.nextBlock.1 ∧ s.ownerNode device1.nextBlock.1 = none ∧
     s.wq = [] ∧ s.upset = none ∧ s.img = [] ∧ s.bufs = [] ∧ s.b.dev = []) := by
  decide +kernel

/-- A barrier block at 0x100 of one barrier that expects two, and the state that waits at it. -/
def barred : State :=
  let s := away (acc (.bar 0 0 0x100) 0x110 16)
  ((s.writePhys 0x100 (toBytes 16 1)).writePhys 0x110 (toBytes 16 2)).onB (fun b => { b with barWait := some ⟨0x110, 0, none, false, 0⟩ })

theorem test_meets_BarrierArrivals : let op := acc (.bar 0 0 0x100) 0x110 16
    barred.b.op? 5 = some op ∧ op.stage = .issued ∧ barred.b.ordered op = true ∧
    barred.xlate barred.b.dataLook 1 0x110 .write false = .ok 0x110 ∧ barred.ownerNode 0x110 = none ∧ barred.wq = [] ∧ barred.upset = none ∧ barred.img = [] ∧
    barred.ready barred.b op = true ∧
    barred.poisoned 0x110 16 = false ∧ op.va = 0x100 + 16 + 16 * 0 ∧ barred.resolve 1 0x110 .read false = .ok 0x110 ∧
    barred.resolve 1 0x110 .write false = .ok 0x110 ∧ ofBytes (barred.readPhys 0x110 16) = 2 ∧ bit 2 64 = false ∧
    0 < barred.barrierCount 1 0x100 ∧ 1 ≤ bits 2 15 0 ∧ bits 2 31 16 + 1 ≤ bits 2 15 0 ∧
    barred.b.barWait = some ⟨0x110, 0, none, false, 0⟩ := by decide +kernel

/-- An access outside every mapped page, and one parked on token 8. -/
def lost : DevOp := acc (.load true) 0x40000000 8
def parked : State := { away { lost with stage := .parked 8 } with toks := [⟨8, .dev 0 5, 0x40000000, false, false⟩] }

theorem test_meets_WalksTokensAndInvalidation : (acc (.load true) 0x100 8).kind.use = some .read ∧
    (away (acc (.load true) 0x100 8)).ready (away (acc (.load true) 0x100 8)).b (acc (.load true) 0x100 8) = true ∧
    (acc (.load true) 0x100 8).kind.isChain = false ∧ here.resolveIn (towerOf 0) 1 0x100 .read false = .ok 0x100 ∧ here.resolve 1 0x100 .read false = .ok 0x100 ∧
    (away lost).ready (away lost).b lost = true ∧ lost.stage = .issued ∧
    (away lost).upset = none ∧ (away lost).dome0.faultOwed = [] ∧ (parked.token 8).map Token.released = some false ∧
    (match (away lost).resolveIn (towerOf 0) 1 0x40000000 .read false with | .error (0, _, _, _) => true | _ => false) = true ∧
    (away lost).faultRoom 0 = true ∧ (away lost).toks.length < 65535 ∧ (parked.token 8).isSome = true ∧
    (parked.token 8).map Token.who = some (.dev 0 5) ∧ parked.b.op? 5 = some { lost with stage := .parked 8 } ∧
    fld (4 * 2 ^ 60 : Word) 62 60 ≤ 4 := by decide +kernel

theorem test_meets_WalksTokensAndInvalidation_ends : (let s := here.setDome 0 { here.dome0 with tlbReq := some 0 }
     (s.dome 0).tlbReq = some 0 ∧ (∀ b ∈ s.allBricks, b.dev = []) ∧ ∀ e < 34, (s.eng e).ctxs = []) ∧
    (let s := here.onB (fun b => { b with hold := some ⟨0x40000, true, 3, none⟩ })
     s.b.hold = some ⟨0x40000, true, 3, none⟩ ∧ s.resolve 1 0x40000 .fetch false = .ok 0x40000) ∧
    (let s := here.onB (fun b => { b with hold := some ⟨0, true, 67200, some 4⟩ })
     s.b.hold = some ⟨0, true, 67200, some 4⟩ ∧ s.b.saving = none ∧ s.b.running = true) := by decide +kernel

theorem test_meets_DomesSamplesAndPower : towerOf 767 = 1 % 2 ∧ here.inService 767 = true ∧ fld (767 : Word) 9 0 = 767 ∧
    paTower (5 * 65536) = 0 % 2 ∧ here.inServ.hbm.getLsbD 11 = true ∧ 104 < (here.dome (11 / 6)).tcrit ∧ 471 ∈ stackBricks 11 ∧
    767 ∈ domainNumbers 15 ∧ (here.brick 767).cls = none ∧
    (let s := here.setDome 0 { here.dome0 with grants := [⟨0, 1, 4⟩] }
     s.headGrant 0 = some ⟨0, 1, 4⟩ ∧ s.heldSum 0 - (s.brick 0).heldCost + classCost 4 ≤ s.dbud 0) ∧
    (let s := here.setDomain 3 ⟨1, [], 0, 0⟩
     (s.domain 3).state = 1 ∧ s.domainClear 3 = true) ∧
    (let s := here.setDomain 3 ⟨3, [], 0, 0⟩
     (s.domain 3).state = 3 ∧ (s.domain 3).returns ≤ s.clk ∧ (s.domain 3).reqs = []) := by decide +kernel


/-- The head operation at its last cycle. -/
def finished (code : MxCode) (desc pcw : Word) (col n : Nat) : MxOp :=
  ⟨code, desc, pcw, 0, 1, 1, none, false, some Locals.clear, n, 0, col, 0, [], 0, [], [], false, none, 0, none, false, false⟩

theorem test_meets_MatrixResults : (∀ op ∈ [finished .mm 0 0x1C0C44 1 100, finished .cacc 0xFFFF0000 0x1C0C44 0 100000,
      finished .cscl 0x1FFFF0000 0x1C0C44 0 100000, finished .drain 0 0x1C0C44 0 100000, finished .drainq 0x80F00000 0x1C0C44 0 100000],
    (let s := queueing op
     s.b.mxq = op :: [] ∧ op.frozen = false ∧ op.snap ≠ none ∧ op.waiting = false ∧ op.cycles ≤ op.elapsed ∧ op.stop = none ∧
     s.b.lpois = [])) ∧
    (finished .mm 0 0x1C0C44 1 100).col = (finished .mm 0 0x1C0C44 1 100).prod.N ∧
    (finished .mm 0 0x1C0C44 1 100).prod.bad 0 0 = false ∧ regionBad 0x1FFFF0000 = false ∧
    (Drain.ofOp .drainq 0x80F00000 0x1C0C44).bad 0x80F00000 = false ∧ (Drain.ofOp .drainq 0x80F00000 0x1C0C44).pairs = true ∧
    (Drain.ofOp .drain 0 0x1C0C44).lay = 0 ∧ (Drain.ofOp .drain 0x460F00000 0x1C0C44).bad 0x460F00000 = false ∧
    (Drain.ofOp .drain 0x460F00000 0x1C0C44).lay = 1 ∧ Fmt.int8.planes.isSome = true ∧
    (chooseScale .int8 0 (.fin false 1 0)).2 = false ∧ (chooseScale .int8 0 (.fin false 1 1000)).2 = true := by decide +kernel

/-- A device product whose planes are all counted. -/
def plain1 : MxOp := { device1 with pcw := 0x100C44 }

theorem test_meets_MatrixUnitEvents_rows : (let op := { device1 with pcw := 0x140C44 }
      op.prod.zs = true ∧ op.prod.et = false) ∧ plain1.prod.zs = false ∧ plain1.prod.et = false ∧ plain1.frozen = false ∧
    (let s := (queueing plain1).onB (fun b => { b with tlb := [⟨1, 0, 2 ^ 30, 0x1D⟩] })
     s.b.fetching = some (0, plain1) ∧ s.bSkip plain1 = 0 ∧ s.b.holdsBlock plain1 = false ∧ plain1.det = none ∧
     s.streamPa plain1 plain1.nextBlock.1 = .ok plain1.nextBlock.1 ∧ s.ownerNode plain1.nextBlock.1 = none ∧ s.bufs = [] ∧
     (∀ o ∈ s.b.dev, o.kind ≠ .bstream)) := by decide +kernel

/-- A spire stall past its limit, of a task whose handler takes the trap. -/
theorem test_meets_BrickTimersAndResults_handler : let s := (trapping.onY (fun y => { y with tvec := 0x600002FFF })).onB (fun b =>
      { b with own := [(1, 4), (0, 7)], spTimer := 256 })
    s.b.own.find? (fun o => o.1 == 0) = some (0, 7) ∧ s.b.running = true ∧ s.b.domainHeld = false ∧ s.wq = [] ∧ s.b.y.inh = false ∧
    bit s.b.y.tvec.toNat 9 = true ∧ (s.codeBase s.b.t.ctx (fld s.b.y.tvec 31 20)).isSome = true ∧
    (s.b.own.find? (fun o => o.1 == 1)) = some (1, 4) := by decide +kernel

/-- A window of a domain over, and one that is not; a log register and another. -/
theorem test_meets_DomesSamplesAndPower_times : (let s := { here with clk := 8192 }
     (s.domain 15).winAt + 8192 ≤ s.clk ∧ (s.brick 767).cls = none) ∧ here.clk < (here.domain 15).winAt + 8192 ∧
    0x1000 ≤ 0x1001 ∧ (0x1002 - 0x1000) / 2 ≠ (0x1001 - 0x1000) / 2 := by decide +kernel

/-- A walk that a brick's access takes, a page that a product keeps, and an instruction hold whose page has come. -/
theorem test_meets_WalksTokensAndInvalidation_quiet : (away (acc (.load true) 0x100 8)).wq = [] ∧
    (away (acc (.load true) 0x100 8)).upset = none ∧ (away (acc (.load true) 0x100 8)).img = [] ∧
    (let s := away (acc (.load true) 0x100 8)
     s.useWalk (s.walkIn (towerOf s.b.bid) 1 0x100) 1 0x100 .read false = .ok 0x100) ∧
    (let s := { parked with toks := [⟨8, .dev 0 5, 0x40000000, false, false⟩] }
     s.routers = [] ∧ (s.token 8).map Token.aborted = some false ∧ s.useWalk (s.walk 1 0x100) 1 0x100 .read false = .ok 0x100) := by
  decide +kernel

/-- A combinable request on its way, whose wait buffer holds a leader; and a pair that waits for its window and for its reply. -/
theorem test_meets_CombiningEvents_pairs : (let s := { combining with routers := [⟨0, keyC, .leaf 9 4 1, 0, true, none⟩] }
     s.routers = [⟨0, keyC, .leaf 9 4 1, 0, true, none⟩] ∧ s.combKey s.b.bid addC = some keyC ∧ 0 ∈ s.pathFor s.b.bid keyC.pa ∧
     s.goesTo keyC (s.pathFor s.b.bid keyC.pa) addC ((s.pathFor s.b.bid keyC.pa).findIdx (fun x => x == 0)) = true) ∧
    (Tree.pair (.leaf 0 3 1) (.leaf 9 4 1)).leader.1 < 768 ∧ combining.b.bid < 768 := by decide +kernel
/-! ## Engines, tasks, launches, hold-up -/

/-- A fill of 64 bytes at 0x1000 and a collective command, each under way. -/
def fill : Cmd := ⟨BitVec.ofNat 512 (2 + 63 * 2 ^ 28 + 0x1000 * 2 ^ 95 + 0x11223344 * 2 ^ 147), 33, 0, 1, 1, false, none, 4, false⟩
def ctxOf (c : Cmd) : CmdCtx := CmdCtx.accepted c none
def engine (e : Nat) (g : Engine) : State := { here with engs := vset here.engs e g }
def collective : CmdCtx := ctxOf ⟨4, 33, 0, 1, 1, false, none, 4, false⟩

theorem test_meets_EngineCommands : (here.onB (fun b => { b with push := [fill] })).b.push = fill :: [] ∧ here.passed = [] ∧ fill.eng < 34 ∧
    (here.eng 33).takes = true ∧ here.power = .on ∧ here.upset = none ∧
    ({ here with agenda := [.firmware 33 0 0] } : State).agenda = .firmware 33 0 0 :: [] ∧ ((engine 33 ⟨[fill], [], [], [], []⟩).eng 33).queue = fill :: [] ∧
    (let s := engine 33 ⟨[], [ctxOf fill], [], [], []⟩
     let x := ctxOf fill
     (s.eng 33).ctxs = x :: [] ∧ x.tok = none ∧ x.outcome = none ∧ x.asked = 0 ∧ x.cmd.op = 2 ∧ x.cmd.xform = 0 ∧ x.cmd.ds = 0 ∧
     x.cmd.det = none ∧ x.k < x.cmd.runs ∧ x.off < x.cmd.run ∧ ((0x1000 : Nat) : Int) = x.cmd.dst + x.cmd.runOff true x.k + x.off ∧
     min (x.cmd.run - x.off) (32 - 0x1000 % 32) = 32 ∧
     s.xlate (s.engLook 33) x.cmd.ctx 0x1000 .write (coversBlock (x.cmd.dst + x.cmd.runOff true x.k) x.cmd.run 0x1000) = .ok 0x1000 ∧
     s.ownerNode 0x1000 = none ∧ s.wq = [] ∧ s.upset = none ∧ s.img = []) ∧
    (let x := { ctxOf fill with outcome := some (0, 0) }
     let s := engine 33 ⟨[], [x], [], [], []⟩
     (s.eng 33).ctxs = x :: [] ∧ x.poisoned = false ∧ x.asked = 0 ∧ s.wordHeld x.cmd = false ∧ x.cmd.brick = s.b.bid ∧ s.b.running = true ∧ s.b.t.tid = x.cmd.tid ∧
     s.images = [] ∧ x.cmd.act = 0 ∧ x.cmd.target < 2 ^ 30 ∧ addrBrick x.cmd.target = s.b.bid ∧ s.inService s.b.bid = true ∧
     s.takesWrites s.b = true ∧ addrOff x.cmd.target % 8 = 0) ∧
    (⟨BitVec.ofNat 512 (2 + 2 ^ 17), 33, 0, 1, 1, false, none, 4, false⟩ : Cmd).act = 1 := by decide +kernel

theorem test_meets_RoutinesCollectivesAndAnswers : (let x := { ctxOf ⟨3, 31, 0, 1, 1, false, none, 4, false⟩ with started := true, ringIn := [1] }
     let s := engine 31 ⟨[], [x], [], [], []⟩
     s.routine 31 = some (0, x) ∧ 1 ≤ x.ringIn.length ∧ x.ringIn.length < 2 ∧ x.ringOut.length + 1 ≤ 32768 ∧
     x.count + x.ringOut.length ≠ x.cmd.runs * x.cmd.runBytes ∧
     x.idle + 2 ^ 24 ≤ ({ s with clk := 2 ^ 24 } : State).clk) ∧
    (let x := { ctxOf ⟨3, 31, 0, 1, 1, false, none, 4, false⟩ with ringOut := [1] }
     x.count + x.ringOut.length = x.cmd.runs * x.cmd.runBytes) ∧
    ((engine 33 ⟨[], [collective], [], [], []⟩).eng 33).ctxs = collective :: [] ∧ collective.cmd.op = 4 ∧ collective.outcome = none ∧
    (let x := { ctxOf fill with asked := 1, reading := true, want := 2 }
     (engine 33 ⟨[], [x], [], [], []⟩).cmdAt 33 0 = some x ∧ x.asked = 1 ∧ [(1 : Byte), 2].length = x.want) ∧
    ({ ctxOf fill with asked := 1 } : CmdCtx).reading = false ∧
    (let x := { ctxOf ⟨3, 31, 0, 1, 1, false, none, 4, false⟩ with started := true }
     let a : CoreAcc := ⟨2 ^ 63 + 0x40000000, 8, none⟩
     let b : CoreAcc := ⟨0x20000000, 4, some [1, 2, 3, 4]⟩
     let s := { engine 31 ⟨[], [x], [], [], []⟩ with agenda := [.core 31 a] }
     s.agenda = .core 31 a :: [] ∧ s.routine 31 = some (0, x) ∧ coreFits a = true ∧ coreDevice a = true ∧ coreFits b = true ∧ coreIn b 0x20000000 0x4000 = true) ∧
    (let a : CoreAcc := ⟨2 ^ 63 + 0x40000000, 8, none⟩
     let x := { ctxOf ⟨3, 31, 0, 1, 1, false, none, 4, false⟩ with started := true, core := some a }
     let s := engine 31 ⟨[], [x], [], [], []⟩
     (s.eng 31).ctxs = x :: [] ∧ x.asked = 0 ∧ x.cmd.op = 3 ∧ x.cmd.det = none ∧ x.late = [] ∧ x.core = some a ∧ s.faultRoom (engTower 31) = true ∧
     (s.dome (engTower 31)).faultOwed = [] ∧
     (match s.xlate ⟨(s.eng 31).coreTlb, some (engTower 31)⟩ x.cmd.ctx (a.addr % 2 ^ 52) .read false with
       | .error (0, _, _, _) => true
       | _ => false) = true) := by decide +kernel

/-- Brick 0 idle, context 1's code table at 0, and task 2 registered with its record at 0x200 in a state. -/
def task2 : Task := { Task.empty with tid := 2, recVa := 0x200, ctx := 1 }
def entry2 (kind : Nat) : QEnt := { ctx := 1, seq := 0, cnt := 0, kind := kind, quad := 0, prio := 0, recVa := 0x200, launch := 0, spawned := false, made := 0 }
def idle (state : Nat) : State :=
  { (here.writePhys 0 (toBytes 8 0x40001)).writePhys 0x200 (toBytes 64 (recSet 0 state 0 0)) with
    tasks := [task2], b := { here.b with running := false } }
def queued (e : QEnt) : State := (idle 2).setDome 0 { here.dome0 with hw := [e] }

theorem test_meets_ReadyTasksReachBricks : (let s := { idle 3 with exits := [⟨task2, 0, 0, 0, false, false⟩] }
     s.exits.find? (fun e => e.task.tid == 2) = some ⟨task2, 0, 0, 0, false, false⟩ ∧ s.reg 2 = some task2 ∧ s.exitReleased 2 = true ∧
     s.exposedDone 2 = true ∧ task2.reports = [] ∧ task2.bar = 0 ∧ (s.recAt 1 0x200).map (fun p => recState p.2) = some 3) ∧
    ((idle 1).recAt 1 0x200).map (fun p => (recState p.2, recDep p.2)) = some (1, 0) ∧
    ((idle 1).dome 0).spills 0 = false ∧ (idle 1).images = [] := by decide +kernel

theorem test_meets_ReadyTasksReachBricks_dispatch : (let s := queued (entry2 0)
     s.b.running = false ∧ s.b.free = true ∧ s.usable s.b.bid = true ∧ s.b.assigned = none ∧ s.b.reserved = none ∧ s.b.localQ = [] ∧
     s.choose 0 = .take (entry2 0)) ∧ (queued (entry2 1)).choose 0 = .reserve 0 0 ∧
    (let s := (idle 2).onB (fun b => { b with assigned := some (entry2 0) })
     s.b.free = true ∧ s.usable 0 = true ∧ (s.recAt 1 0x200).map (fun p => (recState p.2, recCbi p.2)) = some (2, 0) ∧
     s.taskAt 1 0x200 = some task2 ∧ s.codeBase 1 0 = some 0x40000) ∧
    (let s := (queued (entry2 1)).onB (fun b => { b with reserved := some (0, 0) })
     s.homeTeam 0 = [] ∧ s.holder 0 = some (entry2 1) ∧ s.need (entry2 1) ≠ 0 ∧ s.teamBricks 0 (entry2 1) = some [s.b.bid]) := by
  decide +kernel

/-- Task 2 saved, and brick 0 given its entry. -/
def saved (slot : Option Nat) : Saved := ⟨{ task2 with slot := slot, gen := 1 }, Brick.reset 0, .none, 0, false⟩
def restoring (slot : Option Nat) : State :=
  { idle 5 with images := [saved slot], b := { (idle 5).b with assigned := some (entry2 2) } }

theorem test_meets_SavesRestoresAndQueues : (let s := here.onB (fun b => { b with saving := some (.dependence, 0) })
     s.b.saving = some (.dependence, 0) ∧ s.b.running = true ∧ s.drained = true ∧ (s.recAt s.b.t.ctx s.b.t.recVa).isSome = true ∧
     s.slotFor s.b.t = none ∧ s.images = []) ∧
    (let s := restoring none
     s.images.find? (fun x => x.task.tid == 2) = some (saved none) ∧ s.reg 2 = some task2 ∧ s.mayRestore (saved none) = true ∧ s.givenTo s.b = some (saved none)) ∧
    here.givenTo here.b = none ∧ 0xFFFC0 % 64 + 64 ≤ 64 ∧
    (let s := restoring (some 0)
     s.mayRestore (saved (some 0)) = true ∧ (match s.readImage 1 0 with | .error _ => true | _ => false) = true) ∧
    0xFFFFF + 1 ≤ spaceSize 0 := by decide +kernel

/-- A save area at 0 whose slot 0 holds a header with no granule present. -/
theorem test_meets_SavesRestoresAndQueues_image :
    (((restoring (some 0)).writePhys 0 (toBytes 128 (2 ^ 32 + crc32c (toBytes 128 (2 ^ 32)) * 2 ^ 96))).readImage 1 0).toOption = some [] := by
  decide +kernel

theorem test_meets_SavesRestoresAndQueues_queues : (let s := here.setDome 1 { here.dome1 with rings := [⟨1, 3, 0, [entry2 0]⟩] }
     s.toks = [] ∧ (s.dome 1).hw.length < 4096 ∧ (s.dome 1).oldestRing 3 = some ⟨1, 3, 0, [entry2 0]⟩ ∧
     (s.resolve 1 (ringVa (s.queueWord 1).2 (s.queueWord 1).1 1 3 0) .read false).toOption = some 0) ∧
    (let d := { here.dome0 with hw := (List.range 18).map (fun i => { entry2 0 with seq := i }) }
     d.hw.Nodup ∧ (∀ e ∈ d.hw, e.prio ≤ 3) ∧ d.depth 1 + 16 < d.depth 0) ∧
    (let s := { here.setDome 0 { here.dome0 with hw := [{ entry2 1 with launch := 7 }] } with clk := 2100000 }
     let s := s.onB (fun b => { b with t := { b.t with launch := 7 } })
     (s.longestTeam 7).map Brick.bid = some 0 ∧ s.teamWaits 7 = true ∧ s.b.t.since + (s.dome (towerOf 0)).tslice ≤ s.clk ∧
     (s.setDome 0 here.dome0).teamWaits 7 = false) := by decide +kernel

/-- A launch of one task whose record stands at 0x3000, one under way, and one at the head of its ring. -/
def launch1 : Launch := Launch.fresh 7 1 (2 ^ 48 + 0x3000 * 2 ^ 256 + (1 + 2 * 2 ^ 32) * 2 ^ 640) none
def launching : State := { here with launches := [{ launch1 with rbase := 0x3000 }] }
def ringed : State := here.writePhys 0 (toBytes 64 (1 + 0x10 * 2 ^ 168))

theorem test_meets_LaunchesExpandAndComplete_ring : ringed.power = .on ∧ ringed.ringVaOf 1 = some 0 ∧
    ringed.ringDesc 1 = some (1 + 0x10 * 2 ^ 168) ∧ 1 ≤ ringSize (1 + 0x10 * 2 ^ 168) ∧
    bits (1 + 0x10 * 2 ^ 168) 511 264 = 0 ∧ bits (1 + 0x10 * 2 ^ 168) 163 128 = 0 ∧ ringed.paOf 1 8 .read = some 8 := by decide +kernel

theorem test_meets_LaunchesExpandAndComplete_start : (let s := { here with ringQ := [launch1] }
     s.launches = [] ∧ s.ringHeads.find? s.canStart = some launch1 ∧ s.launchBad launch1 = false ∧
     s.recordsFor launch1 = some (0x3000, false) ∧ launch1.detBit = false) ∧
    (let l := Launch.fresh 7 1 (2 ^ 48) none
     let s := { here with ringQ := [l] }
     s.ringHeads.find? s.canStart = some l ∧ s.launchBad l = true) ∧
    (let l := Launch.fresh 7 1 (2 ^ 43 + 2 ^ 48 + 0x3000 * 2 ^ 256 + (1 + 2 * 2 ^ 32) * 2 ^ 640) none
     let s := { here with ringQ := [l] }
     s.ringHeads.find? s.canStart = some l ∧ s.launchBad l = false ∧ l.detBit = true) := by decide +kernel

theorem test_meets_LaunchesExpandAndComplete_teams : (let l := { launch1 with rbase := 0x3000 }
     launching.launches.find? (fun l => !l.expanded && launching.teamFits l) = some l ∧ l.tsize = 1 ∧ l.nbar = 0 ∧ l.times = [] ∧
     launching.paOf 1 0x3000 .write = some 0x3000 ∧ (launching.dome (l.teamTower 0)).spills (l.f 47 46) = false) ∧
    (let l := { launch1 with expanded := true }
     let s := { here with launches := [l] }
     s.launch? 7 = some l ∧ l.live = 0 ∧ l.traceBit = false ∧ l.comp = 0) ∧
    (Launch.fresh 7 1 (0x4000 * 2 ^ 512) none).comp = 0x4000 ∧ here.paOf 1 0x4000 .write = some 0x4000 := by decide +kernel

/-- Gang register 0 in force for context 1 and group 3, of which this module is rank 0, with a team waiting. -/
def ganging : State :=
  (here.setDome 0 { here.dome0 with gang := vset here.dome0.gang 0 (BitVec.ofNat 64 (2 ^ 63 + 1 * 2 ^ 32 + 3 * 2 ^ 16)), hw := [entry2 1] })
    |> fun s => { s with groups := [⟨3, 0, [0, 1]⟩], gangNext := [(0, 0)] }
def slice1 (team : List Nat) : State := { here with gangNow := [⟨0, 1, 0, team, [], false, false⟩], ftime := 2 ^ 30 }

theorem test_meets_GangSlices : ganging.gangGroup 0 = some ⟨3, 0, [0, 1]⟩ ∧ bit (ganging.gangReg 0).toNat 63 = true ∧
    ganging.ftime + 100000 ≤ 100000 ∧ (99999 : Nat) < ganging.ftime + 100000 ∧ (0, 0) ∈ ganging.gangNext ∧ 0 ≤ ganging.ftime ∧
    ganging.gangTeam 0 (fld (ganging.gangReg 0) 47 32) = some (0, entry2 1) ∧
    (slice1 [1]).gangNow = [⟨0, 1, 0, [1], [], false, false⟩] ∧ 0 + (slice1 [1]).dome0.gslice * 20 / 21 ≤ (slice1 [1]).ftime ∧
    (∀ t ∈ [1], ∃ b ∈ (slice1 [1]).allBricks, b.runs t = true) ∧ (∃ t ∈ [2], ∀ b ∈ (slice1 [2]).allBricks, b.runs t = false) ∧
    0 + (slice1 [2]).dome0.gskew * 20 / 21 ≤ (slice1 [2]).ftime := by decide +kernel

/-- Declarations in scratch memory at 0x100 of one page, and of two entries with one page in common. -/
def declared (n w : Nat) : State := (away (acc (.msd n 7) 0x100 16)).writePhys 0x100 (toBytes 32 w)

theorem test_meets_MustSaveDeclarations : ∀ p ∈ ([(1, 0x5000, false), (2, 0x5000 + 2 ^ 64 + 0x6000 * 2 ^ 128, true)] : List (Nat × Nat × Bool)),
    (let s := declared p.1 p.2.1
     let es := (List.range p.1).map (fun i => mustEntry ((s.readVaNat 1 (0x100 + 16 * i) 16).getD 0))
     s.power = .on ∧ s.b.op? 5 = some (acc (.msd p.1 7) 0x100 16) ∧ s.b.running = true ∧ s.b.t.tid = 1 ∧ s.images = [] ∧
     (∀ i < p.1, s.mustRead 0 1 (0x100 + 16 * i) = .fine) ∧ mustOverlap es = p.2.2 ∧
     (∀ i < p.1, mustReserved ((s.readVaNat 1 (0x100 + 16 * i) 16).getD 0) = false) ∧
     ∀ e ∈ es, ∀ i < e.2, s.mustPage 0 1 (e.1 + 4096 * i) = .fine) := by decide +kernel

/-- Hold-up under way in a phase, with bank 0 open under sequence 4 for one page of context 1. -/
def holding (p : Power) : State :=
  { State.reset with power := p, keep := #v[⟨some (4, false), true, [(1, 0, 0x5000, 1)], true, [], []⟩, ⟨none, false, [], false, [], []⟩] }

theorem test_meets_HoldUpSequence : (let op := acc .store 0x300 8
     (away op).b.dev = [op] ∧ (away op).b.op? 5 = some op ∧ op.stage = .issued ∧ (away op).b.ordered op = true ∧
     (away op).ready (away op).b op = true ∧ op.len ≤ 32 ∧ (away op).img = [] ∧
     (away op).xlate (away op).b.dataLook 1 0x300 .write false = .ok 0x300 ∧ (away op).ownerNode 0x300 = none ∧ (away op).wq = [] ∧
     (away op).upset = none ∧ (away op).poisoned 0x300 8 = false ∧ (away op).routers = [] ∧ (away op).peers = [] ∧
     (away op).power = .on) ∧
    (holding .opened).newest (fun _ => true) = some 0 ∧ ((holding .save).bank 0).hdr = some (4, false) ∧
    ((holding .freeze).bank 0).hdr = some (4, false) ∧ ((holding .save).bank 0).size = 4128 ∧
    (({ holding .save with keep := vset (holding .save).keep 0 { (holding .save).bank 0 with
        segs := [⟨1, 0, 0, 0x5000, 1, List.replicate 4096 0, true⟩] } } : State).bank 0).written = 4128 := by decide +kernel

/-- A fill of a whole block, gathered up to its last sector, and nothing of it. -/
def blockFill : Cmd := ⟨BitVec.ofNat 512 (2 + 4095 * 2 ^ 28 + 0x1000 * 2 ^ 95 + 0x11223344 * 2 ^ 147), 33, 0, 1, 1, false, none, 4, false⟩
def gathered (n : Nat) : CmdCtx := { ctxOf blockFill with ahead := { Ahead.none with buf := [(List.replicate n 1, false)] } }

theorem test_meets_EngineCommands_blocks : ∀ n ∈ [0, 4064], (let x := gathered n
    let s := engine 33 ⟨[], [x], [], [], []⟩
    (s.eng 33).ctxs = x :: [] ∧ x.cmd.op = 2 ∧ x.todo = [] ∧ x.cmd.run = 4096 ∧
    coversBlock (x.cmd.dst + x.cmd.runOff true x.k) x.cmd.run 0x1000 = true ∧ bufLen x.ahead.buf = n ∧ n + (32 - (0x1000 + n) % 32) ≤ 4096 ∧
    (n = 4064 → n + (32 - (0x1000 + n) % 32) = 4096) ∧ (∀ p ∈ x.ahead.buf, p.2 = false) ∧
    s.xlate (s.engLook 33) 1 0x1000 .write true = .ok 0x1000 ∧ s.ownerNode 0x1000 = none ∧ s.wq = [] ∧ s.upset = none ∧ s.img = []) := by
  decide +kernel

/-- A command that an aborted gang slice has stopped, a malformed one, and a firmware submission with nothing waiting. -/
theorem test_meets_EngineCommands_accept : (let c := { fill with eng := 0, stopped := true }
      let s := engine 0 ⟨[c], [], [], [], []⟩
      (s.eng 0).queue = c :: [] ∧ (s.eng 0).ctxs.length < 4 ∧ s.upset = none ∧ s.malformed c 0 = false ∧ c.stopped = true) ∧
    here.malformed fill 33 = true ∧
    (here.ports = [] ∧ here.visits = [] ∧ here.jobs = []) ∧ coversBlock (ctxOf fill).cmd.dst (ctxOf fill).cmd.run 0x1000 = false := by
  decide +kernel

/-- A routine whose slot is loaded or not, about to perform an instruction. -/
def stepping (slots : List (Nat × Bytes)) : State :=
  { engine 31 ⟨[], [{ ctxOf ⟨3, 31, 0, 1, 1, false, none, 4, false⟩ with started := true }], [], [], []⟩ with
    agenda := [.coreStep 31], slots := slots }

theorem test_meets_RoutinesCollectivesAndAnswers_steps : let x := { ctxOf ⟨3, 31, 0, 1, 1, false, none, 4, false⟩ with started := true }
    (stepping []).agenda = .coreStep 31 :: [] ∧ (stepping []).routine 31 = some (0, x) ∧ (stepping []).coreFetch x = none ∧
    (stepping [(0, [0x13, 0, 0, 0])]).coreFetch x = some 0x13 ∧ (stepping [(0, [0x13])]).routine 31 = some (0, x) ∧
    (stepping []).ports = [] ∧ (stepping []).visits = [] ∧ (stepping []).jobs = [] ∧ vget 0 x.regs.x 10 = 0 ∧
    (let y := { x with ringOut := List.replicate (x.cmd.runs * x.cmd.runBytes) 0 }
     y.count + y.lateBytes + y.ringOut.length = y.cmd.runs * y.cmd.runBytes) := by decide +kernel

/-- An answer owed to a command that is parked, and to one whose routine has ended in error. -/
theorem test_meets_RoutinesCollectivesAndAnswers_late : ∀ x ∈ [{ ctxOf fill with asked := 1, tok := some 3 },
      { ctxOf fill with asked := 1, outcome := some (4, 0) }],
    (engine 33 ⟨[], [x], [], [], []⟩).cmdAt 33 0 = some x ∧ 0 < x.asked ∧
    ((x.outcome = none ∧ x.tok.isSome = true) ∨ (x.outcome = some (4, 0) ∧ (4 = 0 ∨ 2 < 4))) := by decide +kernel

/-- A task whose wait on a counter is over. -/
theorem test_meets_ReadyTasksReachBricks_wait : let s := idle 4
    (s.recAt 1 0x200).map (fun p => recState p.2) = some 4 ∧
    s.wakeMet task2 (s.brick 0) 0 2 (2 ^ 32 * 0 + 5) = true ∧ s.images = [] ∧ (s.dome 0).spills 0 = false ∧ s.reg 2 = some task2 ∧
    s.wq = [] ∧ s.upset = none ∧ s.img = [] := by decide +kernel

/-- Queued entries of which the highest of the brick's quadrant is chosen, and a tower whose balancing round is due and is not. -/
theorem test_meets_SavesRestoresAndQueues_rounds : (let s := { here with clk := 2048 }
      (s.dome 1).balAt + 2048 ≤ s.clk) ∧ here.clk < (here.dome 1).balAt + 2048 ∧
    (let s := (idle 2).setDome 0 { here.dome0 with hw := [{ entry2 0 with quad := 3, recVa := 0x240 }, entry2 0] }
     s.choose 0 = .take (entry2 0)) ∧
    (let s := { here with gangNext := [(0, 5)] }
     ∃ p ∈ s.gangNext, s.ftime < p.2) ∧
    (let s := { here with gangNext := [(0, 5)], ftime := 5 }
     ∃ p ∈ s.gangNext, p.2 ≤ s.ftime) := by decide +kernel

/-- Launches that can go on: one under way, and one at the head of its ring. -/
theorem test_meets_LaunchesExpandAndComplete_choice : (true, { launch1 with rbase := 0x3000 }) ∈ launching.expandable ∧
    here.expandable = [] ∧ here.power = .on ∧ here.wq = [] ∧
    (let s := { here with ringQ := [launch1] }
     (false, launch1) ∈ s.expandable ∧ s.upset = none ∧ s.img = [] ∧ s.launchBad launch1 = false) ∧
    (let l := { launch1 with rbase := 0x3000 }
     let head := l.f 371 320 + 64 * l.teamsMade
     head % 4096 ≤ 4080 ∧ launching.paOf 1 head .write = some head ∧ head + 16 ≤ 0x3000) := by decide +kernel

/-- Gang slices: one over, one not, one late whose team runs or waits, one judged, and an abort of a slice and of none. -/
theorem test_meets_GangSlices_ends : (let s := slice1 [1]
      let g : Gang := ⟨0, 1, 0, [1], [], false, false⟩
      s.gangNow.find? s.gangOver = some g ∧ s.gangNow.find? s.gangLate = some g ∧ s.gangRuns g = true) ∧
    (let s := { slice1 [1] with ftime := 0 }
     ∀ g ∈ s.gangNow, s.ftime < g.start + s.dome0.gslice * 20 / 21 ∧ s.ftime < g.start + s.dome0.gskew * 20 / 21) ∧
    (let s := { slice1 [2] with images := [saved none] }
     let g : Gang := ⟨0, 1, 0, [2], [], false, false⟩
     s.gangNow.find? s.gangLate = some g ∧ s.gangRuns g = false) ∧
    (let s := { slice1 [1] with gangStops := [(0, 0), (0, 9)] }
     s.gangStops = (0, 0) :: [(0, 9)] ∧
     s.gangNow.find? (fun g => g.idx == 0 && g.start == 0 && !g.aborted) = some ⟨0, 1, 0, [1], [], false, false⟩ ∧
     s.gangNow.find? (fun g => g.idx == 0 && g.start == 9 && !g.aborted) = none) ∧
    ganging.gangNext.find? (fun p => p.1 == 0 && decide (p.2 ≤ ganging.ftime)) = some (0, 0) ∧ here.gangStops = [] := by decide +kernel

/-- Declarations with a reserved bit, that came poisoned, and of a page that may not be written; and a total beyond the limit. -/
theorem test_meets_MustSaveDeclarations_refused : (let s := declared 1 (0x5000 + 2 ^ 120)
      s.mustRead 0 1 0x100 = .fine ∧ mustReserved ((s.readVaNat 1 0x100 16).getD 0) = true) ∧
    (let s := { declared 1 0x5000 with pois := [0x100] }
     s.mustRead 0 1 0x100 = .refused) ∧
    (let s := (declared 1 0x40000000).writePhys 0x20008 (toBytes 8 0x40000015)
     s.mustRead 0 1 0x100 = .fine ∧ s.mustPage 0 1 (mustEntry ((s.readVaNat 1 0x100 16).getD 0)).1 = .refused) ∧
    335544320 < mustCharge (0x5000, 100000) := by decide +kernel

/-- The record of a running task, with no dependence and with two. -/
theorem test_meets_WaitsAndLeavings_records : ∀ d ∈ [0, 2], (let s := (here.writePhys 0 (toBytes 8 0x40001)).writePhys 0x200 (toBytes 64 (recSet 0 3 0 0 + d * 2 ^ 112))
    let s := s.onB (fun b => { b with t := { b.t with recVa := 0x200 } })
    (s.recAt s.b.t.ctx s.b.t.recVa).map (fun p => (p.1, recState p.2, recDep p.2)) = some (0x200, 3, d) ∧ s.upset = none ∧ s.img = []) := by
  decide +kernel
/-! ## The host's side, the fabric, and whole steps -/

/-- A memory region of context 1 and a request to it on Ethernet port 0. -/
def serving : State := { here with regions := [⟨5, 1, 0x1000, 0x1000⟩] }

theorem test_meets_EthernetRequests : ∀ k ∈ [PortKind.write [1, 2, 3], .read 4096 [], .fetchAdd 1, .cmpSwap 1 2],
    (let o : PortOp := ⟨0, 1, 5, 0x1000, k, none, []⟩
     serving.portTakes 0 1 = true ∧ serving.pair 0 1 = [] ∧ (serving.region o).map Region.ctx = some 1 ∧ 0 < k.len ∧
     0x1000 % 4096 + k.len ≤ 4096 ∧ serving.xlate o.look 1 0x1000 k.use false = .ok 0x1000 ∧ serving.wq = [] ∧ serving.img = [] ∧ serving.ownerNode 0x1000 = none ∧
     serving.poisoned 0x1000 k.len = false ∧ serving.upset = none ∧ (here.region o) = none) := by decide +kernel

/-- A management command's header, and the module with a set of restrictions. -/
def header (arg : Nat) (len : Nat) : MgmtHeader := ⟨0, 0, 0, len, BitVec.ofNat 64 arg⟩
def recovering : State := { State.reset with sec := { Sec.reset with recovery := true } }

theorem test_meets_ManagementCommands : here.hears (header 0 0) = true ∧ here.sec.recovery = false ∧ recovering.hears (header 0 0) = true ∧
    recovering.sec.recovery = true ∧ inRecovery 2 = false ∧ inRecovery 1 = true ∧ (header 0 9).len ≠ 8 ∧
    ({ here with power := .off } : State).hears (header 0 0) = false ∧ fld (header (2 ^ 35) 0).arg 63 32 = 8 ∧ fld (header 6 0).arg 63 17 = 0 ∧
    (here.domeReg 0 6).isSome = true ∧ here.domeReg 0 0xC = none ∧ (here.ctxEnt 1).isSome = true ∧ here.ctxEnt 2 = none ∧
    here.groupUsed 3 = false ∧ ganging.groupUsed 3 = true ∧
    fld (header 16 0).arg 31 5 = 0 ∧ fld (header 16 0).arg 3 0 = 0 := by decide +kernel

theorem test_meets_ManagementCommands_payloads :
    (let pl : Bytes := [2, 0, 1, 0, 0, 0, 7, 0]
     let n := ofBytes (pl.take 2)
     pl.length = 4 + 2 * n ∧ 0 < n ∧ ofBytes ((pl.drop 2).take 2) < n ∧ ∀ i < n, ofBytes ((pl.drop (4 + 2 * i)).take 2) < 1024) ∧
    (let pl : Bytes := List.replicate 4100 0
     pl.length = 4100 ∧ ofBytes (pl.take 2) < 1024 ∧ ofBytes ((pl.drop 2).take 2) = 0 ∧
     ∀ i, 4 ≤ i → i < 4100 → (pl.getD i 0).toNat < 36 ∨ pl.getD i 0 = 0xFF) := by
  refine ⟨by decide +kernel, List.length_replicate, by decide +kernel, by decide +kernel, fun i _ h => .inl ?_⟩
  rw [List.getD_eq_getElem _ _ (by rw [List.length_replicate]; exact h), List.getElem_replicate]
  decide

/-- Key slot 3 loaded for context 1, and the same about to be empty. -/
def keyed (c : Option (List MgmtHeader)) : State := { here with keys := [⟨3, 1, 0, c⟩] }

theorem test_meets_SecurityCommands : fld (header (3 + 2 ^ 16) 1128).arg 6 0 = 3 ∧ fld (header (3 + 2 ^ 16) 1128).arg 31 16 = 1 ∧
    fld (header (3 + 2 ^ 16) 1128).arg 15 7 = 0 ∧ fld (header (3 + 2 ^ 16) 1128).arg 63 32 = 0 ∧ (∃ k ∈ (keyed none).keys, k.slot = 3) ∧
    here.keys = [] ∧ (keyed (some [header 3 0])).keys.find? (fun x => x.slot == 3) = some ⟨3, 1, 0, some [header 3 0]⟩ ∧ (keyed (some [header 3 0])).underSlot 3 = false ∧
    here.sec.locked = true ∧ here.sec.nonce = none ∧
    (let c : Sec := { Sec.reset with locked := false }
     c.tokenHolds (List.replicate 3309 0) (List.replicate 64 0 ++ [2, 0, 0]) = true) ∧
    (let s := { holding .save with keep := vset (holding .save).keep 0 { (holding .save).bank 0 with segs := [⟨1, 0, 0, 0x5000, 1, [7], false⟩] } }
     (dirSegs (s.bank 0).dir)[0]? = some (1, 0, 0, 0x5000, 1) ∧ (s.bank 0).locked = s.sec.locked ∧
     (s.bank 0).segs.find? (fun x => x.ctx == 1 && x.decl == 0 && x.seg == 0) = some ⟨1, 0, 0, 0x5000, 1, [7], false⟩) ∧
    here.sec.active = some 0 ∧ here.mayHalt 0 = false ∧
    ({ here with sec := { here.sec with level := 2, dbgCtx := 1 } } : State).mayHalt 0 = true ∧
    (let s := here.onB (fun b => { b with halted := true })
     (s.brick 0).halted = true ∧ (s.domain (domainOf 0)).reqs = []) := by decide +kernel

/-- Node 1 of the fabric, with node 0 beyond link 2. -/
def noded (s : State) : State :=
  { s with node := some ⟨1, [[2]]⟩, links := vset s.links 2 ⟨true, 4, false, 0, 0, [], 0, 0⟩ }

/-- The last step of a chain of one, which brick 0 of this module began under tag 5. -/
def lastHop : Hop := ⟨0, 0x1000, 1, 1, 0, 7, 0, 1, 5, 2 ^ 64 - 1⟩
def chaining : State :=
  let s := noded (away { acc (.chain 0 1 0 0) 0x1000 8 with stage := .remote 0 })
  { s with agenda := [] }

theorem test_meets_FabricRequests : (noded here).fabricOn = true ∧ (noded here).ownsRange 0x1000 8 = true ∧ (noded here).upset = none ∧
    (noded here).poisoned 0x1000 8 = false ∧ (noded here).wq = [] ∧ (noded here).img = [] ∧
    (noded here).keyFault 1 0 0x1000 false = none ∧ ((noded here).keyFault 1 5 0x1000 false).isSome = true ∧ amoOfCode 9 = some .cas ∧ (noded here).node = some ⟨1, [[2]]⟩ ∧
    (noded here).linkTo 0 = some 2 ∧ ({ noded here with node := some ⟨0, []⟩ } : State).node.any Node.lowest = true ∧
    (noded here).node.any Node.lowest = false ∧
    (let s := { noded ganging with groups := [⟨3, 1, [0, 1]⟩] }
     bit (s.gangReg 0).toNat 63 = true ∧ s.gangGroup 0 = some ⟨3, 1, [0, 1]⟩ ∧ [0, 1].head? = some 0) ∧
    (let x := ctxOf ⟨BitVec.ofNat 512 4, 33, 0, 1, 1, false, none, 4, false⟩
     let s := noded { engine 33 ⟨[], [x], [], [], []⟩ with groups := [⟨0, 0, [1, 0]⟩] }
     (s.eng 33).ctxs = [x] ∧ x.cmd.op = 4 ∧ x.outcome = none ∧ x.parts = [] ∧ s.upset = none ∧ s.groupOf x.cmd = some ⟨0, 0, [1, 0]⟩) := by decide +kernel

theorem test_meets_FabricRequests_chain : Hop.ofPacket lastHop.packet = some lastHop ∧ packetCheck lastHop.packet = chainCheck lastHop.packet ∧
    lastHop.addr % 8 = 0 ∧ chaining.hops = [] ∧ chaining.xlate ⟨[], some (linkTower 0)⟩ 1 0x1000 .write false = .ok 0x1000 ∧
    chaining.wq = [] ∧ chaining.upset = none ∧ chaining.img = [] ∧ lastHop.i + 1 = lastHop.n ∧ chaining.ownerNode 0x1000 = none ∧
    chaining.poisoned 0x1000 8 = false ∧ (chaining.node.map Node.id) = some lastHop.node ∧ lastHop.brick = chaining.b.bid ∧
    (chaining.b.away 5).map DevOp.id = some 5 := by decide +kernel

/-- An empty flit with a sequence number, and one whose CRC is wrong. -/
def flit (seq : Nat) : Bytes :=
  let f := toBytes 252 (seq * 2 ^ 32)
  f ++ toBytes 4 (crc32c f)

theorem test_meets_FabricAnswersAndLinks : (∀ k ∈ [DevKind.load true, .amo .add false 0 false 0, .chain 0 1 0 0, .store],
      (let op := { acc k 0x1000 8 with stage := .remote 0 }
       let s := noded (away op)
       s.fabricOn = true ∧ op.id < 2 ^ 20 ∧ s.b.op? 5 = some op ∧ op.isRemote = true ∧ s.b.running = true ∧ s.b.t.tid = 1 ∧
       s.images = [] ∧ s.upset = none)) ∧
    (noded here).linkHere 2 = true ∧ ((noded here).link 2).up = true ∧ (flit 0).length = 256 ∧ flitGood (flit 0) = true ∧
    bits (ofBytes ((flit 0).take 12)) 47 32 = ((noded here).link 2).rseq ∧ flitGood (flit 1) = true ∧
    bits (ofBytes ((flit 1).take 12)) 47 32 ≠ ((noded here).link 2).rseq ∧ flitGood (List.replicate 256 0) = false ∧
    (noded here).linkHere 3 = true ∧ ((noded here).link 3).up = false ∧ ((noded here).link 2).lanes = 4 ∧
    (noded here).lost 0 = false ∧ ((noded here).setLink 2 ⟨false, 4, false, 0, 0, [], 0, 0⟩).lost 0 = true := by decide +kernel

/-- The state at reset, about to fetch a slot. -/
noncomputable def at_ (w : Nat) : State := State.reset.withFetchWord 24 w

theorem test_meets_StepRunsTheDecodedBundle : let s := at_ 0x030001
    s.agenda = [] ∧ s.due = none ∧ s.powered? = true ∧ s.b.halted = false ∧ s.b.permits = true ∧ s.b.domainHeld = false ∧ s.b.running = true ∧
    s.b.saving = none ∧ s.b.skip = false ∧ s.b.preq = false ∧ s.notices = [] ∧ s.b.r.lp = none ∧ s.b.ic = [] ∧
    (s.b.codeBase + 24 * s.b.pc.toNat) % 4096 + 24 ≤ 4096 ∧
    s.wq = [] ∧ s.upset = none ∧ s.img = [] ∧ s.xlate s.b.fetchLook s.b.t.ctx (s.b.codeBase + 24 * s.b.pc.toNat) .fetch false = .ok 0x40000 ∧ s.poisoned 0x40000 24 = false ∧
    (match s.nextBundle with
      | (.word w, t) => (checkBundle w).isNone && (match t.tryWord w with | .go _ => true | _ => false)
      | _ => false) = true := by decide +kernel

theorem test_meets_Invariant : State.reset.Inv ∧ State.reset.sec.locked = true ∧ (Instr.agAdd .always x1).isSlot = true ∧
    encode (.agAdd .always x1) = some 0x040001 ∧ (Instr.agAdd .always x1).guard = some .always ∧
    (next (exec (.agAdd .always x1) here)).b.iss.ev = .none := by
  refine ⟨⟨by decide +kernel, by decide +kernel⟩, by decide +kernel, by decide +kernel, by decide +kernel, by decide +kernel, by decide +kernel⟩

/-- The walk of a low address, which its context's tables map to itself, reads two entries only. -/
theorem test_serving_walks (m : List Host.Cell) (tick va : Nat) (hv : va < 2 ^ 30)
    (hm : ∀ a, 0x10000 ≤ a → cget 0 m a = cget 0 serving.mem a) :
    ({ serving with mem := m, tick := tick } : State).walk 1 va = .leaf 0x1D 0 (2 ^ 30) := by
  have he : ∀ a, 0x10000 ≤ a → ({ serving with mem := m, tick := tick } : State).readEntry a = serving.readEntry a := fun a ha => by
    have : ∀ n a, 0x10000 ≤ a → readBytes m a n = readBytes serving.mem a n := by
      intro n
      induction n with
      | zero => intros; rfl
      | succ n ih => intro a ha; simp only [readBytes, hm a ha, ih (a + 1) (by omega)]
    exact congrArg (fun l => BitVec.ofNat 64 (ofBytes l)) (this 8 a ha)
  have e3 : ({ serving with mem := m, tick := tick } : State).readEntry 0x10000 = 0x20001 := (he _ (by decide)).trans (by decide +kernel)
  have e2 : ({ serving with mem := m, tick := tick } : State).readEntry 0x20000 = 0x1D := (he _ (by decide)).trans (by decide +kernel)
  have hp : ∀ a n, ({ serving with mem := m, tick := tick } : State).poisoned a n = false := fun a n => by
    have h : serving.pois = [] := by decide +kernel
    simp [State.poisoned, h]
  have hr : ({ serving with mem := m, tick := tick } : State).ctxEnt 1 = some (1 + 2 ^ 90) := by
    show serving.ctxEnt 1 = _; decide +kernel
  have h3 : va / 2 ^ 39 % 8192 = 0 := by omega
  have h2 : va / 2 ^ 30 % 512 = 0 := by omega
  have h1 : va / 2 ^ 30 * 2 ^ 30 = 0 := by omega
  have hroot : rootOf (1 + 2 ^ 90) = 0x10000 := by decide +kernel
  have f3 : physOk 0x10000 = true ∧ bit (0x20001 : Word).toNat 0 = true ∧ bit (0x20001 : Word).toNat 2 = false ∧
    entryMalformed (0x20001 : Word).toNat 3 = false ∧ bits (0x20001 : Word).toNat 51 12 * 4096 = 0x20000 := by decide +kernel
  have f2 : bit (0x1D : Word).toNat 0 = true ∧ bit (0x1D : Word).toNat 2 = true ∧ bit (0x1D : Word).toNat 6 = false ∧
    entryMalformed (0x1D : Word).toNat 2 = false := by decide +kernel
  obtain ⟨p3, b3, l3, m3, n3⟩ := f3
  obtain ⟨b2, l2, g2, m2⟩ := f2
  rw [State.walk, if_neg (by omega), hr]
  simp only [hroot]
  rw [if_pos p3, State.walkFrom]
  simp only [levelShift, h3, if_true, Nat.mul_zero, Nat.add_zero, e3, hp, Bool.false_eq_true, if_false, b3, l3, m3, n3, reduceCtorEq]
  rw [State.walkFrom]
  simp only [levelShift, show ¬ (2 : Nat) = 3 from by decide, h2, if_false, Nat.mul_zero, Nat.add_zero, e2, hp, Bool.false_eq_true, h1,
    b2, l2, g2, m2, if_true, reduceCtorEq]
theorem test_meets_PortReady (o : PortOp) (ho : o.port = 0 ∧ o.qp = 1 ∧ o.rkey = 5 ∧ o.va = 0x1000) (hl : 0 < o.kind.len ∧ o.kind.len ≤ 8) :
    Claims.PortReady serving o 1 0x1000 := by
  obtain ⟨hp, hq, hk, hv⟩ := ho
  have hr : serving.regions = [⟨5, 1, 0x1000, 0x1000⟩] := by decide +kernel
  refine ⟨by rw [hp, hq]; decide +kernel, by rw [hp, hq]; decide +kernel, ?_, ?_, hl.1, by omega, ?_, ?_,
    by decide +kernel, by decide +kernel, by decide +kernel⟩
  · simp [State.region, hr, hk, hv]; omega
  · simp [hr, hk]
  · intro m tick hm i hi
    have hw := test_serving_walks m tick (o.va + i) (by omega) (fun a ha => hm a (.inr (by omega)))
    have ht : ({ serving with mem := m, tick := tick } : State).look o.look 1 (o.va + i) = .leaf 0x1D 0 (2 ^ 30) := by
      simp only [State.look, PortOp.look, hp, State.walkIn, if_neg (show ¬ 2 ^ 52 ≤ o.va + i by omega)]
      exact hw
    have hn : ∀ a, ({ serving with mem := m, tick := tick } : State).ownerNode a = none := fun a => by
      have h : serving.remote = [] := by decide +kernel
      simp [State.ownerNode, h, cget]
    refine ⟨?_, hn (0x1000 + i)⟩
    have hpa : leafPa 0x1D 0 (o.va + i) = 0x1000 + i := by
      simp only [leafPa, show bits (0x1D : Word).toNat 51 12 = 0 from by decide +kernel]; omega
    have hk : ({ serving with mem := m, tick := tick } : State).keyFault 1 (leafKey 0x1D) (0x1000 + i) false = none := by
      have h : serving.blk = [] := by decide +kernel
      have h1 : ({ serving with mem := m, tick := tick } : State).keyLoaded 1 (leafKey 0x1D) = true :=
        (by decide +kernel : serving.keyLoaded 1 (leafKey 0x1D) = true)
      have h2 : bits rawBlock.toNat 13 7 = leafKey 0x1D := by decide +kernel
      have h3 : ({ serving with mem := m, tick := tick } : State).frameKey (0x1000 + i) = leafKey 0x1D := by
        rw [State.frameKey, h]; exact h2
      rw [State.keyFault, h1, h3]
      simp only [Bool.not_true, Bool.false_eq_true, if_false, ne_eq, not_true_eq_false, decide_false, Bool.and_false]
    have hs : secondTier (0x1000 + i) = false := by simp [secondTier]; omega
    have hf : leafFault 0x1D o.kind.use = none := by cases o.kind.use <;> decide +kernel
    rw [State.xlate, ht]
    simp only [State.useWalk, hpa, hs, hf, hn, hk, Bool.false_eq_true, if_false, Option.isSome_none]
  · have h : serving.pois = [] := by decide +kernel
    simp [State.poisoned, h]

theorem test_meets_EthernetRequests_refused : serving.portTakes 0 1 = true ∧ 0x1001 % 8 ≠ 0 ∧ serving.portHears 0 2 = true ∧
    serving.portHears 3 1023 = true ∧ here.region ⟨0, 1, 5, 0x1000, .write [1], none, []⟩ = none ∧
    (let s := { serving with agenda := [.packet 0 1 .unsupported] }
     s.agenda = .packet 0 1 .unsupported :: [] ∧ s.ports = [] ∧ s.visits = [] ∧ s.jobs = []) ∧ here.paused.Nodup := by decide +kernel

theorem test_meets_ManagementCommands_items : (let s := { here with agenda := [.manage (header 0 0) 0x15 []] }
      s.agenda = .manage (header 0 0) 0x15 [] :: [] ∧ 0x14 < 0x15 ∧ s.hears (header 0 0) = true ∧ s.sec.recovery = false ∧
      s.ports = [] ∧ s.visits = [] ∧ s.jobs = []) ∧
    (let h : MgmtHeader := ⟨3, 1, 7, 0, 0⟩
     here.hears h = true ∧ h.status ≠ 0) ∧
    (∀ k ∈ here.keys, k.clearing = none) ∧ here.wq = [] ∧ (∀ i ∈ List.range 34, (here.eng i).ctxs = []) ∧
    (header 0 32).len = (toBytes 32 (1 + 2 * 2)).length ∧ bits (1 + 2 * 2) 2 1 = 2 ∧ bits 1 2 1 < 2 ∧ bits 1 7 3 ≤ 22 := by decide +kernel

/-- A write under key slot 3 that waits in a slice's queue for the slot's end, and slots without one. -/
def underKey : State :=
  let op := { acc .store 0x100 8 with stage := .queued }
  { away op with wq := [⟨0x100, [(0, 5)]⟩], keys := [⟨3, 1, 0, some [header 3 0]⟩]
                 b := { (away op).b with dtlb := [], tlb := [] } }.writePhys 0x20000 (toBytes 8 (0x1D + 3 * 2 ^ 53))

theorem test_meets_SecurityCommands_slots : underKey.underSlot 3 = true ∧
    underKey.keys.find? (fun x => x.slot == 3) = some ⟨3, 1, 0, some [header 3 0]⟩ ∧ (keyed none).underSlot 3 = false ∧
    (∀ k ∈ (keyed none).keys, k.clearing = none) ∧ (header (3 + 2 ^ 16) 1128).len = (List.replicate 1128 (0 : Byte)).length := by
  decide +kernel

/-- A debug session of level 2 over context 1, with its task halted and a debugger's request; and sessions that may not halt it. -/
def debugging (level : Nat) : State := { here with sec := { here.sec with level := level, dbgCtx := 1 } }

theorem test_meets_SecurityCommands_debug : (debugging 2).mayHalt 0 = true ∧ (debugging 2).power = .on ∧ (debugging 1).mayHalt 0 = false ∧
    (debugging 1).sec.level < 2 ∧ (debugging 2).mayHalt 1 = false ∧ ((debugging 2).brick 1).running = false ∧ here.power ≠ .off ∧
    (let s := { (debugging 2).onB (fun b => { b with halted := true }) with agenda := [.debug 0 (.readReg 63)] }
     s.mayHalt 0 = true ∧ (s.brick 0).halted = true ∧ s.agenda = .debug 0 (.readReg 63) :: [] ∧ s.ports = [] ∧ s.visits = [] ∧
     s.jobs = []) := by decide +kernel

/-- A request of node 0 that came by link 2, under key 0 or another. -/
def asked (key : Nat) : FabReq := ⟨⟨2, 0, 9⟩, ⟨0, 1, 0x1000, key, 0, 0⟩, 6⟩

theorem test_meets_FabricRequests_served : (let s := noded here
      s.fabricOn = true ∧ s.ownsRange 0x1000 8 = true ∧ s.jobs = [] ∧ s.visits = [] ∧ s.routers = [] ∧ s.wq = [] ∧ s.upset = none ∧
      s.img = [] ∧ (∀ i ∈ List.range 8, s.keyFault (asked 0).ctx (asked 0).key (0x1000 + i) false = none) ∧
      s.keyFault (asked 3).ctx (asked 3).key 0x1000 false = some 5 ∧ s.poisoned 0x1000 8 = false ∧
      ({ s with pois := [0x1000] } : State).poisoned 0x1000 8 = true ∧
      ∀ t ∈ [0, 1], (s.dome t).cwin = 0) ∧
    (let s := { noded here with dome0 := { here.dome0 with cwin := 15 }, dome1 := { here.dome1 with cwin := 15 } }
     ∀ t ∈ [0, 1], (s.dome t).cwin ≠ 0) ∧ amoOfCode 0 = some .add := by decide +kernel

/-- Wherever the dome's router is, a path from it has a first router. -/
theorem test_meets_FabricRequests_path : ∃ r, (pathIn (asked 0).link 0x1000).head? = some r := by
  have h : linkTower (asked 0).link = 0 := by decide +kernel
  have hs : ∀ a b : Nat, span a b ≠ [] := fun a b => by
    intro e
    have := congrArg List.length e
    simp only [span] at this
    split at this <;> simp at this <;> omega
  have hp : pathIn (asked 0).link 0x1000 ≠ [] := by
    simp only [pathIn, h, between]
    simp [hs]
  cases hc : pathIn (asked 0).link 0x1000 with
  | nil => exact absurd hc hp
  | cons r l => exact ⟨r, rfl⟩

theorem test_meets_FabricRequests_times : (let s := { noded here with node := some ⟨0, []⟩, ftime := 10000 }
      s.node.any Node.lowest = true ∧ s.syncAt + 10000 ≤ s.ftime) ∧ (noded here).ftime < (noded here).syncAt + 10000 ∧
    (0 < 1 ∧ 5 < 2 ^ 64) ∧ (noded here).power = .on ∧
    (let s := { noded ganging with groups := [⟨3, 1, [0, 1]⟩] }
     s.fabricOn = true ∧ 0 ∈ [0, 1]) := by decide +kernel

/-- Wide accesses away at another module, with other sectors to come and with none. -/
def wideAway (k : DevKind) (sect : Nat) : DevOp := { acc k 0x1000 256 with stage := .remote 0, sect := sect, turn := 3, dst := .none }

theorem test_meets_FabricAnswersAndLinks_wide : ∀ k ∈ [DevKind.load false, .store], ∀ n ∈ [0, 0xF7],
    (let op := wideAway k n
     let s := noded (away op)
     s.fabricOn = true ∧ s.b.op? op.id = some op ∧ op.isRemote = true ∧ op.len = 256 ∧ s.routers = [] ∧ op.dst = .none ∧
     ((op.sectorDone op.turn op.acc).sectorsLeft = [] ↔ n = 0xF7)) := by decide +kernel

/-- An acknowledgement flit, of class 10. -/
def ackFlit : Bytes :=
  let f := toBytes 252 (10 * 2 ^ 72)
  f ++ toBytes 4 (crc32c f)

theorem test_meets_FabricAnswersAndLinks_flits : ackFlit.length = 256 ∧ flitGood ackFlit = true ∧ bits (ofBytes (ackFlit.take 12)) 75 72 = 10 ∧
    bits (ofBytes ((flit 0).take 12)) 75 72 ≠ 10 := by decide +kernel

/-- What asks something of a step: items of the agenda, and a clock of the module or a count of the brick that is due. -/
theorem test_meets_StepRunsTheDecodedBundle_items : (∀ i ∈ [Item.turn 5, .freeFrame 9, .startup 1, .loadSlot 0 [1], .event .holdupFreeze],
      (let s := { here with agenda := [i] }
       s.agenda = i :: [] ∧ s.ports = [] ∧ s.visits = [] ∧ s.jobs = [])) ∧ (here.ctxEnt 1).isSome = true ∧
    0 < ({ here.inServ with routines := 4 } : InServ).routines ∧
    (let s := { here with clk := 8192 }
     s.agenda = [] ∧ s.moduleDue.isSome = true) ∧
    (let s := (here.onB (fun b => { b with hold := some ⟨0, true, 67200, some 4⟩ }))
     s.agenda = [] ∧ s.moduleDue = none ∧ s.retested.due.isSome = true) ∧ here.b.stall = none ∧
    (at_ 0x030001).moduleDue = none ∧ (at_ 0x030001).ports = [] ∧ (at_ 0x030001).visits = [] ∧ (at_ 0x030001).jobs = [] ∧
    (at_ 0x030001).retested.due = none ∧ here.b.ecc = [] ∧ bit here.b.y.einj.toNat 63 = false ∧ here.partner.ecc = [] ∧
    bit here.partner.y.einj.toNat 63 = false := by decide +kernel
/-! ## Single steps: values from the spec's tables and worked examples -/

/-- The state after the step that fetches and runs a slot, always guarded, whose source is g1. -/
noncomputable def ran (s : State) (w : Nat) : State := next (step (s.withFetchWord 24 w))

/-- R172: 2^64 - 1 plus 1 is 0 with a carry. -/
theorem test_add_carries : let r := (ran (put here 0xFFFFFFFFFFFFFFFF [(.ia1o, 1)]) 0x030001).b.r.res
    r.ia1r = 0 ∧ r.ia1h = 1 := by decide +kernel

/-- R172: 3 minus 5 borrows. -/
theorem test_sub_borrows : let r := (ran (put here 3 [(.ia1o, 5)]) 0x030401).b.r.res
    r.ia1r = 0xFFFFFFFFFFFFFFFE ∧ r.ia1h = 1 := by decide +kernel

/-- R172: the absolute value of -2^63 is 2^63, with h 1. -/
theorem test_abs_of_lowest : let r := (ran (put here 0x8000000000000000 []) 0x032801).b.r.res
    r.ia1r = 0x8000000000000000 ∧ r.ia1h = 1 := by decide +kernel

/-- R175's example of `ring`. -/
theorem test_ring_wraps : let r := (ran (put here 0x7FF8 [(.ago, 0x3C00000000000010)]) 0x041001).b.r.res
    r.agr = 0x7FF8 ∧ r.agn = 8 := by decide +kernel

/-- R149: a literal of 0xFFFFF, sign-extending and zero-extending, moved to g63. -/
theorem test_literals_extend : vget 0 (ran here 0x7FFFFF).b.r.g 63 = 0xFFFFFFFFFFFFFFFF ∧ vget 0 (ran here 0xFFFFFF).b.r.g 63 = 0xFFFFF := by
  decide +kernel

/-- R177, R178: a jump to bt, with three delay bundles still to issue, and the pc at the next bundle. -/
theorem test_jmp_has_three_delay_bundles : let s := ran (here.setBr (fun b => { b with bt := 9 })) 0x0B9C01
    s.b.r.br.xfer = some (9, 3) ∧ s.b.pc = 1 := by decide +kernel

/-- R177: 1 is not below 0 as an unsigned number. -/
theorem test_cltu_is_unsigned : (ran (put here 0xFFFFFFFFFFFFFFFF [(.bro, 1)]) 0x0B9401).b.r.br.bc = false ∧
    (ran (put here 1 [(.bro, 0xFFFFFFFFFFFFFFFF)]) 0x0B9401).b.r.br.bc = true := by decide +kernel

/-- R201: a scratchpad store writes its bytes little-endian. -/
theorem test_sst_is_little_endian : let s := ran (put here 8 [(.lsd, 0x1122334455667788)]) 0x04AC01
    s.b.loc.read 0 8 8 = [0x88, 0x77, 0x66, 0x55, 0x44, 0x33, 0x22, 0x11] ∧ s.b.loc.read 0 7 1 = [0] := by decide +kernel

/-- R200, R371, R377: a device load of 8 bytes at an odd address ends a task that has no handler. -/
theorem test_misaligned_load_traps : let s := ran (put here 1 [(.lsa, 0x80000)]) 0x04D801
    s.b.running = false ∧ s.b.cnt.ld = 0 ∧ s.b.dev = [] := by decide +kernel

/-- R201: the same load at an aligned address is counted and on its way. -/
theorem test_load_issues : let s := ran (put here 0x100 [(.lsa, 0x80000)]) 0x04D801
    s.b.cnt.ld = 1 ∧ s.b.dev.map DevOp.va = [0x100] ∧ s.b.dev.map DevOp.len = [8] := by decide +kernel

/-- R154, R228, R235: v3 := v1 + v2 by lanes, on its way at the end of the first of its two cycles; no carry enters lane 1. -/
theorem test_vadd_keeps_its_lanes :
    let s := (put here (3 + 1 * 32 + 2 * 1024) []).onR (fun r => { r with v := (r.v.set 1 0xFFFFFFFF).set 2 1 })
    (ran s 0x070001).b.r.pipe.any (fun p => match p.w with | .vec 3 _ x => x == 0 | _ => false) = true := by decide +kernel

/-- A false guard: the slot has no effect and the pc goes on (R148). -/
theorem test_false_guard : let s := ran (put here 1 [(.ia1o, 1)]) 0x130001
    s.b.r.res.ia1r = 0 ∧ s.b.pc = 1 := by decide +kernel

/-- R371, R373 to R375, R384: `trap 5` with its kind enabled runs the handler, with the code in the record. -/
theorem test_trap_enters_the_handler :
    let s := ran (((put here 5 []).writePhys 0 (toBytes 8 0x40001)).onY (fun y => { y with tvec := 0x700002000 })) 0x0C6801
    s.b.pc = 7 ∧ s.b.y.inh = true ∧ fld (vget 0 s.b.y.trec 0) 7 0 = 0x0E ∧ fld (vget 0 s.b.y.trec 0) 63 32 = 5 := by decide +kernel

/-! ## Compression (R71 to R75) -/

/-- Group 0 of each segment in the spec's example: 24 zero bytes, then 0x80 and 0x3F four times, as literals of 9 bits. -/
def pairsHead : Bytes := toBytes 10 (0xBB + ((List.range 8).map (fun i => 2 * (if i % 2 = 0 then 0x80 else 0x3F) * 2 ^ (8 + 9 * i))).sum)

/-- The stored image of the spec's example: eight segments of 40 bytes, each with 15 matches after its head. -/
def pairsImage : Bytes :=
  toBytes 16 ((List.range 8).map (fun i => (16 + 40 * i) * 2 ^ (12 * i))).sum ++
    (List.replicate 8 (pairsHead ++ (List.replicate 15 [0xF9, 0x0F]).flatten)).flatten

/-- The block it stands for. -/
def pairsGroup : Bytes := List.replicate 24 0 ++ [0x80, 0x3F, 0x80, 0x3F, 0x80, 0x3F, 0x80, 0x3F]

theorem test_example_of_compression : pairsHead.take 5 = [0xBB, 0x00, 0xFD, 0x00, 0xF4] ∧ pairsImage.length = 336 ∧
    expandSegment pairsImage 7 16 = some (List.replicate 16 pairsGroup).flatten ∧ expandSector pairsImage 17 = some pairsGroup ∧
    expandSegment (pairsImage.set 26 0xFB) 0 16 = none := by decide +kernel

/-! ## Errors of protected arrays (R142 to R144) -/

/-- The injection of R144's example into the scratchpad word at 0x7010, with bit 9 as its second bit or none; and its store. -/
def armed (second : Nat) : State := (put here 0x7010 [(.lsd, 5)]).onY (fun y => { y with
  einj := BitVec.ofNat 64 (2 ^ 63 + 1 * 2 ^ 48 + second * 2 ^ 41 + 3 * 2 ^ 34 + 0x7010) })

noncomputable def stored (second : Nat) : State := next (exec (.lsSstD .always x1) (armed second))

theorem test_meets_ErrorsAreInjectedAndMet : ∀ p ∈ ([(0x7F, [3]), (9, [3, 9])] : List (Nat × List Nat)),
    injection (armed p.1).b.y.einj = some ⟨1, 0x7010, p.2⟩ ∧ (armed p.1).b.ecc = [] ∧ bit (armed p.1).b.y.einj.toNat 63 = true ∧
    fld ((armed p.1).src x1) 63 22 = 0 ∧ fld ((armed p.1).src x1) 21 20 = 0 ∧ fld ((armed p.1).src x1) 19 0 = 0x7010 ∧
    (armed p.1).b.hullHit 0 0x7010 8 = false ∧ (armed p.1).b.mxHoldsStore 0 0x7010 8 = false ∧
    (armed p.1).b.mxHoldsLoad 0 0x7010 8 = false ∧ (stored p.1).b.ecc = [⟨1, 0x7010, p.2⟩] ∧ (stored p.1).b.lpois = [] ∧
    (stored p.1).b.hullHit 0 0x7010 8 = false ∧ (stored p.1).b.mxHoldsLoad 0 0x7010 8 = false ∧ bit here.b.y.einj.toNat 63 = false ∧
    (stored p.1).guardOn .always = true := by
  decide +kernel

/-- R144's example: the load is corrected, and the log shows array 1, ncor 1, syndrome 0x04, addr 0x7010, unc 0. -/
theorem test_injected_bit_is_corrected : let s := next (exec (.lsSldD .always x1) (stored 0x7F))
    cget 0 s.b.y.elog 1 = BitVec.ofNat 128 (0x7010 + 2 ^ 63 + 0x04 * 2 ^ 64 + 1 * 2 ^ 72 + 1 * 2 ^ 96 + 1 * 2 ^ 112) ∧ s.b.ecc = [] := by
  decide +kernel

/-- R144's example with bit1 9: the load's word is poisoned, and the log shows nunc 1 and unc 1. -/
theorem test_injected_bits_poison : let r := (stored 9).b.checkRead 0 0x7010 8 1
    r.2 = some 0x7010 ∧ r.1.lpois = [(0, 0x7010)] := by
  decide +kernel

/-- R142, R376: a bundle that reads a g register with two inverted bits ends its task; one that reads another does not. -/
theorem test_register_error_ends_the_task :
    let s := here.onB (fun b => { b with ecc := [⟨9, 1, [0, 1]⟩] })
    (ran s 0x030001).b.running = false ∧ (ran s 0x030002).b.running = true := by decide +kernel

end Sys2Proof.Tests
end

section
/-!
PROOFS. The address unit (R174, R175): sign extension, masks by a power of two, and the two results of every row.
-/

namespace Sys2Proof.Machine

open Sys2Proof Sys2Proof.Laws

/-! ## Fields and sign extension -/

theorem fld_lt (x : Word) (hi lo : Nat) : fld x hi lo < 2 ^ (hi + 1 - lo) := Nat.mod_lt _ (Nat.two_pow_pos _)

theorem bit_eq_testBit (x i : Nat) : bit x i = x.testBit i := by
  rw [Nat.testBit_eq_decide_div_mod_eq, bit, beq_eq_decide]

/-- The library's signed reading of the low bits is that of R10. -/
theorem toInt_truncate (x : Word) (n : Nat) : (x.truncate n).toInt = sextInt x.toNat n := by
  cases n with
  | zero => simp [sextInt, BitVec.eq_nil (x.truncate 0)]
  | succ n =>
    rw [BitVec.toInt_eq_msb_cond, BitVec.msb_eq_getLsbD_last, BitVec.getLsbD_setWidth, ← BitVec.testBit_toNat]
    simp [sextInt, bit_eq_testBit]

theorem signExtend_truncate (x : Word) (n : Nat) : (x.truncate n).signExtend 64 = sext x.toNat n := by
  rw [BitVec.signExtend, toInt_truncate, sext]

/-! ## Aligned blocks of 2^k bytes -/

/-- `(a and not M) or (c and M)` for `M = 2^k − 1` (R175): the block of `a` at the offset of `c`. -/
def mergeLow (k : Nat) (a c : Word) : Word :=
  (a &&& ~~~BitVec.ofNat 64 (2 ^ k - 1)) ||| (c &&& BitVec.ofNat 64 (2 ^ k - 1))

theorem testBit_mergeLow (k : Nat) (a c : Word) (i : Nat) :
    (mergeLow k a c).toNat.testBit i = if i < k then c.toNat.testBit i else a.toNat.testBit i := by
  simp only [mergeLow, BitVec.testBit_toNat, BitVec.getLsbD_or, BitVec.getLsbD_and, BitVec.getLsbD_not, BitVec.getLsbD_ofNat,
    Nat.testBit_two_pow_sub_one]
  by_cases inWord : i < 64
  · by_cases low : i < k <;> simp [inWord, low]
  · simp [inWord, BitVec.getLsbD_of_ge _ i (Nat.le_of_not_lt inWord)]

theorem mergeLow_div (k : Nat) (a c : Word) : (mergeLow k a c).toNat / 2 ^ k = a.toNat / 2 ^ k := by
  refine Nat.eq_of_testBit_eq fun i => ?_
  rw [Nat.testBit_div_two_pow, testBit_mergeLow, if_neg (by omega), Nat.testBit_div_two_pow]

theorem mergeLow_mod (k : Nat) (a c : Word) : (mergeLow k a c).toNat % 2 ^ k = c.toNat % 2 ^ k := by
  refine Nat.eq_of_testBit_eq fun i => ?_
  rw [Nat.testBit_mod_two_pow, testBit_mergeLow, Nat.testBit_mod_two_pow]
  by_cases low : i < k <;> simp [low]

theorem ringNext_eq_mergeLow (a b : Word) :
    ringNext a b = mergeLow (fld b 63 58) a (a + (b.truncate 32).signExtend 64) := by
  rw [signExtend_truncate]
  rfl

theorem alignDown_eq_mergeLow (a b : Word) : alignDown a b = mergeLow (fld b 5 0) a 0 := by
  simp [alignDown, mergeLow]

theorem alignDown_toNat (a b : Word) : (alignDown a b).toNat = a.toNat / 2 ^ fld b 5 0 * 2 ^ fld b 5 0 := by
  have block := mergeLow_div (fld b 5 0) a 0
  have offset : (mergeLow (fld b 5 0) a 0).toNat % 2 ^ fld b 5 0 = 0 := by
    rw [mergeLow_mod]
    exact Nat.zero_mod _
  rw [alignDown_eq_mergeLow, ← block, Nat.div_mul_cancel (Nat.dvd_of_mod_eq_zero offset)]

/-! ## The operation of each row -/

section
variable (gd : Guard) (x : Src) (s : State)

theorem exec_agAdd : exec (.agAdd gd x) s = s.ag gd x (fun a b => (a + b, a)) := rfl

theorem exec_agIdx : exec (.agIdx gd x) s =
    s.ag gd x (fun a b => (a + sext b.toNat 32 * BitVec.ofNat 64 (2 ^ fld b 34 32), a)) := rfl

theorem exec_agPost : exec (.agPost gd x) s = s.ag gd x (fun a b => (a, a + b)) := rfl

theorem exec_agPre : exec (.agPre gd x) s = s.ag gd x (fun a b => (a + b, a + b)) := rfl

theorem exec_agRing : exec (.agRing gd x) s = s.ag gd x (fun a b => (a, ringNext a b)) := rfl

theorem exec_agAlign : exec (.agAlign gd x) s =
    s.ag gd x (fun a b => (alignDown a b, alignDown a b + BitVec.ofNat 64 (2 ^ fld b 5 0))) := rfl

theorem exec_agSlot : exec (.agSlot gd x) s =
    s.ag gd x (fun a b => (BitVec.ofNat 64 (4096 * (a.toNat % 256) + b.toNat % 4096),
      BitVec.ofNat 64 ((a.toNat + 1) % 256))) := rfl

theorem exec_agAcc : exec (.agAcc gd x) s =
    s.ag gd x (fun a b => (BitVec.ofNat 64 (0x40000 * fld b 8 8 + 1024 * (a.toNat % 256) + 4 * fld b 7 0), a + 1)) := rfl

/-- A slot that runs the address operation `op` completes with the two values of `op`. -/
theorem address_of_exec_eq_ag {f : Guard → Src → Instr} {op : Word → Word → Word × Word}
    {P : Word → Word → Word → Word → Prop} (run : ∀ gd x s, exec (f gd x) s = s.ag gd x op)
    (row : ∀ a b, P a b (op a b).1 (op a b).2) : Claims.Address f P :=
  fun gd x s on => ⟨_, _, (run gd x s).trans (State.ag_on x op on), row _ _⟩

/-- The code of a trigger slot is its destination field (R145). -/
theorem code_of_encode {i : Instr} {c : Nat} (row : encode i = some (slotWord gd c x)) (hc : c < 1024) :
    ∃ w, encode i = some w ∧ w.toNat / 2 ^ 10 % 2 ^ 10 = c :=
  ⟨_, row, (slotFields gd c x hc).2.1⟩

theorem addressCodes : ∀ p ∈ [(Instr.agAdd gd x, 0x100), (.agIdx gd x, 0x101), (.agPost gd x, 0x102),
    (.agPre gd x, 0x103), (.agRing gd x, 0x104), (.agAlign gd x, 0x105), (.agSlot gd x, 0x106), (.agAcc gd x, 0x107)],
    ∃ w, encode p.1 = some w ∧ w.toNat / 2 ^ 10 % 2 ^ 10 = p.2 := by
  have code {i : Instr} {c : Nat} := code_of_encode gd x (i := i) (c := c)
  simp only [List.forall_mem_cons, List.not_mem_nil, false_imp_iff, implies_true, and_true]
  exact ⟨code rfl (by decide), code rfl (by decide), code rfl (by decide), code rfl (by decide),
    code rfl (by decide), code rfl (by decide), code rfl (by decide), code rfl (by decide)⟩

end

/-- Settles O6: each row runs its operation on the moved value and `ag.o`; `ring` and `align` keep to an aligned block. -/
theorem addressResults : Obligations.AddressResults := by
  unfold Obligations.AddressResults
  refine ⟨addressCodes, ?add, ?idx, ?post, ?pre, ?ring, ?align, ?slot, ?acc⟩
  case add => exact address_of_exec_eq_ag exec_agAdd fun a b => ⟨rfl, rfl⟩
  case idx => exact address_of_exec_eq_ag exec_agIdx fun a b => ⟨by rw [signExtend_truncate], rfl⟩
  case post => exact address_of_exec_eq_ag exec_agPost fun a b => ⟨rfl, rfl⟩
  case pre => exact address_of_exec_eq_ag exec_agPre fun a b => ⟨rfl, rfl⟩
  case ring =>
    refine address_of_exec_eq_ag exec_agRing fun a b => ⟨rfl, ?_⟩
    rw [ringNext_eq_mergeLow]
    exact ⟨mergeLow_div .., mergeLow_mod ..⟩
  case align => exact address_of_exec_eq_ag exec_agAlign fun a b => ⟨alignDown_toNat a b, rfl⟩
  case slot =>
    refine address_of_exec_eq_ag exec_agSlot fun a b => ⟨?_, ?_⟩
    · rw [BitVec.toNat_ofNat, Nat.mod_eq_of_lt (by omega)]
    · rw [BitVec.toNat_ofNat, Nat.mod_eq_of_lt (by omega)]
  case acc =>
    refine address_of_exec_eq_ag exec_agAcc fun a b => ⟨?_, rfl⟩
    have half := fld_lt b 8 8
    have column := fld_lt b 7 0
    rw [BitVec.toNat_ofNat, Nat.mod_eq_of_lt (by omega)]

end Sys2Proof.Machine
end

section
/-!
PROOFS. The task operations (R347 to R354): what each one does where its checks pass, and its refusal in deterministic mode.
-/

namespace Sys2Proof.Machine

open Sys2Proof

/-! ## The checks of a task operation -/

/-- A trigger's value within its bound is valid (R159). -/
theorem State.valid_within {s : State} {a : Word} {n : Nat} (k : State → Out) (within : a.toNat ≤ n) :
    s.valid (decide (n < a.toNat)) k = k s := by
  rw [decide_eq_false (Nat.not_lt.mpr within), State.valid_ok]

/-- A write that the replay queue has room for, or that needs no entry, goes on (R101). -/
theorem State.replayRoom_ok {s : State} {va : Nat} (k : State → Out) (room : Claims.ReplayRoom s va) :
    s.replayRoom va k = k s := by
  refine (congrArg (s.unless · _ k) ?passes).trans (s.unless_false _ k)
  case passes =>
    rw [Bool.and_eq_false_iff]
    rcases room with short | ⟨freePage, noFault⟩
    · left
      simpa using short
    · right
      refine Bool.or_eq_false_iff.mpr ⟨?_, ?_⟩
      · simpa using freePage
      · split
        · exact absurd ‹_› (noFault _ _ _)
        · rfl

section
variable {s : State} {gd : Guard} {x : Src}

/-- An operation that writes a record is placed as a counted store of its 64 bytes (R348). -/
theorem State.recordOp_on (rel : Bool) (kind : State → DevKind) (on : s.guardOn gd = true) (free : s.isDet = false)
    (aligned : (s.src x).toNat % 64 = 0) (room : Claims.ReplayRoom s (s.src x).toNat) (count : s.b.cnt.st < 65535) :
    s.recordOp gd x rel kind = .next ((s.defer (.cnt .st)).place
      { DevOp.basic (kind (s.defer (.cnt .st))) (s.src x).toNat 64 with rel := rel, scope := 4 }) := by
  unfold State.recordOp
  rw [State.guarded_on _ on, State.refuseDet_ok _ free, State.aligned_ok _ aligned, State.replayRoom_ok _ room,
    State.counted_ok (c := .st) _ (Nat.succ_le_of_lt count)]

theorem State.recordOp_det (rel : Bool) (kind : State → DevKind) (on : s.guardOn gd = true) (det : s.isDet = true) :
    s.recordOp gd x rel kind = .next (s.illegal 6) :=
  (State.guarded_on _ on).trans (State.refuseDet_bad _ det)

end

/-! ## The operation of each row -/

section
variable (gd : Guard) (x : Src) (s : State)

theorem exec_syTspawn : exec (.syTspawn gd x) s = s.recordOp gd x true (fun _ => .tspawn) := rfl

theorem exec_syTdec : exec (.syTdec gd x) s = s.recordOp gd x true (fun _ => .tdec) := rfl

theorem exec_syTinc : exec (.syTinc gd x) s = s.recordOp gd x false (fun s => .tinc (fld (s.opd .syo) 15 0)) := rfl

theorem exec_syTkill : exec (.syTkill gd x) s = s.recordOp gd x true (fun s => .tkill (bit (s.opd .syo).toNat 0)) := rfl

theorem exec_syTread : exec (.syTread gd x) s = execSyTread gd x s := rfl

theorem exec_syTself : exec (.syTself gd x) s = execSyTself gd x s := rfl

theorem exec_syTteam : exec (.syTteam gd x) s = execSyTteam gd x s := rfl

theorem exec_syTprio : exec (.syTprio gd x) s = execSyTprio gd x s := rfl

end

section
variable {s : State} {gd : Guard} {x : Src} (on : s.guardOn gd = true)
include on

theorem exec_syTread_on (free : s.isDet = false) (aligned : (s.src x).toNat % 64 = 0) (count : s.b.cnt.ld < 65535) :
    exec (.syTread gd x) s = .next ((s.defer (.cnt .ld)).place
      { DevOp.basic .tread ((s.src x).toNat + 8 * fld (s.opd .syo) 8 6) 8 with dst := Claims.gDest s (s.opd .syo) }) := by
  rw [exec_syTread, execSyTread, State.guarded_on _ on, State.refuseDet_ok _ free, State.aligned_ok _ aligned,
    State.counted_ok (c := .ld) _ (Nat.succ_le_of_lt count)]
  rfl

theorem exec_syTread_det (det : s.isDet = true) : exec (.syTread gd x) s = .next (s.illegal 6) := by
  rw [exec_syTread, execSyTread, State.guarded_on _ on, State.refuseDet_bad _ det]

theorem exec_syTself_on (sel : (s.src x).toNat ≤ 1) : exec (.syTself gd x) s =
    .next (s.launchOp 1 (.res .syr (BitVec.ofNat 64 (if s.src x = 0 then s.b.t.recVa else s.b.t.frame)))) := by
  rw [exec_syTself, execSyTself, State.guarded_on _ on]
  exact State.valid_within _ sel

theorem exec_syTteam_on (zero : s.src x = 0) :
    exec (.syTteam gd x) s = .next (s.launchOp 1 (.res .syr s.b.t.teamWord)) := by
  rw [exec_syTteam, execSyTteam, State.guarded_on _ on, decide_eq_false (not_not.mpr zero), State.valid_ok]

theorem exec_syTprio_on (prio : (s.src x).toNat ≤ 3) :
    exec (.syTprio gd x) s = .next (s.defer (.prio (s.src x).toNat)) := by
  rw [exec_syTprio, execSyTprio, State.guarded_on _ on]
  exact State.valid_within _ prio

end

/-! ## The word of `tteam` (R353) -/

theorem Task.teamWord_toNat (t : Task) :
    t.teamWord.toNat = t.member % 1024 + 2 ^ 12 * (t.tsize % 1024) + 2 ^ 32 * (t.team % 2 ^ 32) := by
  unfold Task.teamWord
  rw [BitVec.toNat_ofNat, Nat.mod_eq_of_lt (by omega)]

theorem Task.teamWord_fields (t : Task) : fld t.teamWord 9 0 = t.member % 1024 ∧ fld t.teamWord 21 12 = t.tsize % 1024 ∧
    fld t.teamWord 63 32 = t.team % 2 ^ 32 := by
  simp only [fld, bits, Task.teamWord_toNat]
  omega

/-- Settles O22: each record operation passes its checks and is placed, or is refused before any of them in deterministic mode;
the other three answer from the task the brick holds. -/
theorem taskOperations : Obligations.TaskOperations := by
  unfold Obligations.TaskOperations
  intro gd x s on
  refine ⟨?records, exec_syTread_on on, ?self, ?frame, ?team, exec_syTprio_on on, ?refused⟩
  case records =>
    intro free aligned room count
    have placed rel kind := State.recordOp_on rel kind on free aligned room count
    simp only [List.forall_mem_cons, List.not_mem_nil, false_imp_iff, implies_true, and_true]
    exact ⟨(exec_syTspawn ..).trans (placed ..), (exec_syTdec ..).trans (placed ..), (exec_syTinc ..).trans (placed ..),
      (exec_syTkill ..).trans (placed ..)⟩
  case self =>
    intro zero
    rw [exec_syTself_on on (by simp [zero]), if_pos zero]
  case frame =>
    intro one
    rw [exec_syTself_on on (by simp [one]), if_neg (by simp [one])]
  case team => exact fun zero => ⟨_, exec_syTteam_on on zero, s.b.t.teamWord_fields⟩
  case refused =>
    intro det
    have refused rel kind := State.recordOp_det (x := x) rel kind on det
    simp only [List.forall_mem_cons, List.not_mem_nil, false_imp_iff, implies_true, and_true]
    exact ⟨(exec_syTspawn ..).trans (refused ..), (exec_syTdec ..).trans (refused ..), (exec_syTinc ..).trans (refused ..),
      (exec_syTkill ..).trans (refused ..), exec_syTread_det on det⟩

end Sys2Proof.Machine
end

section
/-!
PROOFS. System registers (R379 to R381): the checks of an access, what a read answers and what a write leaves at the end of its cycle.
-/

namespace Sys2Proof.Machine

open Sys2Proof

/-! ## The access list (R380) -/

theorem sysAcc_unlisted {n : Nat} (unlisted : ¬ (n ≤ 0x002 ∨ (0x004 ≤ n ∧ n ≤ 0x009) ∨ (0x010 ≤ n ∧ n ≤ 0x017) ∨ n = 0x040 ∨
    n = 0x041 ∨ (0x102 ≤ n ∧ n ≤ 0x119))) : sysAcc n = none := by
  rw [sysAcc, if_neg (by omega), if_neg (by omega), if_neg (by omega), if_neg (by omega), if_neg (by omega), if_neg (by omega)]

theorem sysAcc_einj : sysAcc 0x040 = some ⟨true, true, true⟩ := rfl

theorem sysAcc_icinv : sysAcc 0x041 = some ⟨true, false, true⟩ := rfl

theorem sysAcc_log {n : Nat} (log : 0x102 ≤ n ∧ n ≤ 0x119) : sysAcc n = some ⟨true, true, true⟩ := by
  rw [sysAcc, if_neg (by omega), if_neg (by omega), if_neg (by omega), if_neg (by omega), if_neg (by omega), if_pos log]

/-- Every privileged register may be written; `icinv` alone may not be read. -/
theorem sysAcc_privileged {n : Nat} (privileged : n = 0x040 ∨ n = 0x041 ∨ (0x102 ≤ n ∧ n ≤ 0x119)) :
    ∃ rd, sysAcc n = some ⟨true, rd, true⟩ ∧ n < 2 ^ 12 := by
  rcases privileged with rfl | rfl | log
  · exact ⟨true, sysAcc_einj, by decide⟩
  · exact ⟨false, sysAcc_icinv, by decide⟩
  · exact ⟨true, sysAcc_log log, by omega⟩

/-! ## What bars an access (R381) -/

section
variable {s : State} {n : Nat} {a : SysAcc} {write : Bool}

theorem State.sysBar_unlisted (unlisted : sysAcc n = none) : s.sysBar n write = some 9 := by
  rw [State.sysBar, unlisted]

theorem State.sysBar_ordinary (listed : sysAcc n = some a) (priv : a.priv = true) (ordinary : s.cls = 0) :
    s.sysBar n write = some 8 := by
  simp [State.sysBar, listed, priv, ordinary]

variable (listed : sysAcc n = some a) (privileged : s.cls ≠ 0)
include listed privileged

theorem State.sysBar_granted (granted : (if write then a.wr else a.rd) = true) : s.sysBar n write = none := by
  simp [State.sysBar, listed, privileged, granted]

theorem State.sysBar_withheld (withheld : (if write then a.wr else a.rd) = false) : s.sysBar n write = some 9 := by
  simp [State.sysBar, listed, privileged, withheld]

end

/-! ## One access by `rsr` or `wsr` -/

/-- What `rsr` and `wsr` share: the reserved bits, the bars of R381, then the effect on the register's number. -/
def State.sysAccess (s : State) (gd : Guard) (x : Src) (write : Bool) (effect : State → Nat → State) : Out :=
  s.guarded gd (fun s =>
    s.valid (decide (fld (s.src x) 63 12 ≠ 0)) (fun t =>
      match t.sysBar (s.src x).toNat write with
      | some c => .next (t.illegal c)
      | none => .next (effect t (s.src x).toNat)))

theorem exec_syRsr (gd : Guard) (x : Src) (s : State) : exec (.syRsr gd x) s =
    s.sysAccess gd x false (fun s n => s.launchOp 1 (.res .syr (s.sysReg n))) := rfl

theorem exec_syWsr (gd : Guard) (x : Src) (s : State) : exec (.syWsr gd x) s =
    s.sysAccess gd x true (fun s n => s.defer (.sys n (s.opd .syo))) := rfl

section
variable {s : State} {gd : Guard} {x : Src} {n c : Nat} {write : Bool} (effect : State → Nat → State)
  (on : s.guardOn gd = true)
include on

theorem State.sysAccess_reserved (reserved : fld (s.src x) 63 12 ≠ 0) :
    s.sysAccess gd x write effect = .next (s.illegal 2) := by
  rw [State.sysAccess, State.guarded_on _ on, decide_eq_true reserved, State.valid_bad]

variable (reg : (s.src x).toNat = n) (small : n < 2 ^ 12)
include reg small

/-- A number within its twelve bits is judged by the bars of R381 alone. -/
theorem State.sysAccess_number : s.sysAccess gd x write effect = .next (match s.sysBar n write with
    | some c => s.illegal c
    | none => effect s n) := by
  have unreserved : fld (s.src x) 63 12 = 0 := by
    rw [fld, bits, reg, Nat.div_eq_of_lt small, Nat.zero_mod]
  rw [State.sysAccess, State.guarded_on _ on, unreserved, decide_eq_false (not_not.mpr rfl), State.valid_ok, reg]
  cases s.sysBar n write <;> rfl

theorem State.sysAccess_open (unbarred : s.sysBar n write = none) :
    s.sysAccess gd x write effect = .next (effect s n) := by
  rw [State.sysAccess_number effect on reg small, unbarred]

theorem State.sysAccess_barred (barred : s.sysBar n write = some c) :
    s.sysAccess gd x write effect = .next (s.illegal c) := by
  rw [State.sysAccess_number effect on reg small, barred]

theorem exec_syRsr_open (unbarred : s.sysBar n false = none) :
    exec (.syRsr gd x) s = .next (s.launchOp 1 (.res .syr (s.sysReg n))) :=
  (exec_syRsr ..).trans (State.sysAccess_open _ on reg small unbarred)

theorem exec_syRsr_barred (barred : s.sysBar n false = some c) : exec (.syRsr gd x) s = .next (s.illegal c) :=
  (exec_syRsr ..).trans (State.sysAccess_barred _ on reg small barred)

theorem exec_syWsr_open (unbarred : s.sysBar n true = none) :
    exec (.syWsr gd x) s = .next (s.defer (.sys n (s.opd .syo))) :=
  (exec_syWsr ..).trans (State.sysAccess_open _ on reg small unbarred)

theorem exec_syWsr_barred (barred : s.sysBar n true = some c) : exec (.syWsr gd x) s = .next (s.illegal c) :=
  (exec_syWsr ..).trans (State.sysAccess_barred _ on reg small barred)

end

/-! ## The words read (R380) -/

/-- `tstate`: two flags in a word of zeros. -/
theorem tstate_fields : ∀ inh notice : Bool, let v := BitVec.ofNat 64 (inh.toNat + 2 * notice.toNat)
    v.getLsbD 0 = inh ∧ v.getLsbD 1 = notice ∧ v.toNat < 4 := by
  decide

/-- `ctxid`: the context id below its class. -/
theorem ctxid_fields (ctx cls : Nat) : let v := BitVec.ofNat 64 (ctx % 2 ^ 16 + 2 ^ 16 * cls)
    fld v 15 0 = ctx % 2 ^ 16 ∧ fld v 17 16 = cls % 4 := by
  simp only [fld, bits, BitVec.toNat_ofNat]
  omega

theorem State.sysReg_ptroot {s : State} {e : Nat} (entry : s.ctxEnt s.b.t.ctx = some e) :
    s.sysReg 0x009 = BitVec.ofNat 64 (bits e 115 90 * 2 ^ 16) := by
  simp [State.sysReg, entry]

theorem State.sysReg_log (s : State) {n : Nat} (log : 0x102 ≤ n) : s.sysReg n =
    if n % 2 = 0 then (cget 0 s.b.y.elog ((n - 0x100) / 2)).extractLsb' 0 64
    else (cget 0 s.b.y.elog ((n - 0x100) / 2)).extractLsb' 64 64 := by
  rw [State.sysReg, if_neg (by omega), if_neg (by omega), if_neg (by omega), if_neg (by omega), if_neg (by omega),
    if_neg (by omega), if_neg (by omega), if_neg (by omega)]

theorem State.sysReg_logLow (s : State) {i : Nat} (listed : 1 ≤ i) :
    s.sysReg (0x100 + 2 * i) = (cget 0 s.b.y.elog i).extractLsb' 0 64 := by
  rw [State.sysReg_log s (by omega), if_pos (by omega), show (0x100 + 2 * i - 0x100) / 2 = i by omega]

theorem State.sysReg_logHigh (s : State) {i : Nat} (listed : 1 ≤ i) :
    s.sysReg (0x101 + 2 * i) = (cget 0 s.b.y.elog i).extractLsb' 64 64 := by
  rw [State.sysReg_log s (by omega), if_neg (by omega), show (0x101 + 2 * i - 0x100) / 2 = i by omega]

/-! ## A write at the end of its cycle (R380) -/

section
variable (b : Brick) (x : Word) {n : Nat}

theorem Brick.write_sys : b.write (.sys n x) = b.writeSys n x := rfl

theorem Brick.writeSys_wcmp {c : Nat} (hc : c < 8) : b.writeSys (0x010 + c) x =
    { b with y := { b.y with wcmp := vset b.y.wcmp c (x &&& 0xFFFFFFFFFFF0FFFF) } } := by
  have mask : sysMask (0x010 + c) = 0xFFFFFFFFFFF0FFFF := by
    rw [sysMask, if_neg (by omega), if_neg (by omega), if_neg (by omega)]
  rw [Brick.writeSys, if_neg (by omega), if_neg (by omega), if_pos (by omega), mask, Nat.add_sub_cancel_left]

theorem Brick.writeSys_log (log : 0x102 ≤ n) : b.writeSys n x =
    if x = 0 then { b with y := { b.y with elog := cdrop b.y.elog ((n - 0x100) / 2) } } else b := by
  rw [Brick.writeSys, if_neg (by omega), if_neg (by omega), if_neg (by omega), if_neg (by omega), if_neg (by omega)]

/-- No write reaches the trap record, the register files or the local stores. -/
theorem Brick.writeSys_frame (n : Nat) : (b.writeSys n x).y.trec = b.y.trec ∧ (b.writeSys n x).r = b.r ∧
    (b.writeSys n x).loc = b.loc := by
  unfold Brick.writeSys
  split_ifs <;> exact ⟨rfl, rfl, rfl⟩

theorem Brick.writeSys_log_zero {i : Nat} (log : 0x102 ≤ n) (half : (n - 0x100) / 2 = i) (j : Nat) :
    cget 0 (b.writeSys n 0).y.elog j = if j = i then 0 else cget 0 b.y.elog j := by
  rw [Brick.writeSys_log b 0 log, if_pos rfl, half]
  exact cget_cdrop ..

theorem Brick.writeSys_log_nonzero (log : 0x102 ≤ n) (value : x ≠ 0) : b.writeSys n x = b := by
  rw [Brick.writeSys_log b x log, if_neg value]

end

/-! ## The parts of the statement -/

section
variable {s : State} {gd : Guard} {x : Src} (on : s.guardOn gd = true)
include on

/-- The registers that any class may read and whose word the brick holds as it is. -/
theorem exec_syRsr_held (n : Nat) (v : Word) (reg : (s.src x).toNat = n) (held : (n, v) ∈ [(0x000, s.b.y.nflg), (0x001, s.b.y.tvec),
    (0x004, vget 0 s.b.y.trec 0), (0x005, vget 0 s.b.y.trec 1), (0x006, vget 0 s.b.y.trec 2), (0x007, vget 0 s.b.y.trec 3),
    (0x010, vget 0 s.b.y.wcmp 0), (0x017, vget 0 s.b.y.wcmp 7)]) :
    exec (.syRsr gd x) s = .next (s.launchOp 1 (.res .syr v)) := by
  simp only [List.mem_cons, List.not_mem_nil, or_false] at held
  rcases held with ⟨rfl, rfl⟩ | ⟨rfl, rfl⟩ | ⟨rfl, rfl⟩ | ⟨rfl, rfl⟩ | ⟨rfl, rfl⟩ | ⟨rfl, rfl⟩ | ⟨rfl, rfl⟩ | ⟨rfl, rfl⟩
  all_goals exact exec_syRsr_open on reg (by decide) rfl

theorem exec_syWsr_writable (n : Nat) (reg : (s.src x).toNat = n)
    (writable : n ∈ [0x000, 0x001, 0x010, 0x011, 0x012, 0x013, 0x014, 0x015, 0x016, 0x017]) :
    exec (.syWsr gd x) s = .next (s.defer (.sys n (s.opd .syo))) := by
  simp only [List.mem_cons, List.not_mem_nil, or_false] at writable
  rcases writable with rfl | rfl | rfl | rfl | rfl | rfl | rfl | rfl | rfl | rfl
  all_goals exact exec_syWsr_open on reg (by decide) rfl

theorem exec_syWsr_readOnly (n : Nat) (reg : (s.src x).toNat = n)
    (readOnly : n ∈ [0x002, 0x004, 0x005, 0x006, 0x007, 0x008, 0x009]) : exec (.syWsr gd x) s = .next (s.illegal 9) := by
  simp only [List.mem_cons, List.not_mem_nil, or_false] at readOnly
  rcases readOnly with rfl | rfl | rfl | rfl | rfl | rfl | rfl
  all_goals exact exec_syWsr_barred on reg (by decide) rfl

theorem exec_syRsr_log {n : Nat} (log : 0x102 ≤ n ∧ n ≤ 0x119) (privileged : s.cls ≠ 0) (reg : (s.src x).toNat = n) :
    exec (.syRsr gd x) s = .next (s.launchOp 1 (.res .syr (s.sysReg n))) :=
  exec_syRsr_open on reg (by omega) (State.sysBar_granted (sysAcc_log log) privileged rfl)

end

/-- Settles O23: an access is judged by its reserved bits, then by the list of R380 and the class; what it may do is then the
register's own read or write. -/
theorem systemRegisterAccess : Obligations.SystemRegisterAccess := by
  unfold Obligations.SystemRegisterAccess
  refine ⟨fun gd x s on => ⟨exec_syRsr_held on, ?tstate, ?ctxid, ?ptroot, ?einj, ?logs, ?reserved, ?unlisted,
    exec_syWsr_writable on, ?privileged, exec_syWsr_readOnly on, ?icinv⟩, fun b x => ?writes⟩
  case tstate => exact fun reg => ⟨_, exec_syRsr_open on reg (by decide) rfl, tstate_fields _ _⟩
  case ctxid => exact fun reg => ⟨_, exec_syRsr_open on reg (by decide) rfl, ctxid_fields _ _⟩
  case ptroot =>
    intro reg e entry
    rw [exec_syRsr_open on reg (by decide) rfl, State.sysReg_ptroot entry]
  case einj =>
    exact fun reg privileged => exec_syRsr_open on reg (by decide) (State.sysBar_granted sysAcc_einj privileged rfl)
  case logs =>
    intro i first last privileged
    constructor
    · intro reg
      rw [exec_syRsr_log on (by omega) privileged reg, State.sysReg_logLow s first]
    · intro reg
      rw [exec_syRsr_log on (by omega) privileged reg, State.sysReg_logHigh s first]
  case reserved =>
    exact fun reserved => ⟨(exec_syRsr ..).trans (State.sysAccess_reserved _ on reserved),
      (exec_syWsr ..).trans (State.sysAccess_reserved _ on reserved)⟩
  case unlisted =>
    intro n reg small unlisted
    have barred {write : Bool} : s.sysBar n write = some 9 := State.sysBar_unlisted (sysAcc_unlisted unlisted)
    exact ⟨exec_syRsr_barred on reg small barred, exec_syWsr_barred on reg small barred⟩
  case privileged =>
    intro n reg privileged
    obtain ⟨rd, listed, small⟩ := sysAcc_privileged privileged
    refine ⟨fun cls => exec_syWsr_open on reg small (State.sysBar_granted listed cls rfl), fun cls => ⟨?_, ?_⟩⟩
    · exact exec_syWsr_barred on reg small (State.sysBar_ordinary listed rfl cls)
    · exact exec_syRsr_barred on reg small (State.sysBar_ordinary listed rfl cls)
  case icinv => exact fun reg cls => exec_syRsr_barred on reg (by decide) (State.sysBar_withheld sysAcc_icinv cls rfl)
  case writes =>
    simp only [Brick.write_sys]
    refine ⟨rfl, rfl, ?wcmp, rfl, rfl, rfl, ?log, b.writeSys_frame x⟩
    case wcmp =>
      intro c hc j
      rw [Brick.writeSys_wcmp b x hc, vget_vset _ _ _ _ _ hc]
      simp only [eq_comm]
    case log =>
      rintro i first - n number
      refine ⟨?_, Brick.writeSys_log_nonzero b x (by omega)⟩
      rintro rfl
      exact Brick.writeSys_log_zero b (by omega) (by omega)

end Sys2Proof.Machine
end
